-- ==== Sys2Proof/Word.lean ====
section
/-! DEFINITION. The word types of the HTU's boundary: bytes, words, and the identifiers that the spec gives as bit
fields (R42, R53, R558, R605). Nothing here computes anything a test could show wrong. -/

namespace Sys2Proof

/-- One byte. -/
abbrev Byte := BitVec 8
/-- A 32-bit register or word. -/
abbrev Word := BitVec 32
/-- A 64-bit word: a register of a queue, a DVA as software holds it (R43), the time base. -/
abbrev DWord := BitVec 64
/-- A page-table entry (R56 to R58). -/
abbrev PTE := BitVec 128
/-- A context ID (R44). -/
abbrev CtxId := BitVec 14
/-- A queue index (R153). -/
abbrev QIdx := BitVec 3
/-- A host function as FUNC names it (R53): [9:8] host port, [7:0] function number. -/
abbrev FnId := BitVec 10
/-- A virtual-device index (R53). -/
abbrev Vdix := BitVec 8
/-- A host link, 0 to 7 (R402). -/
abbrev LinkId := BitVec 3
/-- A host port, 0 to 3. -/
abbrev PortId := BitVec 2
/-- A control core (R496). -/
abbrev CoreId := BitVec 4
/-- A package index (R471). -/
abbrev PkgId := BitVec 16
/-- An optical link, 4p + k (R457). -/
abbrev OLink := BitVec 6

end Sys2Proof
end

