-- ==== Sys2Proof/Syntax.lean ====
section
/-! DEFINITION. The commands of the block: one constructor of `Instr` for each row of spec/opcode_table.json, with the
operands that say which instance the row names and what the outside world (a host, a partner, a medium, an operator)
contributes to it. Every type here is plain data. -/

namespace Sys2Proof

/-- An initiator (R558). -/
inductive Who where
  | hw
  | host (f : FnId)
  | thread (slot : BitVec 6)
  | mover (ch : BitVec 8)
  | walker (w : BitVec 7)
  | core (n : CoreId)
  | fabric (l : OLink)
  | mgt (port : BitVec 1) (sess : BitVec 3)
  deriving DecidableEq, Repr

/-- The access recorded by ACC of a fault record (R563). -/
inductive Acc where
  | none | read | write | atomic | fetch | regRead | regWrite | message
  deriving DecidableEq, Repr

/-- The kind of address in a fault record (R563 AKIND). -/
inductive AKind where
  | none | dva | ca | pra | bar0 | host | ccpa | bar2
  deriving DecidableEq, Repr

/-- What a block tells FLC about one fault (R563): the fields of the record that the block supplies. -/
structure FaultIn where
  src    : BitVec 9
  who    : Who := .hw
  addr   : DWord := 0
  acc    : Acc := .none
  akind  : AKind := .none
  reason : Byte := 0
  code   : Byte := 0
  pcls   : Byte := 0
  ctx    : Option CtxId := none
  queue  : Option QIdx := none
  iseq   : Word := 0
  forced : Bool := false
  synd   : BitVec 160 := 0
  /-- What the detecting block knows beside the record: the AER bit of a link error (R423), the block whose island is
  off (R620). Not part of the record. -/
  aer    : Option (BitVec 8) := none
  blk    : Option (BitVec 5) := none
  deriving DecidableEq, Repr

/-- What the check bits of an SMS line show (R31). -/
inductive Ecc where
  | ok | corrected | uncorrectable
  deriving DecidableEq, Repr

/-- What a compute engine asks of a DVA (R37 kind 1). -/
inductive CeAccess where
  | load (bytes : Nat)
  | store (data : List Byte)
  | atomic (op : BitVec 3) (wide : Bool) (sg : Bool) (b cmp : DWord)
  deriving DecidableEq, Repr

/-- What a compute die reports for an HBM or tile read (R39); the uncorrectable lines are counted from the read's first
one. -/
inductive HbmStatus where
  | ok | corrected | uncorrectable (lines : List (BitVec 7)) | tileError
  deriving DecidableEq, Repr

/-- The outcome of an ATS Translation Request (R109, R110): granted with a host page of size 2^lsize, or denied. -/
inductive AtsResult where
  | granted (pa : DWord) (lsize : BitVec 6) (r w : Bool)
  | denied
  deriving DecidableEq, Repr

/-- A PRG Response's code (R136). -/
inductive PrgCode where
  | success | invalidRequest | responseFailure
  deriving DecidableEq, Repr

/-- A queue of records in memory with producer and consumer indices (R140, R173). -/
inductive RecQueue where
  | fault (f : FnId)
  | hostCq (c : CtxId)
  | devCq (c : CtxId)
  deriving DecidableEq, Repr

/-- One read attempt of a flash unit at the current ladder step (R388): decoded with its metadata, or not decoded. -/
inductive UnitRead where
  | decoded
  | failed
  deriving DecidableEq, Repr

/-- How data comes back for a read from the die (R335): from SMS or a host port's line cache, where the model holds it
and only the check's outcome is given; or from another holder of a coherent line, with its bytes and its poison. -/
inductive ReadRet where
  | die (ecc : Ecc)
  | snooped (data : List Byte) (poison : Bool)
  deriving DecidableEq, Repr

/-- Why a write failed (R329, R340): before acceptance by a cause, or after it. -/
inductive WriteFail where
  | remoteWrite | ddlDown | portFrozen | partitioned | noReport | remoteXlate | hostPath | roceNak | roceHandle
  deriving DecidableEq, Repr

/-- Link errors of a host link (R423): correctable, or the AER Uncorrectable Error Status bit. -/
inductive HpxErr where
  | corr
  | poisonIn
  | unexpectedCompletion
  | unsupportedIn
  | uncorr (bit : BitVec 8)
  deriving DecidableEq, Repr

/-- How a host link goes down (R427). -/
inductive DownCause where
  | surprise | hotReset | linkDisable | l2 | perst
  deriving DecidableEq, Repr

/-- Coherent requests of R434. -/
inductive CohReq where
  | rds | rdx | upg | rdna | wrline | wbm
  deriving DecidableEq, Repr

/-- MOESI states (R433). -/
inductive Moesi where
  | m | o | e | s | i
  deriving DecidableEq, Repr

/-- The outcome of a partner's or medium's operation. -/
inductive PassFail where
  | pass | fail
  deriving DecidableEq, Repr

/-- A Relay flow key (R462): source package, device flow or not, context, generation and queue. -/
structure FlowKey where
  pkg   : PkgId
  dev   : Bool
  ctx   : CtxId
  gen   : Word
  queue : QIdx
  deriving DecidableEq, Repr

/-- A member's grant in a BIND command (R473, R474). -/
structure Grant where
  svdid    : Word := 0
  home     : PkgId := 0
  multi    : Bool := false
  isHome   : Bool := true
  func     : FnId := 0
  shareMax : BitVec 10 := 896
  slots    : BitVec 7 := 64
  members  : List PkgId := []
  stgBase  : BitVec 12 := 0
  stgSize  : BitVec 12 := 0
  lkBase   : BitVec 12 := 0
  lkCount  : BitVec 13 := 0
  rcBase   : BitVec 16 := 0
  rcCount  : BitVec 16 := 0
  links    : DWord := 0
  flBase   : BitVec 34 := 0
  flCount  : BitVec 34 := 0
  tiles    : BitVec 256 := 0
  hbm      : List (BitVec 7 × BitVec 7) := []
  s2d      : Bool := false
  deriving DecidableEq, Repr

/-- A flash target as FTC finds it at attach (R372 to R374): channel, target, whether it answers, whether the parameter
page meets every condition of R372, the rate it trained to, LUNs, blocks of a LUN, pages of a block, endurance. -/
structure TargetInfo where
  chan      : BitVec 5
  tgt       : BitVec 3
  answers   : Bool
  meets     : Bool
  rate      : BitVec 3
  luns      : Nat
  blocks    : Nat
  pages     : Nat
  endurance : Nat
  factoryBad : List Nat := []
  deriving DecidableEq, Repr

/-- A firmware image as the boot ROM judges it (R598), with the settings schema of its own and the older ones that it
understands (R399, R599). -/
structure Image where
  tag   : Nat
  svn   : Nat
  signed : Bool
  schema : Nat := 0
  older : List Nat := []
  deriving DecidableEq, Repr

/-- A settings record (R399, R547): its schema, the trust anchors, and a body that is opaque here. -/
structure Settings where
  schema : Nat
  seq    : Nat
  body   : Nat
  anchors : List (BitVec 2 × BitVec 64) := []
  deriving DecidableEq, Repr

/-- A writable field of a function's configuration space that the spec gives an effect (R136, R137, R338, R339, R410,
R417, R420 to R422). -/
inductive CfgField where
  | maxPayload | relaxedOrdering | idOrdering | priEnable | priAlloc | msixEnable | msixFunctionMask | pmeEnable
  | memorySpace | aspmL1 | l0p | pmeStatus
  deriving DecidableEq, Repr

/-- Where a register write goes: a block's window (BAR0 offset, R603), a configuration field of a function, or the
MSI-X table of its BAR4 (R406: 16 B an entry, word [3:2]). -/
inductive RegTarget where
  | win (addr : BitVec 21)
  | cfg (f : FnId) (r : CfgField)
  | msix (f : FnId) (vec : BitVec 11) (word : BitVec 2)
  deriving DecidableEq, Repr

/-- What the home of a round on another package answers to JOIN (R297, R303): the code, the party index, and with code 0
what the party's lanes need of the round descriptor and the round secret. -/
structure JoinAns where
  code    : BitVec 3
  party   : BitVec 6 := 0
  mode    : Bool := false
  p       : BitVec 7 := 0
  deg     : BitVec 5 := 0
  scale   : BitVec 8 := 0
  n       : BitVec 33 := 0
  lstripe : BitVec 4 := 10
  secret  : BitVec 256 := 0
  deriving DecidableEq, Repr

/-- Where an AGG of a round's party is issued: on this HTU, with the answer of a round's home on another package; or on
another package toward a round whose home is this HTU. -/
inductive AggVia where
  | here (ans : Option JoinAns)
  | remote (pkg : PkgId) (handle : Word)
  deriving DecidableEq, Repr

/-- The commands. -/
inductive Instr where
  -- doorbells, residency (ch. 05)
  | doorbellWrite (f : FnId) (c : CtxId) (q : QIdx) (off : BitVec 12) (v : Word)
  | contextAdmit
  | evictionStart
  | evictionSpillDone (c : CtxId)
  | spillRestoreDone (c : CtxId)
  -- fault collection (ch. 18), islands
  | faultDetect (f : FaultIn)
  | escalationDieReset
  | faultLogWrite (mediumError : Bool)
  | islandAccessTimeout (who : Who) (island : BitVec 7) (acc : Acc) (addr : DWord)
  -- die-to-die links and SMS (ch. 01)
  | ddlCrcRetry (m : BitVec 5)
  | ddlLaneDegrade (m : BitVec 5)
  | ddlModuleLinkDown (m : BitVec 5)
  | ddlModuleRetrain (m : BitVec 5)
  | ddlTrainComplete (m : BitVec 5) (die : BitVec 3) (hbm : List (BitVec 4 × BitVec 7)) (tiles : BitVec 6) (kib : BitVec 20)
  | ddlLinkwaitExpire (m : BitVec 5)
  | computeEngineRequest (die : BitVec 3) (tile : BitVec 5) (c : CtxId) (dva : DWord) (a : CeAccess)
  | hbmReadResponse (id : Nat) (st : HbmStatus)
  | smsPatrolPass (finds : List (Nat × Ecc))
  -- translation (ch. 03) and tables (ch. 02)
  | xlateLookup (id : Nat)
  | walk (w : BitVec 7)
  | dirtyUpdate (id : Nat)
  | nextPageWalk (d : Nat) (dest : Bool)
  | tblWrite (c : CtxId) (q : QIdx)
  | tableChildUnlink (frame : BitVec 19)
  | tableFrameFree (frame : BitVec 19)
  | tblRead (c : CtxId) (q : QIdx)
  | tblFqset (c : CtxId) (q : QIdx)
  | tblSeqCreate (c : CtxId) (q : QIdx)
  | tblSeqFree (c : CtxId) (q : QIdx)
  | invPage (c : CtxId) (q : QIdx)
  | invRange (c : CtxId) (q : QIdx)
  | invCtx (c : CtxId) (q : QIdx)
  | invS2page (c : CtxId) (q : QIdx)
  | invS2range (c : CtxId) (q : QIdx)
  | invVdev (c : CtxId) (q : QIdx)
  | invAll (c : CtxId) (q : QIdx)
  | invL0fn (c : CtxId) (q : QIdx)
  | invPurgeDone (i : Nat)
  | invComplete (i : Nat)
  | l2EpochScrub (sets : Nat)
  | atsCompletion (id : Nat) (r : AtsResult)
  | atsInvalidateRequest (f : FnId) (pasid : BitVec 20) (addr : DWord) (lsize : BitVec 6) (glob : Bool) (itag : BitVec 5)
  | atsInvalidationCompletion (f : FnId) (itag : BitVec 5)
  | inboundAtsOrTranslated (f : FnId) (addr : DWord)
  | atsEnableChange (f : FnId) (en : Bool)
  | pasidEnableChange (f : FnId) (en : Bool)
  -- fault service (ch. 04)
  | zeroFillComplete (e : BitVec 12)
  | flashFillStart
  | mapSegmentReadDone (seg : Nat)
  | flashUnitReadDone (e : BitVec 12) (r : UnitRead)
  | prgResponse (f : FnId) (idx : BitVec 9) (code : PrgCode)
  | hostFaultTimeout (e : BitVec 12)
  | priEnableClear (f : FnId)
  | queueConsumerPoll (rq : RecQueue) (cons : Word)
  | tierEvictStart
  -- lifecycle (ch. 05)
  | ctxCreate (c : CtxId) (q : QIdx)
  | ctxEvset (c : CtxId) (q : QIdx)
  | qCreate (c : CtxId) (q : QIdx)
  | qReset (c : CtxId) (q : QIdx)
  | qResetDrained (c : CtxId) (q : QIdx)
  | qResume (c : CtxId) (q : QIdx)
  | qDestroy (c : CtxId) (q : QIdx)
  | ctxPin (c : CtxId) (q : QIdx)
  | ctxUnpin (c : CtxId) (q : QIdx)
  | ctxAttach (c : CtxId) (q : QIdx)
  | attachLockoutExpire (c : CtxId)
  | ctxDestroy (c : CtxId) (q : QIdx)
  | forcedAbortMemberTimeout (c : CtxId)
  | forcedAbortFinal (c : CtxId)
  | tagSweepDone (c : CtxId)
  | orphanLeaseExpire (c : CtxId)
  | objCount (c : CtxId) (q : QIdx)
  | hostCounterFetchadd (f : FnId) (i : BitVec 20) (v : DWord)
  | hostCounterCas (f : FnId) (i : BitVec 20) (cmp new : DWord)
  | hostCounterSwap (f : FnId) (i : BitVec 20) (new : DWord)
  | counterFree (i : BitVec 20)
  -- Jarud (ch. 06, 07): the thread of context c issues the instruction at HEAD of queue q
  | nop (c : CtxId) (q : QIdx)
  | br (c : CtxId) (q : QIdx)
  | bri (c : CtxId) (q : QIdx)
  | brl (c : CtxId) (q : QIdx)
  | plog (c : CtxId) (q : QIdx)
  | pset (c : CtxId) (q : QIdx)
  | pread (c : CtxId) (q : QIdx)
  | pwrite (c : CtxId) (q : QIdx)
  | add (c : CtxId) (q : QIdx)
  | adc (c : CtxId) (q : QIdx)
  | sub (c : CtxId) (q : QIdx)
  | sbb (c : CtxId) (q : QIdx)
  | neg (c : CtxId) (q : QIdx)
  | mul (c : CtxId) (q : QIdx)
  | mulh (c : CtxId) (q : QIdx)
  | div (c : CtxId) (q : QIdx)
  | rem (c : CtxId) (q : QIdx)
  | and (c : CtxId) (q : QIdx)
  | or (c : CtxId) (q : QIdx)
  | xor (c : CtxId) (q : QIdx)
  | shl (c : CtxId) (q : QIdx)
  | shr (c : CtxId) (q : QIdx)
  | sar (c : CtxId) (q : QIdx)
  | rol (c : CtxId) (q : QIdx)
  | ror (c : CtxId) (q : QIdx)
  | min (c : CtxId) (q : QIdx)
  | max (c : CtxId) (q : QIdx)
  | cmp (c : CtxId) (q : QIdx)
  | mov (c : CtxId) (q : QIdx)
  | lea (c : CtxId) (q : QIdx)
  | popc (c : CtxId) (q : QIdx)
  | clz (c : CtxId) (q : QIdx)
  | flagsRd (c : CtxId) (q : QIdx)
  | flagsWr (c : CtxId) (q : QIdx)
  | cvt (c : CtxId) (q : QIdx)
  | load (c : CtxId) (q : QIdx)
  | readDataReturn (id : Nat) (r : ReadRet)
  | store (c : CtxId) (q : QIdx)
  | atomSwap (c : CtxId) (q : QIdx)
  | atomAdd (c : CtxId) (q : QIdx)
  | atomAnd (c : CtxId) (q : QIdx)
  | atomOr (c : CtxId) (q : QIdx)
  | atomXor (c : CtxId) (q : QIdx)
  | atomMin (c : CtxId) (q : QIdx)
  | atomMax (c : CtxId) (q : QIdx)
  | atomCas (c : CtxId) (q : QIdx)
  | refAdd (c : CtxId) (q : QIdx)
  | probe (c : CtxId) (q : QIdx)
  | touch (c : CtxId) (q : QIdx)
  | move (c : CtxId) (q : QIdx)
  | convert (c : CtxId) (q : QIdx)
  | aggOpen (c : CtxId) (q : QIdx)
  | aggJoin (c : CtxId) (q : QIdx) (via : AggVia)
  | aggContrib (c : CtxId) (q : QIdx)
  | aggClose (c : CtxId) (q : QIdx)
  | aggLeave (c : CtxId) (q : QIdx) (via : AggVia)
  | hurdle (c : CtxId) (q : QIdx)
  | hurdleRelease (c : CtxId) (q : QIdx)
  | signal (c : CtxId) (q : QIdx)
  | signalRelease (c : CtxId) (q : QIdx)
  | waitEv (c : CtxId) (q : QIdx)
  | waitMem (c : CtxId) (q : QIdx)
  | waitReread (c : CtxId) (q : QIdx)
  | waitTimeout (c : CtxId) (q : QIdx)
  | eventReset (c : CtxId) (q : QIdx)
  | batonTake (c : CtxId) (q : QIdx)
  | batonGive (c : CtxId) (q : QIdx)
  | lockAcq (c : CtxId) (q : QIdx)
  | lockTry (c : CtxId) (q : QIdx)
  | lockRel (c : CtxId) (q : QIdx)
  | lockWaitTimeout (who : Who) (c : CtxId) (q : QIdx)
  | time (c : CtxId) (q : QIdx)
  | deadline (c : CtxId) (q : QIdx)
  | admitItem (c : CtxId) (q : QIdx)
  | budget (c : CtxId) (q : QIdx)
  -- aggregation rounds (ch. 09)
  | stripeAccept (slot : BitVec 4) (party : BitVec 6) (stripe : BitVec 18) (words : List DWord) (clamped nans : BitVec 16)
  | aggCutoffTimeout (slot : BitVec 4)
  | aggReleaseStart (slot : BitVec 4)
  | aggReleaseDone (slot : BitVec 4) (r : PassFail) (code : Byte)
  -- movement (ch. 10)
  | channelWaitPlace
  | descriptorComplete (d : Nat)
  | writeAccept (id : Nat) (ecc : Ecc)
  | writeDone (id : Nat)
  | writeFailReport (id : Nat) (w : WriteFail)
  | pacePulse (n : BitVec 6)
  | mapRingTailWrite (who : Who) (r : BitVec 4) (v : Word)
  | mapRingEnable (who : Who) (r : BitVec 4) (v : Word)
  -- pacer (ch. 11)
  | heatPlannedEnd
  | heatStretchLimit
  -- flash (ch. 12)
  | flashMount (targets : List TargetInfo)
  | zqCalShort
  | stripeCloseTimeout
  | flashProgramDone (u : Nat) (r : PassFail)
  | flashEraseDone (b : Nat) (r : PassFail)
  | flashSuspendLimit (b : Nat)
  | flashPatrolCheck (b : Nat) (step : BitVec 3) (ok : Bool)
  | flashBlockTest (b : Nat) (r : PassFail)
  | flashTargetFail (chan : BitVec 5) (tgt : BitVec 3)
  | blockTableCheckpoint
  | lapCommitReport
  | logSpillWrite (r : PassFail)
  -- host ports (ch. 13)
  | perstAssert (l : LinkId)
  | perstDeassert (l : LinkId)
  | linkDown (l : LinkId) (why : DownCause)
  | linkUp (l : LinkId) (width : BitVec 5) (cxl : Bool)
  | flr (f : FnId)
  | vfEnableSet (f : FnId) (n : BitVec 8)
  | vfEnableClear (f : FnId)
  | vfMemorySpaceClear (f : FnId)
  | bmeClear (f : FnId)
  | bmeSet (f : FnId)
  | d3hotEnter (f : FnId)
  | d0Return (f : FnId)
  | pmeTurnOff (l : LinkId)
  | pmeResend (f : FnId)
  | aspmL1Request (l : LinkId)
  | l0pNarrowRequest (l : LinkId) (width : BitVec 5)
  | l0pWidenRequest (l : LinkId)
  | partnerPowerRequest (l : LinkId) (state : BitVec 3) (width : BitVec 5)
  | hpxLinkError (l : LinkId) (e : HpxErr)
  | freezeDrainDone (l : LinkId)
  | linkRelease (who : Who) (l : LinkId)
  | msixUnmask (f : FnId) (vec : BitVec 11)
  | intxSeenWrite (who : Who) (l : LinkId) (v : Word)
  | interruptDisableWrite (l : LinkId) (dis : Bool)
  | portCfgWrite (who : Who) (v : Word)
  | inboundUnsupported (f : FnId) (posted : Bool) (addr : DWord)
  | hostReadCompletion (id : Nat) (data : List Byte) (ep : Bool) (ok : Bool)
  | completionTimeout (id : Nat)
  | spdmRequest (via : Who) (msg : Byte)
  -- coherence ring (ch. 14)
  | rds (agent : BitVec 6) (line : Nat)
  | rdx (agent : BitVec 6) (line : Nat)
  | upg (agent : BitVec 6) (line : Nat)
  | rdna (agent : BitVec 6) (line : Nat)
  | wrline (agent : BitVec 6) (line : Nat) (data : List Byte)
  | wbm (agent : BitVec 6) (line : Nat) (data : List Byte)
  | snoopReceive (agent : BitVec 6) (line : Nat)
  | snoopResponse (agent : BitVec 6) (line : Nat)
  | holdExpire (agent : BitVec 6) (line : Nat)
  | memrd (p : PortId) (n : BitVec 1) (off : BitVec 33) (mv : BitVec 2)
  | memrddata (p : PortId) (n : BitVec 1) (off : BitVec 33)
  | memwr (p : PortId) (n : BitVec 1) (off : BitVec 33) (data : List Byte) (poison : Bool)
  | meminv (p : PortId) (n : BitVec 1) (off : BitVec 33)
  | hostSnoop (p : PortId) (line : Nat) (req : CohReq)
  | bisnpResponse (p : PortId) (line : Nat) (dirty : Option (List Byte)) (keep : Moesi)
  | hcaHostResponse (p : PortId) (line : Nat) (data : List Byte) (ok : Bool) (poison : Bool)
  | memwinValidSet (who : Who) (p : PortId) (n : BitVec 1) (v : Word)
  | memwinValidClear (who : Who) (p : PortId) (n : BitVec 1)
  -- fabric (ch. 15)
  | relayWriteReceive (l : OLink) (dst : PkgId) (k : FlowKey) (seq svdid : Word) (ca : BitVec 56) (data : List Byte) (poison : Bool) (hops : BitVec 3)
  | relayReadReceive (l : OLink) (dst : PkgId) (k : FlowKey) (seq svdid : Word) (ca : BitVec 56) (len : Nat) (hops : BitVec 3)
  | relayReadresp (id : Nat) (data : List Byte) (poison : Bool)
  | relayAtomicReceive (l : OLink) (dst : PkgId) (k : FlowKey) (seq svdid : Word) (ca : BitVec 56) (op : BitVec 3) (wide sg : Bool) (b cmp : DWord) (hops : BitVec 3)
  | relayAtomresp (id : Nat) (old : DWord)
  | relayAck (k : FlowKey) (seq : Word)
  | relayNack (k : FlowKey) (seq : Word) (code reason : Byte)
  | relayRetry (k : FlowKey) (seq : Word)
  | relayResume (k : FlowKey) (seq : Word)
  | relayFlowreset (l : OLink) (k : FlowKey)
  | relayFlowresetAck (k : FlowKey)
  | relayLease (svdid : Word) (e : DWord)
  | relayLeaseAck (svdid : Word) (pkg : PkgId) (e : DWord)
  | relayControl (l : OLink) (lap : Word)
  | relayPtp (l : OLink) (offset : BitVec 16) (gm : Bool) (step : DWord)
  | relayWriteResend (k : FlowKey) (seq : Word)
  | relayReportTimeout (k : FlowKey) (seq : Word)
  | flowEntryIdleFree (k : FlowKey)
  | opticalLinkDown (l : OLink)
  | wavelengthLoss (l : OLink) (lanes : BitVec 4)
  | relayLinkTrained (l : OLink) (lanes : BitVec 4)
  | attestationDone (l : OLink) (r : PassFail)
  | ptpSyncLost
  | ptpHoldoverExpire
  | roceResponse (id : Nat) (data : List Byte)
  | roceConnectionError (conn : BitVec 16)
  | roceInboundRequest (l : OLink)
  | ofpPortCfgWrite (who : Who) (p : BitVec 4) (v : Word)
  -- binding (ch. 15)
  | bind (g : Grant)
  | bindPrepare (g : Grant)
  | bindCommit (svdid : Word) (ctl : CtxId) (ring : DWord)
  | bindAbort (svdid : Word)
  | unbind (svdid : Word)
  | remove (svdid : Word) (rem : Grant)
  | capacityAdd (svdid : Word) (add : Grant)
  | survivor (svdid : Word) (home : PkgId)
  | fence (svdid : Word)
  | leaseSend (svdid : Word)
  | leaseFence (v : Vdix)
  | leaseLapse (v : Vdix) (pkg : PkgId)
  | leaseReclaim (v : Vdix) (pkg : PkgId)
  | leaseOverdue (v : Vdix)
  | memberAbort (pkg : PkgId) (c : CtxId) (gen : Word)
  | pageMoveStart (v : Vdix) (ca : BitVec 56) (cls : Byte) (idx : BitVec 24) (off : BitVec 48)
  | pageMoveCopyDone (v : Vdix) (ca : BitVec 56)
  | relayWindowClose (v : Vdix) (ca : BitVec 56)
  | pageMoveStreamFail (v : Vdix) (ca : BitVec 56)
  | tileDrainLimit (die : BitVec 3) (tile : BitVec 5)
  | tileCommandReturn (die : BitVec 3) (tile : BitVec 5) (c : CtxId) (e : BitVec 16) (restartable : Bool)
  -- control cores, interrupts, locks (ch. 16)
  | cpTime (n : CoreId)
  | cpXlate (n : CoreId) (x y : DWord)
  | cpLocktry (n : CoreId) (x : DWord)
  | cpLockacq (n : CoreId) (x y : DWord)
  | cpLockrel (n : CoreId) (x : DWord)
  | cpEoi (n : CoreId) (x : DWord)
  | cpTpr (n : CoreId) (x : DWord)
  | cpMaskwin (n : CoreId) (x y : DWord)
  | cpIpi (n : CoreId) (x : DWord)
  | cpCommit (n : CoreId)
  | falseStart (n : CoreId) (k : Nat)
  | ccBusErr (n : CoreId) (addr : BitVec 40) (size : BitVec 7) (write : Bool)
  | icuOffer
  | icuOfferAccept (n : CoreId)
  | icuOfferTimeout (n : CoreId)
  | icuWithdrawAnswer (n : CoreId) (accepted : Bool)
  | maskWindowExpire (n : CoreId)
  | icuNoTarget (src : BitVec 10)
  | icuSwset (who : Who) (src : BitVec 10)
  | lktReqTry (who : Who) (lk : BitVec 12)
  | lktReqRel (who : Who) (lk : BitVec 12)
  -- security and management (ch. 17)
  | lap (link : Bool) (id : BitVec 14)
  | sweepPageDone (chan : BitVec 4)
  | scrubPageDone (chan : BitVec 4) (page : BitVec 24) (r : PassFail)
  | linkKeyUpdate (l : OLink)
  | keyPhaseOldExpire (l : OLink)
  | lapStep
  | entropyHealthFail
  | entropyHealthPass
  | mgtSessionConnect (port : BitVec 1) (cert : Option (BitVec 64))
  | claim (code : Nat) (anchor : BitVec 64)
  | claimLockoutExpire
  | anchorChange (slot : BitVec 2) (anchor : Option (BitVec 64))
  | svnRaise (svn : Nat)
  | faultPolicy (who : Who) (src : BitVec 9) (level : BitVec 3) (cls : BitVec 2)
  | packageIndexAssign (idx : PkgId)
  | routeTableUpdate (dst : PkgId) (links : List OLink) (hops : BitVec 3)
  | roceConnectionCreate (slot : BitVec 16) (link : OLink)
  | statusRead (who : Who) (addr : BitVec 21)
  | logRead (who : Who) (i : Word) (mediumError : Bool)
  | update (img : Image) (readback : Bool)
  | rollback (who : Who)
  | reset (who : Who)
  | recover
  | lgclear
  | flcAck (who : Who) (src : BitVec 9)
  | faultForce (who : Who) (src : BitVec 9)
  | logConsume (who : Who) (v : Word)
  | logResume (who : Who) (pass : Bool)
  | flcReleaseRegion (who : Who) (r : BitVec 2)
  | flcReleaseBlock (who : Who) (b : BitVec 5)
  | rcHeartbeat (n : CoreId) (standbyReg : Bool)
  | rcArm (who : Who)
  | rcTakeover
  | rcStandbyLost
  | fallbackHold
  | rcRestart (who : Who)
  -- reset and bring-up (ch. 19)
  | powerOn
  | rstNAssert
  | rstNRelease
  | wrstNAssert
  | wrstNRelease
  | bootWatchdogExpire
  | runtimeWatchdogExpire
  | wdogKick (who : Who)
  | strideEngineReset (who : Who) (k : BitVec 5)
  | moverUnitReset (who : Who) (k : BitVec 3)
  | walkerQuarterReset (who : Who) (k : BitVec 2)
  | lanePairReset (who : Who) (k : BitVec 4)
  | controlCoreReset (who : Who) (k : CoreId)
  | clusterReset (who : Who) (k : BitVec 4)
  | islandPowerUp (locks : List Nat)
  | islandPllTimeout (island : BitVec 7)
  | smsInitDone (bad : List Nat)
  | tstInitDone
  | bootImageLoad
  | bootDoneWrite (who : Who)
  | quarantineSet (who : Who)
  -- registers (ch. 20)
  | blkCtrlWrite (who : Who) (block : BitVec 5) (v : Word)
  | registerWrite (who : Who) (t : RegTarget) (v : Word)
  | aliasSetWrite (who : Who) (addr : BitVec 21) (v : Word)
  | aliasClearWrite (who : Who) (addr : BitVec 21) (v : Word)
  | aliasToggleWrite (who : Who) (addr : BitVec 21) (v : Word)
  | pairLoRead (who : Who) (addr : BitVec 21)
  | parityScan (bad : List (BitVec 21))
  | powerLoss
  -- later rows of the table
  | mgtSessionEnd (port : BitVec 1) (sess : BitVec 3)
  | mgtLinkUp (port : BitVec 1)
  | mgtLinkDown (port : BitVec 1)
  | ethernetLinkUp (l : OLink)
  | arpNdLldpFrame (l : OLink) (frame : List Byte)
  | congestionNotification (conn : BitVec 16)
  | pfcPauseFrame (l : OLink) (quanta : BitVec 16)
  | roceRetryTimeout (conn : BitVec 16)
  | lockRoceRangeDrainLimit (v : Vdix)
  | settingsCommand (rec : Settings)
  | l1Exit (l : LinkId)
  | tapTck (tms tdi : Bool)
  | trstNAssert
  deriving DecidableEq, Repr

end Sys2Proof
end

