-- ==== Sys2Proof/WellFormed.lean ====
section
/-! DEFINITION. Well-formed commands: operands that name an instance the spec has, and data of the length the operation
carries. The meanings are total on every command. -/

namespace Sys2Proof

/-- A host function number exists on its port: 0 to 255 (R403); every 10-bit value names one. A link instance of the
optical ports is 0 to 63, a die-to-die module 0 to 23 (R37), a HBM channel 0 to 15. -/
def moduleOk (m : BitVec 5) : Bool := decide (m.toNat < 24)

/-- A line of coherent or CXL.mem data is 64 bytes (R431). -/
def lineData (d : List Byte) : Bool := decide (d.length = 64)

/-- Islands 0 to 95 (ch. 01). -/
def islandOk (i : BitVec 7) : Bool := decide (i.toNat < 96)

/-- A reset command's unit numbers: engines 0 to 31, units 0 to 7 and so on hold by their widths; a flash channel,
target and block are given by number. Well-formedness of a command. -/
def Instr.wf : Instr → Bool
  | .ddlCrcRetry m => moduleOk m
  | .ddlLaneDegrade m => moduleOk m
  | .ddlModuleLinkDown m => moduleOk m
  | .ddlModuleRetrain m => moduleOk m
  | .ddlTrainComplete m _ _ _ _ => moduleOk m
  | .ddlLinkwaitExpire m => moduleOk m
  | .islandAccessTimeout _ i _ _ => islandOk i
  | .islandPllTimeout i => islandOk i
  | .wrline _ _ d => lineData d
  | .wbm _ _ d => lineData d
  | .memwr _ _ _ d _ => lineData d
  | .hcaHostResponse _ _ d ok _ => !ok || lineData d
  | .bisnpResponse _ _ (some d) _ => lineData d
  | .blkCtrlWrite _ b _ => decide (b.toNat < 19)
  | .settingsCommand r => decide (r.schema ≠ 0)
  | _ => true

end Sys2Proof
end

