-- ==== Sys2Proof/Decode.lean ====
section
/-! DEFINITION. The opcode table gives none of its rows any bits: no word spells a command, so the table's decoder
rejects every word. -/

namespace Sys2Proof

/-- The command that a word of the table spells: none, because no row of the table has bits. -/
def decodeTableWord (_nbits _w : Nat) : Option Instr := none

end Sys2Proof
end

