-- ==== Sys2Proof/Config.lean ====
section
/-! DEFINITION. What one HTU fixes for itself and what the spec leaves open: opaque constants with no body. A value of
one of these is FREE: nothing constrains it, and no claim rests on it (notes/assumptions/2, 3, 4). -/

namespace Sys2Proof.Config

/-- A byte that the spec leaves undefined: HBM or tile memory not yet written, or left by a failed write (R38).
Argument: the model's free-value counter. -/
opaque freeByte : Nat → Byte
/-- A 64-bit value that the spec leaves open: a random attach cookie (R155), a pseudo-random way (R116), a generator's
seed (R285), entropy (R526). Argument: the model's free-value counter. -/
opaque freeWord : Nat → DWord
/-- The fused aggregation root (R525). -/
opaque aggRoot : BitVec 256
/-- Device Serial Number, stepping and metal layer (R616): fuses. -/
opaque serial : DWord
opaque stepping : Byte
opaque metal : Byte
/-- The fused minimum security version number of the die (R525). -/
opaque fusedSvn : Nat
/-- This die's claim code (R548), as a number. -/
opaque claimCode : Nat
/-- The L0 set that a function, PASID and host page select (R80 gives 256 sets and no set function). -/
opaque l0Set : FnId → BitVec 20 → Nat → Nat
/-- The hash by which a flow chooses among its up links (R468). -/
opaque routeHash : PkgId → Nat → Nat
/-- Retransmissions of a RoCE request before its connection is in error (R470 names a limit and no number). -/
opaque roceRetryLimit : Nat
/-- IEEE 1149.1 instruction code of the test access port: which instruction a shifted-in register holds (R618). -/
opaque tapCode : List Bool → Nat
/-- The LEVEL that RC_BOTH_LOST records carry and FLC_SRC_CFG_7 reads: R559 gives its reaction and no level. -/
opaque bothLostLevel : BitVec 3
/-- Length of the boundary-scan register and of the instruction register (R618). -/
opaque tapBoundaryLength : Nat
opaque tapIrLength : Nat
/-- The bits of IDCODE that R618 does not give: version and manufacturer. -/
opaque tapIdRest : Word

end Sys2Proof.Config
end

