-- ==== Sys2Proof/Machine/State.lean ====
section
/-! DEFINITION. The state of the HTU: every register, table, queue, cache, counter, mode and pin the spec gives the
block, as plain data, and the queue of waiting commands. The state right after reset. The reasons a step can stop. -/

namespace Sys2Proof.Machine

/-- A finite map from numbers, as an association list with strictly rising keys. -/
abbrev Map (α : Type) := List (Nat × α)

/-- A byte memory in canonical form: strictly rising addresses, no entry equal to 0, which an unlisted byte reads as
(R34 writes zeros; notes/assumptions/7). -/
abbrev Memory := List Host.Cell

/-! ## Queues and contexts (ch. 05, 06) -/

/-- STATE of a queue record (R157). -/
inductive QState where
  | undefined | active | broken | stalled
  deriving DecidableEq, Repr

/-- What runs after the HURDLE part of an instruction ends (R253, R255). -/
inductive AfterHurdle where
  | nothing
  | eventReset (e : Nat)
  | lockRel (k : Nat) (rd : BitVec 5)
  deriving DecidableEq, Repr

/-- What the head instruction of a queue waits for after it has issued (RWAIT of R168). -/
inductive Wait where
  | hurdle (dirs : BitVec 3) (after : AfterHurdle) (mark : Nat)
  | event (e : Nat) (thr : Word) (rd : BitVec 5) (limit : Option DWord)
  | mem (dva : DWord) (rel : BitVec 3) (sg : Bool) (b : DWord) (rd : BitVec 5) (limit : Option DWord) (last : DWord)
  | moveB (d : Nat)
  | channel (d : Nat)
  | lock (k : Nat) (rd : BitVec 5) (limit : Option DWord)
  | lifecycle (rd : BitVec 5)
  deriving DecidableEq, Repr

/-- A Q.RESET (or Q.DESTROY, or the reset of a teardown or re-attach) in progress (R162): the code that errors the
discarded SIGNAL's event, the queue to which a result is written, and whether the queue is undefined at its end. -/
structure Resetting where
  code    : Byte
  replyTo : Option (CtxId × QIdx × BitVec 5) := none
  destroy : Bool := false
  deriving DecidableEq, Repr

/-- A queue record (R157), its architectural state (R188), its spill fields (R168) and what DQE and PCR hold for it. -/
structure Queue where
  state    : QState := .undefined
  rdva     : DWord := 0
  ring     : List Nat := []
  lsize    : Nat := 7
  dcls     : BitVec 3 := 0
  rlx      : Bool := false
  head     : Word := 0
  tail     : Word := 0
  g        : List DWord := List.replicate 32 0
  pred     : Byte := 0
  flags    : Byte := 0
  rwait    : Bool := false
  bseq     : Word := 0
  deadline : DWord := 0
  wait     : Option Wait := none
  /-- Ring words of the instruction at HEAD that has issued and waits. -/
  wlen     : Nat := 1
  rlxGrant  : Bool := false
  highGrant : Bool := false
  resetting : Option Resetting := none
  heldTail  : Option Word := none
  pendErr   : Option (Byte × Word) := none
  refusing  : List (Byte × BitVec 24) := []
  wrote     : List PkgId := []
  /-- SIGNALs written while earlier writes were outstanding (id, event, seq), oldest first (R341). -/
  sigs      : List (Nat × Nat × Word) := []
  /-- SIGNALs whose flag writes were discarded at the break (id, event, seq), oldest first (R162, R340). -/
  discarded : List (Nat × Nat × Word) := []
  deriving DecidableEq, Repr

/-- A completion record or context-end record (R173). -/
structure CqRec where
  event    : BitVec 16 := 0
  st       : BitVec 2 := 0
  late     : Bool := false
  kind     : Bool := false
  code     : Byte := 0
  queue    : QIdx := 0
  seq      : Word := 0
  value    : Word := 0
  lateness : Word := 0
  deriving DecidableEq, Repr

/-- Where a context's teardown stands (R179, R181). -/
inductive Teardown where
  | none
  | resets | counters
  | inval | sweep
  | abort (waiting : List PkgId) (start : DWord)
  deriving DecidableEq, Repr

/-- A context: the context table entry (R53, R157) and the state DQE keeps for it. -/
structure Ctx where
  tv      : Bool := true
  s1d     : Bool := false
  vdix    : Vdix := 0
  func    : FnId := 0
  gen     : Word := 0
  lap     : Word := 0
  sweep   : Bool := false
  s1root  : BitVec 19 := 0
  slot    : Option Nat := none
  restoring : Bool := false
  evict   : Bool := false
  wait    : Bool := false
  pin     : Bool := false
  pinWait : Bool := false
  orph    : Bool := false
  ctl     : Bool := false
  rlxcap  : Bool := false
  defunct : Bool := false
  lastdb  : DWord := 0
  cookie  : DWord := 0
  orphend : DWord := 0
  evdva   : DWord := 0
  cqdva   : DWord := 0
  dcqdva  : DWord := 0
  lev     : Nat := 0
  lcq     : Nat := 0
  ldcq    : Nat := 0
  vec     : BitVec 11 := 0
  cqen    : Bool := false
  evset   : Bool := false
  evPages  : List Nat := []
  dcqPages : List Nat := []
  cqPages  : List (Byte × BitVec 24 × Nat) := []
  cqProd   : Word := 0
  cqCons   : Word := 0
  dcqProd  : Word := 0
  dcqCons  : Word := 0
  recWait  : List CqRec := []
  heldDb   : Bool := false
  since    : DWord := 0
  share    : Nat := 64
  budget   : Nat := 0
  teardown : Teardown := .none
  reply    : Option (CtxId × QIdx × BitVec 5) := none
  queues   : List Queue := List.replicate 8 ({} : Queue)
  deriving DecidableEq, Repr

/-- DQE (R165 to R171, R184, R186): waiting room, bitmap, slots, the victim being evicted, the grants' waiting order. -/
structure Dqe where
  room     : List Nat := []
  bitmap   : List Nat := []
  pointer  : Nat := 0
  victim   : Option Nat := none
  rlxWait  : List (Nat × Nat) := []
  highWait : List (Nat × Nat) := []
  attachBan : Map DWord := []
  deriving DecidableEq, Repr

/-! ## Table Store, translation and faults (ch. 02 to 04) -/

/-- A reference counter (R174). -/
structure Counter where
  ctx  : CtxId
  obj  : BitVec 20
  st   : BitVec 2
  href : BitVec 14
  dref : BitVec 14
  deriving DecidableEq, Repr

/-- A sequence descriptor (R76). `low` counts the blocks whose demotion has come up at a heat boundary (R78). -/
structure SeqDesc where
  ctx     : CtxId
  obj     : BitVec 20
  base    : DWord
  lstride : Nat
  lblock  : Nat
  limit   : Nat
  head    : Nat
  hot     : Nat
  low     : Nat := 0
  deriving DecidableEq, Repr

/-- STATE of a virtual-device record (R474). -/
inductive VState where
  | free | prepared | bound | fenced | unbinding
  deriving DecidableEq, Repr

/-- A virtual-device table entry (R54, R474) with what BND keeps for it: the members' leases, the resources being removed
and whether the drain limit of their locks and connections has passed (R490), the resources to add at the next heat
boundary, and the control context that the firmware made in it with its ring's DVA (R154). -/
structure VDev where
  vv      : Bool := false
  st      : VState := .free
  s2root  : BitVec 19 := 0
  grant   : Grant := {}
  leaseExp : DWord := 0
  lastLease : DWord := 0
  /-- When each member last answered a LEASE, and the expiry last sent to it (R477, R479, R480). -/
  acked   : List (PkgId × DWord) := []
  memberExp : List (PkgId × DWord) := []
  lapsed  : List PkgId := []
  removing : Option Grant := none
  removeAt : DWord := 0
  rangeOver : Bool := false
  adding  : List Grant := []
  ctl     : Option (CtxId × DWord) := none
  deriving DecidableEq, Repr

/-- A table frame in use (R50, R55): its level, whether it is stage 2, granule, its number of valid entries, and the
pointer entry that names it (frame and index), none for a root. -/
structure Frame where
  level  : Nat
  stage2 : Bool
  gran   : Bool := false
  vcount : Nat := 0
  parent : Option (Nat × Nat) := none
  deriving DecidableEq, Repr

/-- A child table that R72 will free: the scope and address of the leaf whose clearing emptied it, whether the covering
invalidation has completed, and whether its pointer is cleared. -/
structure Unlink where
  frame    : Nat
  stage2   : Bool
  owner    : Nat
  addr     : DWord
  lsize    : Nat
  invDone  : Bool := false
  cleared  : Bool := false
  deriving DecidableEq, Repr

/-- A translation as L1, L2 and requests carry it (R81). -/
structure Trans where
  stage2 : Bool := false
  ctx    : CtxId := 0
  vdix   : Vdix := 0
  page   : Nat := 0
  ca     : Nat := 0
  lsize  : Nat := 12
  cls    : Byte := 0
  idx    : BitVec 24 := 0
  off    : Nat := 0
  owner  : CtxId := 0
  lp     : Bool := false
  pin    : Bool := false
  shared : Bool := false
  r      : Bool := false
  w      : Bool := false
  qok    : Bool := false
  cok    : Bool := false
  own    : Bool := false
  dirty  : Bool := false
  epochs : Byte × Byte × Byte := (0, 0, 0)
  deriving DecidableEq, Repr

/-- A cached translation: which cache it is in (L1 of a cluster, or L2), its set and way. -/
structure CacheEntry where
  l1  : Option (BitVec 4)
  set : Nat
  way : Nat
  t   : Trans
  deriving DecidableEq, Repr

/-- An L0 entry (R80, R110). -/
structure L0Entry where
  func  : FnId
  pasid : BitVec 20
  page  : Nat
  lsize : Nat
  pa    : Nat
  r     : Bool
  w     : Bool
  set   : Nat := 0
  way   : Nat := 0
  deriving DecidableEq, Repr

/-- What an access request is for. -/
inductive Purpose where
  | load (rd : BitVec 5) (sg : Bool)
  | store (data : List Byte)
  | atom (rd : BitVec 5) (op : BitVec 3) (sg : Bool) (b cmp : DWord)
  | wait
  | descRead (d : Nat)
  | descWrite (d : Nat) (data : List Byte) (poison : Bool)
  | statusRec (d : Nat) (data : List Byte)
  | aggSend (d : Nat)
  | ceLoad (die : BitVec 3)
  | ceStore (die : BitVec 3) (data : List Byte)
  | ceAtom (die : BitVec 3) (op : BitVec 3) (sg : Bool) (b cmp : DWord)
  | remoteWrite (k : FlowKey) (seq : Word) (data : List Byte) (poison : Bool)
  | remoteRead (k : FlowKey) (seq : Word)
  | remoteAtom (k : FlowKey) (seq : Word) (op : BitVec 3) (sg : Bool) (b cmp : DWord)
  deriving DecidableEq, Repr

/-- Where an access request stands. -/
inductive Phase where
  | lookup
  | walkQ
  | walker (w : Nat)
  | joined (leader : Nat)
  | dirty (w : Nat)
  | fault (e : Nat)
  | relay
  | ats
  | held
  | sent
  | accepted
  deriving DecidableEq, Repr

/-- An access request: a scalar access, a page piece of a descriptor, a compute-engine or fabric request. Its id is its
place in program order. -/
structure Req where
  id      : Nat
  who     : Who
  cluster : Option (BitVec 4) := none
  ctx     : CtxId
  queue   : Option QIdx := none
  seq     : Word := 0
  s2only  : Option Vdix := none
  addr    : DWord
  len     : Nat
  rd      : Bool
  wr      : Bool
  flag    : Bool := false
  purpose : Purpose
  phase   : Phase := .lookup
  tr      : Option Trans := none
  poison  : Bool := false
  started : DWord := 0
  deriving DecidableEq, Repr

/-- A held SIGNAL (R249): its id is its place in program order; `deadline` is the queue's at issue (R263). -/
structure Held where
  id    : Nat
  ctx   : CtxId
  queue : QIdx
  seq   : Word
  event : Nat
  value : Word
  deadline : DWord := 0
  deriving DecidableEq, Repr

/-- Which service a pending-fault entry runs (R119, R127, R537). -/
inductive Service where
  | zero | flash | host | evict | sweep
  deriving DecidableEq, Repr

/-- A pending-fault entry (R120): the leaf's place, the leaf before BUSY, the waiters, and how far the service is. -/
structure PFault where
  vdix    : Vdix
  ca      : Nat
  key     : Nat
  leaf    : PTE
  svc     : Service
  waiters : List Nat := []
  start   : DWord := 0
  ctx     : CtxId := 0
  func    : FnId := 0
  write   : Bool := false
  place   : Option Nat := none
  active  : Bool := false
  prgIdx  : Option (BitVec 9) := none
  prgSent : Bool := false
  recSent : Bool := false
  units   : Nat := 0
  ladder  : Nat := 0
  mapWait : Bool := false
  flash   : Option Nat := none
  buf     : List Byte := []
  /-- A host page of a MAPPED HOST_VA leaf that ATS denied (R109, R136): its service leaves the leaf as it is. -/
  hostPage : Option Nat := none
  /-- A Success has come and the grant of ATS is awaited (R136 step 2). -/
  atsWait : Bool := false
  deriving DecidableEq, Repr

/-- A slab of the tier cache (R123): its page size (log2), whether it holds pinned pages, and the places that are in
use or awaiting an invalidation (R621). -/
structure Slab where
  lsize  : Nat
  pinned : Bool
  used   : List Nat := []
  waits  : List Nat := []
  deriving DecidableEq, Repr

/-- A tier-cache directory entry (R125), keyed by the page's byte offset in the tier cache. `retained` tells a copy that
is no longer the page (R127 step 5). -/
structure DirEntry where
  vdix  : Vdix
  ca    : Nat
  lsize : Nat
  flash : Option Nat
  lp    : Bool
  dirty : Bool
  ref   : Bool
  owner : CtxId
  retained : Bool := false
  deriving DecidableEq, Repr

/-- Who issued an invalidation (R102). -/
inductive InvSrc where
  | regs
  | queue (c : CtxId) (q : QIdx)
  | internal (tag : Nat)
  deriving DecidableEq, Repr

/-- Operation of an invalidation (R95). -/
inductive InvOp where
  | page | range | ctx | s2page | s2range | vdev | all | l0fn
  deriving DecidableEq, Repr

/-- What the HTU does when an invalidation that it issued itself completes (R127, R178, R179, R482, R536). -/
inductive InvThen where
  | nothing
  | evict (e : Nat)
  | reclaim (counter : Nat)
  | undefine (c : CtxId)
  | pageMove (v : Vdix) (ca : Nat)
  | sweepReg (chan : Nat)
  | vdevGone (v : Vdix)
  deriving DecidableEq, Repr

/-- An invalidation in progress (R97, R102): the requests that its drain waits for are fixed at the purge. -/
structure Inv where
  id     : Nat
  src    : InvSrc
  op     : InvOp
  scope  : Nat
  addr   : DWord := 0
  len    : Nat := 0
  purged : Bool := false
  drain  : List Nat := []
  after  : InvThen := .nothing
  /-- Tier-cache places and child tables that wait for a covering invalidation and were waiting at this purge
  (R72, R621). -/
  places : List Nat := []
  frames : List Nat := []
  deriving DecidableEq, Repr

/-- An epoch value retired (R100, R101): scope (0 die, 1 + vdix, 1000 + ctx), value, and the sets that the scrubber still
has to visit before it is usable again. -/
structure Retired where
  scope : Nat
  value : Byte
  left  : Nat
  deriving DecidableEq, Repr

/-- A fault-queue record still waiting for space (R142), as the model keeps it. -/
structure FqRec where
  kind    : Byte
  ts      : Byte
  code    : Byte
  reason  : Byte
  ctx     : CtxId
  queue   : QIdx
  dva     : DWord
  ca      : Nat
  init    : BitVec 16
  acc     : BitVec 2
  vdix    : Vdix
  seq     : Word
  time    : DWord
  entry   : Nat
  deriving DecidableEq, Repr

/-- A function's fault queue (R140). -/
structure FaultQ where
  ctx   : CtxId
  pages : List Nat
  base  : DWord
  lrec  : Nat
  vec   : BitVec 11
  prod  : Word := 0
  cons  : Word := 0
  lost  : Word := 0
  waiting : List FqRec := []
  deriving DecidableEq, Repr

/-- A root-cache entry of a walker quarter (R80): the translation fields of a context and of its virtual device. -/
structure RootEntry where
  quarter : Nat
  ctx     : CtxId
  tv      : Bool
  s1d     : Bool
  vdix    : Vdix
  s1root  : Nat
  s2d     : Bool
  s2root  : Nat
  deriving DecidableEq, Repr

/-- An HBM page that waits to be scrubbed (R540): channel, 4 KiB page index, size, the virtual device to whose pool it
returns, and the counter whose reclamation waits for it (R178). -/
structure Scrub where
  chan    : Nat
  page    : Nat
  lsize   : Nat
  vdix    : Vdix
  counter : Option Nat := none
  deriving DecidableEq, Repr

/-- What a reclamation has released: HBM pages, tier-cache places, and child tables left empty (R72, R178). -/
structure Released where
  hbm    : List Scrub := []
  places : List Nat := []
  frames : List Nat := []
  deriving DecidableEq, Repr

/-- XLT and the Table Store. -/
structure Xlt where
  entries  : Map PTE := []
  frames   : Map Frame := []
  unlinks  : List Unlink := []
  counters : Map Counter := []
  seqs     : Map SeqDesc := []
  cache    : List CacheEntry := []
  plru     : Map Nat := []
  l0       : List L0Entry := []
  roots    : List RootEntry := []
  ctxEpoch : Map Byte := []
  vdevEpoch : Map Byte := []
  dieEpoch : Byte := 0
  retired  : List Retired := []
  scrubPos : Nat := 0
  walkQ    : List Nat := []
  faults   : Map PFault := []
  fillWait : List Nat := []
  dir      : Map DirEntry := []
  slabs    : Map Slab := []
  /-- Released places (byte offset) with the virtual device, CA page and size of the old leaf (R621). -/
  placeWait : List (Nat × Vdix × Nat × Nat) := []
  clock    : Nat := 0
  invs     : List Inv := []
  invWait  : List Inv := []
  invBusy  : Bool := false
  invResult : BitVec 2 := 0
  /-- A write of XLT_CTRL has taken effect since enable last became 1 (R115). -/
  rewritten : Bool := false
  faultQs  : Map FaultQ := []
  /-- Page Request indices of a function whose fault ended before the response (R139). -/
  prgStale : Map (List Nat) := []
  atsInv   : List (FnId × BitVec 5 × List Nat) := []
  /-- Pages that the reclamation of a counter releases once its invalidation completes (R178). -/
  reclaim  : Map Released := []
  deriving DecidableEq, Repr

/-! ## Movement and aggregation (ch. 09, 10) -/

/-- Who owns a descriptor (R322). -/
inductive DescOwner where
  | queue (c : CtxId) (q : QIdx) (seq : Word)
  | ring (r : BitVec 4) (slot : Nat)
  | internal
  deriving DecidableEq, Repr

/-- A side of a descriptor: a DVA of the owner's context, inline bytes, or a PRA (R347). -/
inductive Side where
  | dva (a : DWord)
  | inline (bs : List Byte)
  | pra (cls : Byte) (idx : BitVec 24) (off : Nat) (own : CtxId)
  deriving DecidableEq, Repr

/-- A segment of a descriptor that has been read and not yet been written: its first element, its number of elements,
its bytes and which of them carry poison. -/
structure Seg where
  first  : Nat
  count  : Nat
  bytes  : List Byte
  poison : List Bool
  deriving DecidableEq, Repr

/-- The round to which a CONTRIB sends (R298): its handle, the party's index, the element index of the descriptor's first
element, and whether this HTU is the round's home. -/
structure AggTo where
  handle : Word
  party  : Nat
  first  : Nat
  home   : Bool
  deriving DecidableEq, Repr

/-- A mover descriptor and its progress (R325, R326, R240, R347). An element is a byte where nothing is converted. `pos`
counts the elements whose segment has been written and `rpos` those whose segment has been read; `buf` holds the bytes read
of the next segment (`rdOff` of them), `segs` the segments read; `outb` is the segment being written (`outn` elements),
of which `wrOff` bytes are written. `pool` counts the 64 KiB units lent to the channel. -/
structure Desc where
  id     : Nat
  owner  : DescOwner
  src    : Side
  dst    : Side
  conv   : Option (BitVec 16) := none
  len    : Nat
  paced  : Option (BitVec 6) := none
  bbit   : Bool := false
  status : Option DWord := none
  agg    : Option AggTo := none
  tag    : DWord := 0
  irq    : Bool := false
  fence  : Bool := false
  chan   : Option (Nat × Nat) := none
  placed : Nat := 0
  pos    : Nat := 0
  rpos   : Nat := 0
  reading : Bool := false
  rdOff  : Nat := 0
  buf    : List Byte := []
  bufPoison : List Bool := []
  segs   : List Seg := []
  outn   : Nat := 0
  outb   : List Byte := []
  outPoison : List Bool := []
  outFl  : Nat × Nat × Nat := (0, 0, 0)
  wrOff  : Nat := 0
  writing : Bool := false
  pool   : Nat := 0
  poolWait : Bool := false
  finished : Bool := false
  poisoned : Bool := false
  credit : Nat := 0
  ovf    : Nat := 0
  unf    : Nat := 0
  inv    : Nat := 0
  failed : Byte := 0
  deriving DecidableEq, Repr

/-- A completion record of a ring that is to be written (R349). -/
structure RingRec where
  slot   : Nat
  tag    : DWord
  count  : Nat
  code   : Byte
  poison : Bool
  irq    : Bool
  deriving DecidableEq, Repr

/-- A descriptor ring of a control core (R347 to R350): the values in force, not the registers. -/
structure Ring where
  running : Bool := false
  base    : Nat := 0
  lsize   : Nat := 4
  cqbase  : Nat := 0
  lcq     : Nat := 4
  tail    : Word := 0
  head    : Word := 0
  next    : Word := 0
  prod    : Word := 0
  cons    : Word := 0
  stopped : Bool := false
  inflight : List Nat := []
  finished : List Nat := []
  recWait : List RingRec := []
  deriving DecidableEq, Repr

/-- A stripe accepted and not yet committed (R301): its number, the mover unit whose stripe buffer holds it, its words and
the counts of its clamped and NaN elements. -/
structure Stripe where
  k     : Nat
  unit  : Nat
  words : List DWord
  clamped : Nat
  nans  : Nat
  deriving DecidableEq, Repr

/-- A party of an aggregation round (R295 to R298, R301, R306, R307). -/
structure Party where
  ctx     : CtxId
  pkg     : PkgId
  joined  : Bool := false
  queue   : QIdx := 0
  dropped : Bool := false
  cursor  : Nat := 0
  commits : Nat := 0
  accepted : List Stripe := []
  deriving DecidableEq, Repr

/-- STATE of a round record (R313). -/
inductive RState where
  | opened | closing | released | failed
  deriving DecidableEq, Repr

/-- An open aggregation round (R292 to R316): its descriptor's fields and progress. -/
structure Round where
  ctx     : CtxId
  mode    : Bool
  strict  : Bool
  quorum  : Nat
  deg     : Nat
  scale   : Int
  rfmt    : BitVec 5
  rsub    : Bool
  rrnd    : BitVec 3
  rnanm   : Bool
  n       : Nat
  lstripe : Nat
  tmo     : DWord
  acc     : DWord
  res     : DWord
  recDva  : DWord
  accPages : List (Byte × BitVec 24 × Nat) := []
  recPages : List (Byte × BitVec 24 × Nat) := []
  openAt  : DWord
  key     : BitVec 256
  parties : List Party
  cut     : Bool := false
  /-- The descriptor that stands for the CLOSE which carries the outcome (R314). -/
  closer  : Option Nat := none
  /-- The error code of a failed result write (R312). -/
  outCode : Byte := 0
  releasing : Bool := false
  st      : RState := .opened
  reason  : Nat := 0
  marked  : Nat := 0
  clamped : Nat := 0
  nans    : Nat := 0
  rovf    : Nat := 0
  runf    : Nat := 0
  started : List Nat := []
  deriving DecidableEq, Repr

/-- A round of another home that a queue of this HTU has joined (R297, R303): what the home's answer to JOIN brought. -/
structure Joined where
  handle : Word
  ctx    : CtxId
  queue  : QIdx
  party  : Nat
  mode   : Bool
  p      : Nat
  deg    : Nat
  scale  : Int
  n      : Nat
  lstripe : Nat
  secret : BitVec 256
  cursor : Nat := 0
  dropped : Bool := false
  deriving DecidableEq, Repr

/-- MAP (R322 to R351, R319 to R321). -/
structure MapBlk where
  descs    : List Desc := []
  chanWait : List Nat := []
  chFail   : List (Nat × Nat) := []
  poolLast : Map Nat := []
  credits  : Map Nat := []
  rings    : List Ring := List.replicate 16 ({} : Ring)
  rounds   : Map Round := []
  gens     : Map (BitVec 12) := []
  joined   : List Joined := []
  deriving DecidableEq, Repr

/-! ## Pacer (ch. 11) -/

/-- An item (R359 to R363): queue, bookings per heat (heat number with eighths of a nanosecond, or bytes), due heat (none
where the grid that promised it has ended, R371), whether carried, and the held SIGNAL that ends it once it has issued. -/
structure Item where
  ctx    : CtxId
  queue  : QIdx
  seq    : Word
  a      : Nat
  b      : Nat
  dl     : DWord
  due    : Option Nat
  bookNs : List (Nat × Nat) := []
  bookB  : List (Nat × Nat) := []
  carried : Bool := false
  sig    : Option Nat := none
  deriving DecidableEq, Repr

/-- PCR (R354 to R371). -/
structure Pcr where
  running : Bool := false
  origin  : DWord := 0
  heat    : Nat := 0
  start   : DWord := 0
  len     : Nat := 0
  debt    : Nat := 0
  stretch : Bool := false
  items   : List Item := []
  late    : Word := 0
  refuse  : Word := 0
  deriving DecidableEq, Repr

/-! ## Flash (ch. 12) -/

/-- State of a flash target (R372, R373, FTC_TGT). -/
inductive TgtState where
  | absent | active | incompatible | excess | failed
  deriving DecidableEq, Repr

/-- A target as attached. -/
structure Target where
  info  : TargetInfo
  st    : TgtState
  fails : List DWord := []
  deriving DecidableEq, Repr

/-- Lifecycle of a physical block (R392). -/
inductive BState where
  | good | factoryBad | suspect | grownBad | worn | zone
  deriving DecidableEq, Repr

/-- Work that a block does now. -/
inductive BWork where
  | idle | erasing | programming
  deriving DecidableEq, Repr

/-- A physical block: place, state, erase count, SUSPECT entries, next page, units written (unit per page), reads since
erase, programming time, erase pending, current work and whether it is suspended, remembered ladder offset, and whether
its valid units are being moved out. -/
structure Block where
  chan    : Nat
  tgt     : Nat
  lun     : Nat
  st      : BState := .good
  erases  : Nat := 0
  suspects : Nat := 0
  pages   : List (Option Nat) := []
  reads   : Nat := 0
  progAt  : DWord := 0
  dirty   : Bool := false
  work    : BWork := .idle
  susp    : Bool := false
  suspAt  : DWord := 0
  offset  : Option Nat := none
  moving  : Bool := false
  deriving DecidableEq, Repr

/-- A logical unit of the map (R382): its location (block, page), or LOST; its metadata (R377) and plaintext. -/
structure Unit where
  loc   : Option (Nat × Nat)
  lost  : Bool := false
  owner : CtxId
  gen   : Word
  lp    : Bool
  wseq  : Nat
  stripe : Nat
  data  : List Byte
  deriving DecidableEq, Repr

/-- A logical range (R379): first unit, units, virtual device, leaves that name it. -/
structure Range where
  units : Nat
  vdix  : Vdix
  count : Nat
  deriving DecidableEq, Repr

/-- What a page's writes are for: an eviction's or a demotion's pending-fault entry, the entry of a sweep, or the
relocation of a unit from a block and page (R127, R78, R537, R385). -/
inductive WriteFor where
  | page (e : Nat)
  | sweep (e : Nat)
  | move (block page : Nat)
  deriving DecidableEq, Repr

/-- A flash program in progress or waiting for a place (R383, R384): its unit's number and its block and page. -/
structure Program where
  id    : Nat
  unit  : Nat
  at_   : Option (Nat × Nat) := none
  val   : Unit
  why   : WriteFor
  deriving DecidableEq, Repr

/-- A lap slot of the boot zone (R398): SEQ and the laps, each `base` plus the entry of its context or link. -/
structure LapSlot where
  seq  : Nat
  base : Word
  ctx  : Map Word
  link : Map Word
  deriving DecidableEq, Repr

/-- The boot zone (R396 to R400): what survives a power loss. A record is kept once; which copies hold it validly is the
pair of Bools of its field. -/
structure BootZone where
  lapA     : Option LapSlot := none
  lapB     : Option LapSlot := none
  commits  : List (Bool × Nat) := []
  sweeps   : List (CtxId × Word × Word × Bool × Nat) := []
  settings : List (Nat × Settings) := []
  imageA   : Option Image := none
  imageB   : Option Image := none
  selSeq   : Nat := 0
  selB     : Bool := false
  spills   : List (Nat × List (BitVec 512)) := []
  spillSeq : Nat := 0
  erases   : Map Nat := []
  badBlocks : Map BState := []
  copy0    : Bool := true
  copy1    : Bool := true
  deriving DecidableEq, Repr

/-- FTC. -/
structure Ftc where
  mounted  : Bool := false
  targets  : Map Target := []
  chrate   : Map (BitVec 3) := []
  blocks   : Map Block := []
  units    : Map Unit := []
  ranges   : Map Range := []
  segs     : List Nat := []
  segReads : List Nat := []
  programs : List Program := []
  erasing  : Bool := false
  wrstop   : Bool := false
  stripe   : Nat := 0
  stripeFill : List Nat := []
  wseq     : Nat := 0
  /-- Begin of the patrol pass in progress, and the blocks that it has checked (R391). -/
  patrolAt : DWord := 0
  patrolled : List Nat := []
  lastWrite : DWord := 0
  zqAt     : DWord := 0
  chkAt    : DWord := 0
  lapUpd   : Option LapSlot := none
  lapStepUpd : Bool := false
  zone     : BootZone := {}
  cntRetry : Word := 0
  cntRebuild : Word := 0
  cntLost  : Word := 0
  deriving DecidableEq, Repr

/-! ## Host ports (ch. 13) -/

/-- A host function (R403, R410): the configuration the spec gives an effect, its MSI-X table, pending vectors, and the
per-function records of FLC and LKT. -/
structure Fn where
  present : Bool := false
  ready   : Bool := false
  bme     : Bool := false
  mse     : Bool := false
  intDis  : Bool := false
  intSt   : Bool := false
  mps     : BitVec 3 := 0
  ro      : Bool := true
  ido     : Bool := false
  ats     : Bool := false
  pri     : Bool := false
  pasid   : Bool := false
  priStopped : Bool := true
  priFail : Bool := false
  priAlloc : Nat := 0
  msixEn  : Bool := false
  fmask   : Bool := false
  vectors : Map (DWord × Word × Bool) := []
  pba     : List Nat := []
  d3hot   : Bool := false
  pmeEn   : Bool := false
  pmeSt   : Bool := false
  pmeAt   : DWord := 0
  vfEnable : Bool := false
  vfMse   : Bool := false
  numVfs  : Nat := 0
  recValid : Bool := false
  recCount : Nat := 0
  recData : BitVec 512 := 0
  lktValid : Bool := false
  lktCode : BitVec 3 := 0
  lktLk   : BitVec 12 := 0
  deriving DecidableEq, Repr

/-- A record, index write or message that a frozen link holds (R424 step 4), and what a link sends. -/
inductive HostMsg where
  | data (addr : DWord) (bytes : List Byte) (ro ido ep : Bool)
  | record (f : FnId) (c : Option CtxId) (q : Option QIdx) (addr : DWord) (bytes : List Byte)
  | index (f : FnId) (addr : DWord) (v : Word)
  | msix (f : FnId) (vec : Nat)
  | atsInvDone (f : FnId) (itag : BitVec 5)
  | req (f : FnId) (id : Nat)
  deriving DecidableEq, Repr

/-- State of a host link (HPX_LSTAT). -/
inductive LState where
  | down | training | l0 | l0p | l1 | l2
  deriving DecidableEq, Repr

/-- A host link (R402, R428). -/
structure Link where
  st     : LState := .down
  width  : BitVec 5 := 0
  dlup   : Bool := false
  cxl    : Bool := false
  frozen : Bool := false
  drain  : Bool := false
  cause  : Byte := 0xFF
  hold   : List HostMsg := []
  /-- Requests and messages held in D3hot or while HPX is disabled (R419, R428), in order. -/
  dheld  : List HostMsg := []
  raised : Word := 0
  seen   : Word := 0
  inta   : Bool := false
  wake   : Bool := false
  pmeL0  : List FnId := []
  aspm   : Bool := false
  l0pEn  : Bool := false
  perst  : Bool := true
  /-- Lanes that the link trained to; `width` is the current number (R422). -/
  full   : BitVec 5 := 0
  /-- The freeze ends by itself at the next DL_Active with drain 0 (R427). -/
  selfEnd : Bool := false
  deriving DecidableEq, Repr

/-- HPX. -/
structure Hpx where
  links  : List Link := List.replicate 8 ({} : Link)
  fns    : Map Fn := []
  openB  : BitVec 4 := 0
  cxlB   : BitVec 4 := 0xF
  bifB   : BitVec 4 := 0
  deriving DecidableEq, Repr

/-! ## Coherence ring (ch. 14) -/

/-- What a host asks of a line: a CXL.mem request with the state it leaves the host in (R449), or an H2D snoop (R445). -/
inductive HostOp where
  | read (st : Moesi)
  | write
  | inv
  | snoop
  deriving DecidableEq, Repr

/-- A coherent request in a home's tracker, in its retry list or with a credit (R438, R440, R441): active when its snoop is
out; the agents that the snoop has still to reach and those whose answers are on their way; the port whose host has still
to answer a back-invalidate snoop; whether it waits for a filter entry, or for the host. -/
structure Track where
  home    : Nat
  line    : Nat
  agent   : Nat
  req     : CohReq
  op      : Option HostOp := none
  tag     : CtxId := 0
  active  : Bool := false
  pending : List Nat := []
  answered : List Nat := []
  supplied : Option (List Byte) := none
  bisnp   : Option Nat := none
  room    : Bool := false
  hostWait : Bool := false
  data    : List Byte := []
  poison  : Bool := false
  reserved : Bool := false
  deriving DecidableEq, Repr

/-- A line held by a control core's agent (R433), and whether its hold time runs (R442). -/
structure CLine where
  agent : Nat
  line  : Nat
  st    : Moesi
  data  : List Byte
  hold  : Bool := false
  deriving DecidableEq, Repr

/-- A line of an HCA's cache (R445). -/
structure HLine where
  port : Nat
  line : Nat
  st   : Moesi
  data : List Byte
  poison : Bool := false
  deriving DecidableEq, Repr

/-- A snoop-filter entry (R450): newest grant first. -/
structure SfEntry where
  port : Nat
  line : Nat
  st   : Moesi
  deriving DecidableEq, Repr

/-- A CXL.mem window (R448): the context, DVA and size in force and the held 4 KiB pages, as SMS addresses. -/
structure MemWin where
  valid : Bool := false
  ctx   : CtxId := 0
  dva   : DWord := 0
  units : Nat := 0
  pages : List Nat := []
  deriving DecidableEq, Repr

/-- CRG. -/
structure Crg where
  tracks : List Track := []
  retry  : List Track := []
  credits : List Track := []
  lines  : List CLine := []
  hca    : List HLine := []
  filter : List SfEntry := []
  wins   : Map MemWin := []
  cntRetry : Word := 0
  cntBisnp : Word := 0
  deriving DecidableEq, Repr

/-! ## Fabric and binding (ch. 15) -/

/-- State of an optical link (OFP_PORT_STAT). -/
inductive OState where
  | down | training | attesting | up | degraded | ethUp
  deriving DecidableEq, Repr

/-- An optical link: state, working wavelengths, key epoch of each direction (R530, R534). -/
structure OLinkSt where
  st    : OState := .down
  lanes : BitVec 4 := 0
  txLap : Word := 0
  rxLap : Word := 0
  frames : Nat := 0
  oldKey : Bool := false
  oldKeyAt : DWord := 0
  keyUpdates : Nat := 0
  /-- End of the pause that a PFC frame asked for (R469). -/
  pauseTill : DWord := 0
  /-- A key exchange of the link that waits for the entropy source, and a KEY_UPDATE that does (R526, R530). -/
  keyWait : Bool := false
  updWait : Bool := false
  deriving DecidableEq, Repr

/-- A packet of a flow that has no report or response yet (R465, R468): its SEQ, the request it serves (0 for a
FLOWRESET), first transmission, resends, and whether a RETRY has come for it. -/
structure Unacked where
  seq  : Word
  req  : Nat
  sent : DWord
  resends : Nat := 0
  retried : Bool := false
  deriving DecidableEq, Repr

/-- A flow that this HTU sends (R462): toward a package; SEQ of the next packet; refused until FLOWRESET_ACK. -/
structure TxFlow where
  key  : FlowKey
  next : Word := 0
  unacked : List Unacked := []
  link : Option OLink := none
  resetting : Bool := false
  paused : Bool := false
  deriving DecidableEq, Repr

/-- A flow that this HTU receives (R462, R463, R466). -/
structure RxFlow where
  key  : FlowKey
  next : Word := 0
  refusing : Bool := false
  retried : Option Word := none
  idleAt : DWord := 0
  deriving DecidableEq, Repr

/-- A RoCE connection (R470): generation, link, retries of the request in progress, DCQCN rate reductions. -/
structure Conn where
  gen  : Byte := 0
  link : OLink := 0
  tries : Nat := 0
  cuts : Nat := 0
  deriving DecidableEq, Repr

/-- OFP and the package's time. -/
structure Ofp where
  links  : Map OLinkSt := []
  tx     : List TxFlow := []
  rx     : List RxFlow := []
  rxWait : List (FlowKey × Word) := []
  routes : Map (List OLink × BitVec 3) := []
  conns  : Map Conn := []
  pkg    : Option PkgId := none
  offset : BitVec 16 := 0xFFFF
  gm     : Bool := false
  unsync : Bool := false
  holdover : Bool := false
  holdAt : DWord := 0
  locked : Bool := false
  everLocked : Bool := false
  cntRetx : Word := 0
  cntNorpt : Word := 0
  deriving DecidableEq, Repr

/-- A page being moved (R482): the stage-2 leaf it started from, the new home, failures, and the bytes that the stream
to another package has carried. Step 1: the copy runs; 2: RELAY is written and INV.S2PAGE runs; 3: it has completed. -/
structure PageMove where
  vdix : Vdix
  ca   : Nat
  leaf : PTE
  cls  : Byte
  idx  : BitVec 24
  off  : Nat
  step : Nat := 1
  fails : Nat := 0
  sent : List Byte := []
  deriving DecidableEq, Repr

/-- A compute tile being drained (R491). -/
structure Drain where
  die  : BitVec 3
  tile : BitVec 5
  vdix : Vdix
  at_  : DWord
  ended : Bool := false
  fenced : Bool := false
  deriving DecidableEq, Repr

/-- BND. -/
structure Bnd where
  vdevs  : Map VDev := []
  moves  : List PageMove := []
  drains : List Drain := []
  cntMove : Word := 0
  /-- BIND and REMOVE commands that wait while BND is disabled. -/
  bindWait : List Grant := []
  removeWait : List (Word × Grant) := []
  deriving DecidableEq, Repr

/-! ## Control cores, interrupts and locks (ch. 16) -/

/-- A coprocessor operation with a side effect that waits in the starting block (R500). -/
inductive CpOp where
  | locktry (k : Nat)
  | lockacq (k : Nat) (limit : Option DWord)
  | lockrel (k : Nat)
  | eoi (src : Nat)
  | tpr (v : Nat)
  | maskwin (thr dur : Nat)
  | ipi (mask : BitVec 16)
  deriving DecidableEq, Repr

/-- A control core as ICU, LKT and the coprocessor port see it. `result` is the port's last result. -/
structure Core where
  tpr    : Nat := 256
  mth    : Nat := 256
  winEnd : DWord := 0
  winOpen : Bool := false
  active : List Nat := []
  offer  : Option Nat := none
  offerAt : DWord := 0
  withdrawing : Bool := false
  fs     : Word := 0
  block  : List CpOp := []
  result : DWord := 0
  held   : Bool := false
  deriving DecidableEq, Repr

/-- ICU (R504 to R511, R519). Sources are numbers 0 to 1,023; a level cause is held as long as it is present. -/
structure Icu where
  cores   : List Core := List.replicate 16 ({} : Core)
  pend    : List Nat := []
  causes  : List Nat := []
  last    : Map Nat := []
  /-- Since when an enabled pending source has had no eligible core, and whether that is recorded (R511). -/
  noTarget : Map (DWord × Bool) := []
  deriving DecidableEq, Repr

/-- Owner of a lock (R513). -/
inductive LockOwner where
  | queue (c : CtxId) (q : QIdx) (init : BitVec 16)
  | core (n : CoreId)
  | pf (f : FnId)
  deriving DecidableEq, Repr

/-- A lock (R512); a FREE lock has no entry in the map. -/
inductive LockSt where
  | held (o : LockOwner)
  | abandoned
  deriving DecidableEq, Repr

/-- A waiting acquire (R515). -/
structure LkWaiter where
  lk    : Nat
  who   : LockOwner
  limit : Option DWord
  deriving DecidableEq, Repr

/-- LKT. -/
structure Lkt where
  locks   : Map LockSt := []
  waiters : List LkWaiter := []
  /-- Queues of a reset thread whose locks become ABANDONED once their writes have ended (R516, R586). -/
  dropWait : List (CtxId × QIdx) := []
  abandoned : Word := 0
  coreRes : Map (BitVec 3 × BitVec 12) := []
  deriving DecidableEq, Repr

/-! ## Security and management (ch. 17) -/

/-- A sweep in progress (R535 to R538). -/
structure Sweep where
  ctx   : CtxId
  old   : Word
  new   : Word
  pass  : Bool := false
  bytes : Nat := 0
  upTo  : Nat := 0
  deriving DecidableEq, Repr

/-- A sweep register of an HBM channel (R536): owner, leaf place, page, cursor in lines. -/
structure SweepReg where
  ctx    : CtxId
  vdix   : Vdix
  ca     : Nat
  key    : Nat
  page   : Nat
  lsize  : Nat
  cursor : Nat := 0
  finished : Bool := false
  deriving DecidableEq, Repr

/-- SEC. -/
structure Sec where
  ready    : Bool := false
  /-- The lap step of this mount has been made (R533). -/
  stepped  : Bool := false
  fuses    : Bool := true
  entropy  : Bool := true
  anchors  : Map (BitVec 64) := []
  claimFails : Nat := 0
  lockout  : Option DWord := none
  minSvn   : Nat := 0
  /-- The laps in force: an ID's or link's lap is `lapBase` plus its entry. -/
  lapBase  : Word := 0
  laps     : Map Word := []
  linkLaps : Map Word := []
  lapQ     : List (Bool × Nat) := []
  lapBusy  : Option (Bool × Nat × Word) := none
  sweep    : Option Sweep := none
  sweepQ   : List CtxId := []
  regs     : Map SweepReg := []
  scrub    : List Scrub := []
  badPages : List (Nat × Nat) := []
  gens     : Map Word := []
  /-- TLS handshakes and SPDM key exchanges that wait for the entropy source (R526): port and certificate, requester and
  request. -/
  hands    : List (Nat × Option (BitVec 64)) := []
  keyx     : List (Who × Byte) := []
  deriving DecidableEq, Repr

/-- What a session of the management network may do (R547, R548): every function, status and logs, or CLAIM. -/
inductive Right where
  | operator | monitor | claim
  deriving DecidableEq, Repr

/-- A session: its port, its number there, its right, and the anchor to which its client's certificate chains. -/
structure Session where
  port  : Nat
  num   : Nat
  right : Right
  anchor : BitVec 64
  deriving DecidableEq, Repr

/-- MGT: the links of MP0 and MP1, and the sessions. -/
structure Mgt where
  up       : List Bool := [false, false]
  sessions : List Session := []
  deriving DecidableEq, Repr

/-! ## Faults, reset, registers, test port (ch. 18 to 20) -/

/-- A fault record (R563) as FLC holds it. -/
structure FRec where
  time  : DWord := 0
  f     : FaultIn
  seq   : Word := 0
  cls   : BitVec 2 := 0
  level : BitVec 3 := 0
  esc   : Bool := false
  rep   : BitVec 16 := 0
  deriving DecidableEq, Repr

/-- FLC. `srcCfg` holds class and level of sources that differ from their default; `unclr` the uncleared faults
(source, class, ESC). -/
structure Flc where
  capture : Map FRec := []
  rot     : Nat := 0
  counts  : Map Word := []
  srcCfg  : Map (BitVec 2 × BitVec 3) := []
  unclr   : List (Nat × BitVec 2 × Bool) := []
  log     : Map (BitVec 512) := []
  prod    : Word := 0
  cons    : Word := 0
  spill   : Word := 0
  spillStop : Bool := false
  drop    : Word := 0
  seq     : Word := 0
  lastgasp : Bool := false
  lg      : List (BitVec 512) := []
  lgLost  : Word := 0
  regions : List Nat := []
  blocks  : List Nat := []
  active  : List Nat := []
  primary : Bool := false
  arm     : Bool := false
  /-- Heartbeats are monitored: from the write of arm on, and after RECOVER from the first heartbeats (R577, R580). -/
  monitor : Bool := false
  beat0   : Option DWord := none
  beat15  : Option DWord := none
  fallback : Bool := false
  standbyLost : Bool := false
  dieReset : Option Nat := none
  /-- Faults whose reaction of level 2 or more the current command has still to perform, with the level (R557);
  empty between commands. The model's own. -/
  todo    : List (FaultIn × Nat) := []
  deriving DecidableEq, Repr

/-- RPC, reset pins and bring-up. `step` is the last bring-up step of R597 that ended. -/
structure Rpc where
  cause    : Word := 0x00700000
  causeTime : DWord := 0
  inReset  : Bool := false
  rstPin   : Bool := true
  wrstPin  : Bool := true
  domains  : List Nat := []
  islands  : List Nat := [95]
  /-- Islands whose PLL did not lock at bring-up (R593). -/
  pllBad   : List Nat := []
  released : DWord := 0
  bootRun  : Bool := true
  attempts : Nat := 0
  done     : Bool := false
  quar     : Bool := false
  wdogEn   : Bool := false
  kickAt   : DWord := 0
  bootSt   : BitVec 3 := 0
  bootB    : Bool := false
  fallbackImg : Bool := false
  smsInit  : Bool := false
  tstInit  : Bool := false
  running  : Option Image := none
  settings : Option Settings := none
  deriving DecidableEq, Repr

/-- A state of the test access port's controller (IEEE 1149.1; R618). -/
inductive TapSt where
  | reset | idle | selDr | capDr | shDr | ex1Dr | pauDr | ex2Dr | updDr
  | selIr | capIr | shIr | ex1Ir | pauIr | ex2Ir | updIr
  deriving DecidableEq, Repr

/-- Instructions of the test access port (R618). -/
inductive TapInstr where
  | bypass | idcode | sample | extest
  deriving DecidableEq, Repr

/-- The test access port. -/
structure Tap where
  st    : TapSt := .reset
  instr : TapInstr := .idcode
  ir    : List Bool := []
  dr    : List Bool := []
  tdo   : Bool := false
  boundary : List Bool := []
  deriving DecidableEq, Repr

/-- Metadata of an SMS line (R31, R521). -/
structure LineMeta where
  tag    : CtxId := 0
  owned  : Bool := false
  poison : Bool := false
  deriving DecidableEq, Repr

/-- SMS: bytes and line metadata (an unlisted line is unowned and not poisoned), counters; HBM and tile memory as far
as writes have defined them: the byte and the key (owner, GEN, lap) it was written under (R38, R65). -/
structure Mem where
  bytes  : Memory := []
  lines  : Map LineMeta := []
  ce     : Word := 0
  ue     : Word := 0
  passes : Word := 0
  hbm    : Map (Byte × CtxId × Word × Word) := []
  tile   : Map Byte := []
  deriving DecidableEq, Repr

/-- A die-to-die module (DDL_MOD_STAT). -/
structure Module where
  st   : BitVec 3 := 0
  die  : BitVec 3 := 0
  retrain : Byte := 0
  waitOver : Bool := false
  /-- It has trained once since the die reset. -/
  trained : Bool := false
  deriving DecidableEq, Repr

/-- DDL. -/
structure Ddl where
  mods  : List Module := List.replicate 24 ({} : Module)
  hbm   : Map (BitVec 7) := []
  hbmDie : Map (BitVec 3) := []
  tiles : Map (BitVec 6 × BitVec 20) := []
  corr  : Word := 0
  ue    : Word := 0
  /-- When the islands of the groups were powered, from which linkwait runs (R40). -/
  trainAt : DWord := 0
  deriving DecidableEq, Repr

/-- What leaves the HTU at its boundary: messages and error responses, newest first in `State.out`. The model's own
field (notes/assumptions/6): the spec's boundary, not a register. -/
inductive Out where
  | host (l : Nat) (m : HostMsg)
  | hostRead (l : Nat) (id : Nat) (ro ido : Bool)
  | atsReq (f : FnId) (pasid : BitVec 20) (page : Nat) (id : Nat)
  | pageReq (f : FnId) (pasid : BitVec 20) (page : Nat) (idx : BitVec 9) (w : Bool)
  | drs (l : Nat)
  | frs (f : FnId)
  | inta (l : Nat) (assert : Bool)
  | pmPme (f : FnId)
  | pmeToAck (l : Nat)
  | err (l : Nat) (fatal : BitVec 2)
  | unsupported (f : FnId)
  | cplAbort (f : FnId)
  | hostReply (f : FnId) (v : DWord)
  | widthReq (l : Nat) (w : BitVec 5)
  | l1Req (l : Nat)
  | ceResp (die : BitVec 3) (data : List Byte) (poison : Bool)
  | ceError (die : BitVec 3) (code : Byte)
  | drain (die : BitVec 3) (tile : BitVec 5)
  | endCmds (die : BitVec 3) (tile : BitVec 5)
  | leaseOverdue (svdid : Word)
  | fenceDone (svdid : Word)
  | reissue (c : CtxId) (e : BitVec 16) (die : BitVec 3) (tile : BitVec 5)
  | relay (typ : Byte) (k : FlowKey) (dst : PkgId) (seq : Word) (info : DWord) (data : List Byte) (poison : Bool)
  | control (l : Nat) (lap : Word)
  | keyUpdate (l : Nat)
  | roce (slot : Nat) (req : Nat)
  | roceNak (l : Nat)
  | mgt (cmd : Nat) (status : Nat)
  | mgtRefuse (reason : Nat)
  | coreErr (n : CoreId)
  | vector (n : CoreId) (src prio : Nat)
  | coreVal (who : Who) (v : Word)
  | bisnp (p : Nat) (line : Nat) (req : CohReq)
  | cxlMem (p : Nat) (data : List Byte) (poison : Bool)
  | cxlReq (p : Nat) (line : Nat) (req : CohReq)
  | cxlResp (p : Nat) (line : Nat) (st : Moesi) (data : Option (List Byte))
  | spdm (via : Who) (msg : Byte) (ok : Bool)
  | frame (l : Nat) (bytes : List Byte)
  | extWrite (cls : Byte) (idx : BitVec 24) (addr : DWord) (bytes : List Byte)
  deriving DecidableEq, Repr

/-- The state of one HTU, and its queue of waiting commands (first in, first out). -/
structure State where
  pending : List Instr := []
  now     : DWord := 0
  nextId  : Nat := 1
  free    : Nat := 0
  regs    : Map Word := []
  /-- RW-CE values in force: register values as of the last change of enable from 0 to 1 (R611). -/
  force   : Map Word := []
  /-- Blocks enabled again while their work was still in progress (R611). -/
  ceWait  : List Nat := []
  badPar  : List Nat := []
  shadows : List (Who × Nat × Word) := []
  mem     : Mem := {}
  ddl     : Ddl := {}
  ctxs    : Map Ctx := []
  dqe     : Dqe := {}
  issued  : DWord := 0
  pfaults : Word := 0
  reqs    : List Req := []
  helds   : List Held := []
  xlt     : Xlt := {}
  map     : MapBlk := {}
  pcr     : Pcr := {}
  ftc     : Ftc := {}
  hpx     : Hpx := {}
  crg     : Crg := {}
  ofp     : Ofp := {}
  bnd     : Bnd := {}
  icu     : Icu := {}
  lkt     : Lkt := {}
  sec     : Sec := {}
  mgt     : Mgt := {}
  flc     : Flc := {}
  rpc     : Rpc := {}
  tap     : Tap := {}
  out     : List Out := []
  deriving DecidableEq, Repr

/-- The machine right after a cold reset (R587): steps 1 and 2 of R597 have ended, every block is at its reset values,
every island but I95 is off, and no command waits. Values the spec does not give are in notes/assumptions/8. -/
def State.reset : State := {}

/-- Why the machine stops with a fault. -/
inductive Fault where
  /-- A control-core descriptor ring names a PRA offset outside its class's range (R46): the spec says no such address
  exists and gives the access no effect. Raised by `writeAccept`, `readDataReturn` and `hbmReadResponse`. Safe: the machine stops. -/
  | absentAddress (cls : Byte) (off : Nat)
  deriving DecidableEq, Repr

/-- Why the machine refuses a command. -/
inductive Refusal where
  /-- The command has no meaning in the model yet. Raised only by a refused arm of `exec`. Safe: nothing is claimed. -/
  | notModelled (mnemonic : String)
  deriving DecidableEq, Repr

end Sys2Proof.Machine
end

