-- ==== Sys2Proof/Machine/Regs.lean ====
section
/-! DEFINITION. The register table: every register of BAR0 with its window, offset, instances and fields, as the
register tables of the chapters give them (R4, R5, R603, R610, R615), and reads of stored values. -/

namespace Sys2Proof.Machine

/-- Access codes of a field (R5); `set1` is an RW field of which the table says that writing 1 sets it and writing 0 is
ignored (R606). -/
inductive RAcc where
  | rw | ro | wo | ce | lk | rsv | set1
  deriving DecidableEq, Repr

/-- A field: its bits, its access code and its reset value (R4). -/
structure RField where
  hi : Nat
  lo : Nat
  acc : RAcc
  rst : Nat
  deriving DecidableEq, Repr

/-- A register: block index (R615), offset of its first instance, count and stride of each index, fields. -/
structure RDef where
  blk : Nat
  off : Nat
  dims : List (Nat × Nat)
  fields : List RField
  deriving DecidableEq, Repr

/-- The registers. `blkCtrl` is the BLK_CTRL of every window, indexed by the block (R610). -/
inductive RegName where
  | blkCtrl
  | smsCtrl
  | smsCntCe
  | smsCntUe
  | smsPatrol
  | ddlCtrl
  | ddlCntCorr
  | ddlCntUe
  | ddlModStat
  | ddlHbmCfg
  | ddlTileCfg
  | xltInvAddrLo
  | xltInvAddrHi
  | xltInvLen
  | xltInvCmd
  | xltInvStat
  | xltTierFree
  | xltTierReserve
  | xltTierPinmax
  | xltTierPinned
  | dqeCtrl
  | dqeResStat
  | dqeWaitStat
  | dqeCtlCtx
  | dqeCtlRingLo
  | dqeCtlRingHi
  | dqeRefcntFree
  | seCntIssueLo
  | seCntIssueHi
  | seCntPfault
  | seSlot
  | mapCtrl
  | mapChdis
  | mapChbusy
  | mapChfail
  | mapBufFree
  | mapPaceCfg
  | mapRingBase
  | mapRingCtrl
  | mapRingTail
  | mapRingHead
  | mapRingCqbase
  | mapRingCqctrl
  | mapRingCqprod
  | mapRingCqcons
  | pcrCtrl
  | pcrHeatLen
  | pcrMaprate
  | pcrOt
  | pcrBudSel
  | pcrBudData
  | pcrGridLo
  | pcrGridHi
  | pcrHeatLo
  | pcrHeatHi
  | pcrStat
  | pcrDebt
  | pcrCntLate
  | pcrCntRefuse
  | ftcCtrl
  | ftcStat
  | ftcCapLo
  | ftcCapHi
  | ftcPatrol
  | ftcWear
  | ftcTgt
  | ftcRetryTbl
  | ftcCntRetry
  | ftcCntRebuild
  | ftcCntLost
  | hpxPortCfg
  | hpxWake
  | hpxLstat
  | hpxLpm
  | hpxLrel
  | hpxIntxRaised
  | hpxIntxSeen
  | hpxHeld
  | crgCtrl
  | crgStat
  | crgCntRetry
  | crgCntBisnp
  | crgLcache
  | crgSf
  | crgCcwinBaseLo
  | crgCcwinBaseHi
  | crgCcwinSize
  | crgCcwinCtrl
  | crgMemwinCtrl
  | crgMemwinDvaLo
  | crgMemwinDvaHi
  | crgMemwinSize
  | ofpTimeStat
  | ofpPkg
  | ofpCntRetx
  | ofpCntNorpt
  | ofpPortCfg
  | ofpPortStat
  | bndCtrl
  | bndStat
  | bndCntMove
  | icuCtrl
  | icuSwset
  | icuPend
  | icuActive
  | icuCcCtrl
  | icuCoreStat
  | icuCoreCtrl
  | icuCoreFs
  | icuCoreMask
  | icuSrcCfg
  | lktReq
  | lktResult
  | lktSel
  | lktInfo
  | lktInfoQ
  | lktWaitStat
  | lktCntAbandon
  | secCtrl
  | secStat
  | secSweepDone
  | secScrubPend
  | mgtStat
  | flcCtrl
  | flcStat
  | flcAck
  | flcLogProd
  | flcLogCons
  | flcLogSpill
  | flcLogDrop
  | flcLgCount
  | flcLgLost
  | flcLogResume
  | flcRelease
  | flcRcCtrl
  | flcRcHb0
  | flcRcHb1
  | flcRcStat
  | flcForceTgt
  | flcLogRidx
  | flcFnStat
  | flcFnRec
  | flcUnclr
  | flcLogRec
  | flcSrcCfg
  | flcSrcCnt
  | flcLg
  | glbRstCause
  | glbRstTimeLo
  | glbRstTimeHi
  | rpcRstCmd
  | rpcWdog
  | rpcWdogKick
  | rpcBoot
  | rpcBootStat
  | rpcPdStat
  | rpcIslStat
  | glbId
  | glbSerialLo
  | glbSerialHi
  | glbTimeLo
  | glbTimeHi
  | glbReady
  | glbFrozen
  | glbPinStat
  | glbScratch
  | xltCtrl
  | xltWalkBusy
  | xltWalkQueue
  | xltFltCtrl
  | xltFltPending
  | xltFltFlashq
  | xltFltFlashwait
  | xltTstFree
  | xltTstLowmark
  | xltTstSeqfree
  | seSrndCtrl
  | mapSrndCtrl
  | mapAggCtrl
  | mapAggStat
  deriving DecidableEq, Repr

/-- The table row of a register. -/
def RegName.row : RegName → RDef
  | .blkCtrl => ⟨0, 0x0, [(19, 0x10000)], [⟨31, 3, .rsv, 0x0⟩, ⟨2, 2, .ro, 0x0⟩, ⟨1, 1, .set1, 0x0⟩, ⟨0, 0, .lk, 0x1⟩]⟩
  | .smsCtrl => ⟨5, 0x10, [], [⟨31, 16, .rsv, 0x0⟩, ⟨15, 0, .ce, 0x3E8⟩]⟩
  | .smsCntCe => ⟨5, 0x20, [], [⟨31, 0, .ro, 0x0⟩]⟩
  | .smsCntUe => ⟨5, 0x24, [], [⟨31, 0, .ro, 0x0⟩]⟩
  | .smsPatrol => ⟨5, 0x28, [], [⟨31, 0, .ro, 0x0⟩]⟩
  | .ddlCtrl => ⟨9, 0x10, [], [⟨31, 8, .rsv, 0x0⟩, ⟨7, 0, .ce, 0xA⟩]⟩
  | .ddlCntCorr => ⟨9, 0x20, [], [⟨31, 0, .ro, 0x0⟩]⟩
  | .ddlCntUe => ⟨9, 0x24, [], [⟨31, 0, .ro, 0x0⟩]⟩
  | .ddlModStat => ⟨9, 0x100, [(24, 0x4)], [⟨31, 24, .rsv, 0x0⟩, ⟨23, 21, .ro, 0x0⟩, ⟨20, 16, .rsv, 0x0⟩, ⟨15, 8, .ro, 0x0⟩, ⟨7, 3, .rsv, 0x0⟩, ⟨2, 0, .ro, 0x0⟩]⟩
  | .ddlHbmCfg => ⟨9, 0x200, [(16, 0x4)], [⟨31, 16, .rsv, 0x0⟩, ⟨15, 15, .ro, 0x0⟩, ⟨14, 7, .rsv, 0x0⟩, ⟨6, 0, .ro, 0x0⟩]⟩
  | .ddlTileCfg => ⟨9, 0x280, [(8, 0x4)], [⟨31, 31, .ro, 0x0⟩, ⟨30, 26, .rsv, 0x0⟩, ⟨25, 20, .ro, 0x0⟩, ⟨19, 0, .ro, 0x0⟩]⟩
  | .xltInvAddrLo => ⟨4, 0x100, [], [⟨31, 12, .rw, 0x0⟩, ⟨11, 0, .rsv, 0x0⟩]⟩
  | .xltInvAddrHi => ⟨4, 0x104, [], [⟨31, 25, .rsv, 0x0⟩, ⟨24, 0, .rw, 0x0⟩]⟩
  | .xltInvLen => ⟨4, 0x108, [], [⟨31, 0, .rw, 0x0⟩]⟩
  | .xltInvCmd => ⟨4, 0x10C, [], [⟨31, 31, .wo, 0x0⟩, ⟨30, 20, .rsv, 0x0⟩, ⟨19, 16, .rw, 0x0⟩, ⟨15, 14, .rsv, 0x0⟩, ⟨13, 0, .rw, 0x0⟩]⟩
  | .xltInvStat => ⟨4, 0x110, [], [⟨31, 31, .ro, 0x0⟩, ⟨30, 2, .rsv, 0x0⟩, ⟨1, 0, .ro, 0x0⟩]⟩
  | .xltTierFree => ⟨4, 0x300, [], [⟨31, 12, .rsv, 0x0⟩, ⟨11, 0, .ro, 0xB00⟩]⟩
  | .xltTierReserve => ⟨4, 0x304, [], [⟨31, 12, .rsv, 0x0⟩, ⟨11, 0, .lk, 0x80⟩]⟩
  | .xltTierPinmax => ⟨4, 0x308, [], [⟨31, 12, .rsv, 0x0⟩, ⟨11, 0, .lk, 0x800⟩]⟩
  | .xltTierPinned => ⟨4, 0x30C, [], [⟨31, 12, .rsv, 0x0⟩, ⟨11, 0, .ro, 0x0⟩]⟩
  | .dqeCtrl => ⟨2, 0x10, [], [⟨31, 16, .lk, 0x1E⟩, ⟨15, 8, .lk, 0x14⟩, ⟨7, 0, .rsv, 0x0⟩]⟩
  | .dqeResStat => ⟨2, 0x20, [], [⟨31, 25, .rsv, 0x0⟩, ⟨24, 24, .ro, 0x0⟩, ⟨23, 16, .ro, 0x0⟩, ⟨15, 14, .rsv, 0x0⟩, ⟨13, 8, .ro, 0x0⟩, ⟨7, 7, .rsv, 0x0⟩, ⟨6, 0, .ro, 0x0⟩]⟩
  | .dqeWaitStat => ⟨2, 0x24, [], [⟨31, 28, .rsv, 0x0⟩, ⟨27, 13, .ro, 0x0⟩, ⟨12, 0, .ro, 0x0⟩]⟩
  | .dqeCtlCtx => ⟨2, 0x30, [], [⟨31, 31, .ro, 0x0⟩, ⟨30, 14, .rsv, 0x0⟩, ⟨13, 0, .ro, 0x0⟩]⟩
  | .dqeCtlRingLo => ⟨2, 0x34, [], [⟨31, 12, .ro, 0x0⟩, ⟨11, 0, .rsv, 0x0⟩]⟩
  | .dqeCtlRingHi => ⟨2, 0x38, [], [⟨31, 25, .rsv, 0x0⟩, ⟨24, 0, .ro, 0x0⟩]⟩
  | .dqeRefcntFree => ⟨2, 0x40, [], [⟨31, 21, .rsv, 0x0⟩, ⟨20, 0, .ro, 0x100000⟩]⟩
  | .seCntIssueLo => ⟨3, 0x20, [], [⟨31, 0, .ro, 0x0⟩]⟩
  | .seCntIssueHi => ⟨3, 0x24, [], [⟨31, 0, .ro, 0x0⟩]⟩
  | .seCntPfault => ⟨3, 0x28, [], [⟨31, 0, .ro, 0x0⟩]⟩
  | .seSlot => ⟨3, 0x100, [(64, 0x4)], [⟨31, 17, .rsv, 0x0⟩, ⟨16, 16, .ro, 0x0⟩, ⟨15, 14, .rsv, 0x0⟩, ⟨13, 0, .ro, 0x0⟩]⟩
  | .mapCtrl => ⟨6, 0x10, [], [⟨31, 13, .rsv, 0x0⟩, ⟨12, 8, .ce, 0x10⟩, ⟨7, 4, .rsv, 0x0⟩, ⟨3, 0, .ce, 0x8⟩]⟩
  | .mapChdis => ⟨6, 0x100, [(8, 0x4)], [⟨31, 30, .rw, 0x0⟩, ⟨29, 28, .rsv, 0x0⟩, ⟨27, 0, .rw, 0x0⟩]⟩
  | .mapChbusy => ⟨6, 0x120, [(8, 0x4)], [⟨31, 0, .ro, 0x0⟩]⟩
  | .mapChfail => ⟨6, 0x140, [(8, 0x4)], [⟨31, 0, .ro, 0x0⟩]⟩
  | .mapBufFree => ⟨6, 0x160, [(8, 0x4)], [⟨31, 13, .rsv, 0x0⟩, ⟨12, 0, .ro, 0x1000⟩]⟩
  | .mapPaceCfg => ⟨6, 0x200, [(64, 0x4)], [⟨31, 16, .rsv, 0x0⟩, ⟨15, 12, .rw, 0x6⟩, ⟨11, 0, .ro, 0x0⟩]⟩
  | .mapRingBase => ⟨6, 0x1000, [(16, 0x40)], [⟨31, 29, .rsv, 0x0⟩, ⟨28, 6, .rw, 0x0⟩, ⟨5, 0, .rsv, 0x0⟩]⟩
  | .mapRingCtrl => ⟨6, 0x1004, [(16, 0x40)], [⟨31, 31, .rw, 0x0⟩, ⟨30, 13, .rsv, 0x0⟩, ⟨12, 8, .rw, 0x4⟩, ⟨7, 0, .rsv, 0x0⟩]⟩
  | .mapRingTail => ⟨6, 0x1008, [(16, 0x40)], [⟨31, 0, .rw, 0x0⟩]⟩
  | .mapRingHead => ⟨6, 0x100C, [(16, 0x40)], [⟨31, 0, .ro, 0x0⟩]⟩
  | .mapRingCqbase => ⟨6, 0x1010, [(16, 0x40)], [⟨31, 29, .rsv, 0x0⟩, ⟨28, 4, .rw, 0x0⟩, ⟨3, 0, .rsv, 0x0⟩]⟩
  | .mapRingCqctrl => ⟨6, 0x1014, [(16, 0x40)], [⟨31, 13, .rsv, 0x0⟩, ⟨12, 8, .rw, 0x4⟩, ⟨7, 0, .rsv, 0x0⟩]⟩
  | .mapRingCqprod => ⟨6, 0x1018, [(16, 0x40)], [⟨31, 0, .ro, 0x0⟩]⟩
  | .mapRingCqcons => ⟨6, 0x101C, [(16, 0x40)], [⟨31, 0, .rw, 0x0⟩]⟩
  | .pcrCtrl => ⟨13, 0x10, [], [⟨31, 24, .rsv, 0x0⟩, ⟨23, 16, .ce, 0x40⟩, ⟨15, 12, .rsv, 0x0⟩, ⟨11, 8, .ce, 0x1⟩, ⟨7, 2, .rsv, 0x0⟩, ⟨1, 1, .ce, 0x1⟩, ⟨0, 0, .ce, 0x0⟩]⟩
  | .pcrHeatLen => ⟨13, 0x14, [], [⟨31, 27, .rsv, 0x0⟩, ⟨26, 0, .ce, 0x186A0⟩]⟩
  | .pcrMaprate => ⟨13, 0x18, [], [⟨31, 12, .rsv, 0x0⟩, ⟨11, 0, .ce, 0x190⟩]⟩
  | .pcrOt => ⟨13, 0x20, [], [⟨31, 24, .ce, 0x20⟩, ⟨23, 16, .ce, 0x40⟩, ⟨15, 8, .ce, 0x8⟩, ⟨7, 0, .ce, 0x8⟩]⟩
  | .pcrBudSel => ⟨13, 0x30, [], [⟨31, 14, .rsv, 0x0⟩, ⟨13, 0, .rw, 0x0⟩]⟩
  | .pcrBudData => ⟨13, 0x34, [], [⟨31, 10, .rsv, 0x0⟩, ⟨9, 0, .rw, 0x0⟩]⟩
  | .pcrGridLo => ⟨13, 0x40, [], [⟨31, 0, .ro, 0x0⟩]⟩
  | .pcrGridHi => ⟨13, 0x44, [], [⟨31, 0, .ro, 0x0⟩]⟩
  | .pcrHeatLo => ⟨13, 0x48, [], [⟨31, 0, .ro, 0x0⟩]⟩
  | .pcrHeatHi => ⟨13, 0x4C, [], [⟨31, 0, .ro, 0x0⟩]⟩
  | .pcrStat => ⟨13, 0x50, [], [⟨31, 29, .rsv, 0x0⟩, ⟨28, 16, .ro, 0x0⟩, ⟨15, 7, .rsv, 0x0⟩, ⟨6, 6, .ro, 0x0⟩, ⟨5, 0, .ro, 0x0⟩]⟩
  | .pcrDebt => ⟨13, 0x54, [], [⟨31, 0, .ro, 0x0⟩]⟩
  | .pcrCntLate => ⟨13, 0x58, [], [⟨31, 0, .ro, 0x0⟩]⟩
  | .pcrCntRefuse => ⟨13, 0x5C, [], [⟨31, 0, .ro, 0x0⟩]⟩
  | .ftcCtrl => ⟨7, 0x10, [], [⟨31, 24, .rsv, 0x0⟩, ⟨23, 16, .ce, 0x8⟩, ⟨15, 12, .rsv, 0x0⟩, ⟨11, 8, .ce, 0x2⟩, ⟨7, 3, .rsv, 0x0⟩, ⟨2, 0, .ce, 0x1⟩]⟩
  | .ftcStat => ⟨7, 0x20, [], [⟨31, 31, .ro, 0x0⟩, ⟨30, 30, .ro, 0x0⟩, ⟨29, 29, .ro, 0x0⟩, ⟨28, 28, .ro, 0x0⟩, ⟨27, 22, .rsv, 0x0⟩, ⟨21, 16, .ro, 0x0⟩, ⟨15, 8, .rsv, 0x0⟩, ⟨7, 0, .ro, 0x0⟩]⟩
  | .ftcCapLo => ⟨7, 0x30, [], [⟨31, 0, .ro, 0x0⟩]⟩
  | .ftcCapHi => ⟨7, 0x34, [], [⟨31, 2, .rsv, 0x0⟩, ⟨1, 0, .ro, 0x0⟩]⟩
  | .ftcPatrol => ⟨7, 0x40, [], [⟨31, 24, .lk, 0x1E⟩, ⟨23, 16, .lk, 0x18⟩, ⟨15, 8, .lk, 0x64⟩, ⟨7, 3, .rsv, 0x0⟩, ⟨2, 0, .lk, 0x2⟩]⟩
  | .ftcWear => ⟨7, 0x44, [], [⟨31, 16, .rsv, 0x0⟩, ⟨15, 0, .lk, 0xC8⟩]⟩
  | .ftcTgt => ⟨7, 0x100, [(32, 0x4)], [⟨31, 27, .rsv, 0x0⟩, ⟨26, 24, .ro, 0x0⟩, ⟨23, 0, .ro, 0x0⟩]⟩
  | .ftcRetryTbl => ⟨7, 0x400, [(256, 0x4)], [⟨31, 0, .ce, 0x0⟩]⟩
  | .ftcCntRetry => ⟨7, 0x200, [], [⟨31, 0, .ro, 0x0⟩]⟩
  | .ftcCntRebuild => ⟨7, 0x204, [], [⟨31, 0, .ro, 0x0⟩]⟩
  | .ftcCntLost => ⟨7, 0x208, [], [⟨31, 0, .ro, 0x0⟩]⟩
  | .hpxPortCfg => ⟨1, 0x10, [], [⟨31, 20, .rsv, 0x0⟩, ⟨19, 16, .set1, 0x0⟩, ⟨15, 12, .rsv, 0x0⟩, ⟨11, 8, .rw, 0xF⟩, ⟨7, 4, .rsv, 0x0⟩, ⟨3, 0, .rw, 0x0⟩]⟩
  | .hpxWake => ⟨1, 0x20, [], [⟨31, 8, .rsv, 0x0⟩, ⟨7, 0, .ro, 0x0⟩]⟩
  | .hpxLstat => ⟨1, 0x100, [(8, 0x20)], [⟨31, 24, .rsv, 0x0⟩, ⟨23, 16, .ro, 0xFF⟩, ⟨15, 15, .ro, 0x0⟩, ⟨14, 14, .ro, 0x0⟩, ⟨13, 13, .ro, 0x0⟩, ⟨12, 12, .ro, 0x0⟩, ⟨11, 8, .ro, 0x0⟩, ⟨7, 3, .ro, 0x0⟩, ⟨2, 0, .ro, 0x0⟩]⟩
  | .hpxLpm => ⟨1, 0x104, [(8, 0x20)], [⟨31, 16, .rsv, 0x0⟩, ⟨15, 8, .rw, 0x20⟩, ⟨7, 2, .rsv, 0x0⟩, ⟨1, 0, .rw, 0x1⟩]⟩
  | .hpxLrel => ⟨1, 0x108, [(8, 0x20)], [⟨31, 1, .rsv, 0x0⟩, ⟨0, 0, .wo, 0x0⟩]⟩
  | .hpxIntxRaised => ⟨1, 0x10C, [(8, 0x20)], [⟨31, 0, .ro, 0x0⟩]⟩
  | .hpxIntxSeen => ⟨1, 0x110, [(8, 0x20)], [⟨31, 0, .rw, 0x0⟩]⟩
  | .hpxHeld => ⟨1, 0x114, [(8, 0x20)], [⟨31, 9, .rsv, 0x0⟩, ⟨8, 0, .ro, 0x0⟩]⟩
  | .crgCtrl => ⟨10, 0x10, [], [⟨31, 8, .rsv, 0x0⟩, ⟨7, 0, .ce, 0x20⟩]⟩
  | .crgStat => ⟨10, 0x20, [], [⟨31, 26, .rsv, 0x0⟩, ⟨25, 16, .ro, 0x0⟩, ⟨15, 12, .rsv, 0x0⟩, ⟨11, 0, .ro, 0x0⟩]⟩
  | .crgCntRetry => ⟨10, 0x30, [], [⟨31, 0, .ro, 0x0⟩]⟩
  | .crgCntBisnp => ⟨10, 0x34, [], [⟨31, 0, .ro, 0x0⟩]⟩
  | .crgLcache => ⟨10, 0x40, [(4, 0x4)], [⟨31, 17, .rsv, 0x0⟩, ⟨16, 0, .ro, 0x0⟩]⟩
  | .crgSf => ⟨10, 0x50, [(4, 0x4)], [⟨31, 19, .rsv, 0x0⟩, ⟨18, 0, .ro, 0x0⟩]⟩
  | .crgCcwinBaseLo => ⟨10, 0x100, [(4, 0x100), (16, 0x10)], [⟨31, 21, .ce, 0x0⟩, ⟨20, 0, .rsv, 0x0⟩]⟩
  | .crgCcwinBaseHi => ⟨10, 0x104, [(4, 0x100), (16, 0x10)], [⟨31, 16, .rsv, 0x0⟩, ⟨15, 0, .ce, 0x0⟩]⟩
  | .crgCcwinSize => ⟨10, 0x108, [(4, 0x100), (16, 0x10)], [⟨31, 27, .rsv, 0x0⟩, ⟨26, 0, .ce, 0x0⟩]⟩
  | .crgCcwinCtrl => ⟨10, 0x10C, [(4, 0x100), (16, 0x10)], [⟨31, 1, .rsv, 0x0⟩, ⟨0, 0, .ce, 0x0⟩]⟩
  | .crgMemwinCtrl => ⟨10, 0x800, [(4, 0x40), (2, 0x10)], [⟨31, 31, .rw, 0x0⟩, ⟨30, 14, .rsv, 0x0⟩, ⟨13, 0, .rw, 0x0⟩]⟩
  | .crgMemwinDvaLo => ⟨10, 0x804, [(4, 0x40), (2, 0x10)], [⟨31, 21, .rw, 0x0⟩, ⟨20, 0, .rsv, 0x0⟩]⟩
  | .crgMemwinDvaHi => ⟨10, 0x808, [(4, 0x40), (2, 0x10)], [⟨31, 25, .rsv, 0x0⟩, ⟨24, 0, .rw, 0x0⟩]⟩
  | .crgMemwinSize => ⟨10, 0x80C, [(4, 0x40), (2, 0x10)], [⟨31, 12, .rsv, 0x0⟩, ⟨11, 0, .rw, 0x0⟩]⟩
  | .ofpTimeStat => ⟨8, 0x20, [], [⟨31, 16, .ro, 0xFFFF⟩, ⟨15, 4, .rsv, 0x0⟩, ⟨3, 3, .ro, 0x0⟩, ⟨2, 2, .ro, 0x0⟩, ⟨1, 1, .ro, 0x0⟩, ⟨0, 0, .ro, 0x0⟩]⟩
  | .ofpPkg => ⟨8, 0x24, [], [⟨31, 17, .rsv, 0x0⟩, ⟨16, 16, .ro, 0x0⟩, ⟨15, 0, .ro, 0x0⟩]⟩
  | .ofpCntRetx => ⟨8, 0x30, [], [⟨31, 0, .ro, 0x0⟩]⟩
  | .ofpCntNorpt => ⟨8, 0x34, [], [⟨31, 0, .ro, 0x0⟩]⟩
  | .ofpPortCfg => ⟨8, 0x100, [(16, 0x10)], [⟨31, 4, .rsv, 0x0⟩, ⟨3, 2, .rw, 0x0⟩, ⟨1, 0, .rw, 0x1⟩]⟩
  | .ofpPortStat => ⟨8, 0x104, [(16, 0x10)], [⟨31, 28, .rsv, 0x0⟩, ⟨27, 24, .ro, 0x0⟩, ⟨23, 16, .rsv, 0x0⟩, ⟨15, 0, .ro, 0x0⟩]⟩
  | .bndCtrl => ⟨14, 0x10, [], [⟨31, 24, .lk, 0x32⟩, ⟨23, 16, .lk, 0xA⟩, ⟨15, 0, .lk, 0xA⟩]⟩
  | .bndStat => ⟨14, 0x20, [], [⟨31, 26, .rsv, 0x0⟩, ⟨25, 16, .ro, 0x0⟩, ⟨15, 9, .rsv, 0x0⟩, ⟨8, 0, .ro, 0x0⟩]⟩
  | .bndCntMove => ⟨14, 0x30, [], [⟨31, 0, .ro, 0x0⟩]⟩
  | .icuCtrl => ⟨11, 0x10, [], [⟨31, 16, .rsv, 0x0⟩, ⟨15, 0, .ce, 0x7D0⟩]⟩
  | .icuSwset => ⟨11, 0x20, [], [⟨31, 10, .rsv, 0x0⟩, ⟨9, 0, .wo, 0x0⟩]⟩
  | .icuPend => ⟨11, 0x100, [(32, 0x4)], [⟨31, 0, .ro, 0x0⟩]⟩
  | .icuActive => ⟨11, 0x180, [(32, 0x4)], [⟨31, 0, .ro, 0x0⟩]⟩
  | .icuCcCtrl => ⟨11, 0x200, [], [⟨31, 1, .rsv, 0x0⟩, ⟨0, 0, .set1, 0x0⟩]⟩
  | .icuCoreStat => ⟨11, 0x400, [(16, 0x10)], [⟨31, 29, .rsv, 0x0⟩, ⟨28, 24, .ro, 0x0⟩, ⟨23, 18, .rsv, 0x0⟩, ⟨17, 9, .ro, 0x100⟩, ⟨8, 0, .ro, 0x100⟩]⟩
  | .icuCoreCtrl => ⟨11, 0x404, [(16, 0x10)], [⟨31, 1, .rsv, 0x0⟩, ⟨0, 0, .rw, 0x0⟩]⟩
  | .icuCoreFs => ⟨11, 0x408, [(16, 0x10)], [⟨31, 0, .ro, 0x0⟩]⟩
  | .icuCoreMask => ⟨11, 0x40C, [(16, 0x10)], [⟨31, 25, .rsv, 0x0⟩, ⟨24, 16, .ro, 0x100⟩, ⟨15, 0, .ro, 0x0⟩]⟩
  | .icuSrcCfg => ⟨11, 0x1000, [(1024, 0x4)], [⟨31, 31, .rw, 0x0⟩, ⟨30, 30, .ro, 0x0⟩, ⟨29, 24, .rsv, 0x0⟩, ⟨23, 16, .rw, 0x80⟩, ⟨15, 0, .rw, 0x0⟩]⟩
  | .lktReq => ⟨12, 0x10, [], [⟨31, 28, .wo, 0x0⟩, ⟨27, 12, .rsv, 0x0⟩, ⟨11, 0, .wo, 0x0⟩]⟩
  | .lktResult => ⟨12, 0x14, [], [⟨31, 31, .ro, 0x0⟩, ⟨30, 27, .rsv, 0x0⟩, ⟨26, 24, .ro, 0x0⟩, ⟨23, 12, .rsv, 0x0⟩, ⟨11, 0, .ro, 0x0⟩]⟩
  | .lktSel => ⟨12, 0x20, [], [⟨31, 12, .rsv, 0x0⟩, ⟨11, 0, .rw, 0x0⟩]⟩
  | .lktInfo => ⟨12, 0x24, [], [⟨31, 30, .ro, 0x0⟩, ⟨29, 29, .ro, 0x0⟩, ⟨28, 16, .rsv, 0x0⟩, ⟨15, 0, .ro, 0x0⟩]⟩
  | .lktInfoQ => ⟨12, 0x28, [], [⟨31, 20, .rsv, 0x0⟩, ⟨19, 19, .ro, 0x0⟩, ⟨18, 16, .ro, 0x0⟩, ⟨15, 14, .rsv, 0x0⟩, ⟨13, 0, .ro, 0x0⟩]⟩
  | .lktWaitStat => ⟨12, 0x40, [], [⟨31, 14, .rsv, 0x0⟩, ⟨13, 0, .ro, 0x0⟩]⟩
  | .lktCntAbandon => ⟨12, 0x44, [], [⟨31, 0, .ro, 0x0⟩]⟩
  | .secCtrl => ⟨17, 0x10, [], [⟨31, 4, .rsv, 0x0⟩, ⟨3, 0, .ce, 0x4⟩]⟩
  | .secStat => ⟨17, 0x20, [], [⟨31, 18, .rsv, 0x0⟩, ⟨17, 4, .ro, 0x0⟩, ⟨3, 3, .ro, 0x0⟩, ⟨2, 2, .ro, 0x0⟩, ⟨1, 1, .ro, 0x0⟩, ⟨0, 0, .ro, 0x0⟩]⟩
  | .secSweepDone => ⟨17, 0x24, [], [⟨31, 0, .ro, 0x0⟩]⟩
  | .secScrubPend => ⟨17, 0x28, [], [⟨31, 0, .ro, 0x0⟩]⟩
  | .mgtStat => ⟨18, 0x10, [], [⟨31, 10, .rsv, 0x0⟩, ⟨9, 6, .ro, 0x0⟩, ⟨5, 2, .ro, 0x0⟩, ⟨1, 1, .ro, 0x0⟩, ⟨0, 0, .ro, 0x0⟩]⟩
  | .flcCtrl => ⟨15, 0x10, [], [⟨31, 20, .rsv, 0x0⟩, ⟨19, 8, .ce, 0x800⟩, ⟨7, 2, .rsv, 0x0⟩, ⟨1, 1, .ce, 0x1⟩, ⟨0, 0, .rsv, 0x0⟩]⟩
  | .flcStat => ⟨15, 0x14, [], [⟨31, 31, .ro, 0x0⟩, ⟨30, 30, .ro, 0x0⟩, ⟨29, 29, .ro, 0x0⟩, ⟨28, 28, .ro, 0x0⟩, ⟨27, 20, .rsv, 0x0⟩, ⟨19, 0, .ro, 0x0⟩]⟩
  | .flcAck => ⟨15, 0x20, [], [⟨31, 9, .rsv, 0x0⟩, ⟨8, 0, .wo, 0x0⟩]⟩
  | .flcLogProd => ⟨15, 0x30, [], [⟨31, 0, .ro, 0x0⟩]⟩
  | .flcLogCons => ⟨15, 0x34, [], [⟨31, 0, .rw, 0x0⟩]⟩
  | .flcLogSpill => ⟨15, 0x38, [], [⟨31, 0, .ro, 0x0⟩]⟩
  | .flcLogDrop => ⟨15, 0x3C, [], [⟨31, 0, .ro, 0x0⟩]⟩
  | .flcLgCount => ⟨15, 0x40, [], [⟨31, 7, .rsv, 0x0⟩, ⟨6, 0, .ro, 0x0⟩]⟩
  | .flcLgLost => ⟨15, 0x44, [], [⟨31, 0, .ro, 0x0⟩]⟩
  | .flcLogResume => ⟨15, 0x48, [], [⟨31, 1, .rsv, 0x0⟩, ⟨0, 0, .wo, 0x0⟩]⟩
  | .flcRelease => ⟨15, 0x4C, [], [⟨31, 31, .wo, 0x0⟩, ⟨30, 8, .rsv, 0x0⟩, ⟨7, 0, .rw, 0x0⟩]⟩
  | .flcRcCtrl => ⟨15, 0x50, [], [⟨31, 9, .rsv, 0x0⟩, ⟨8, 8, .set1, 0x0⟩, ⟨7, 5, .rsv, 0x0⟩, ⟨4, 4, .wo, 0x0⟩, ⟨3, 1, .rsv, 0x0⟩, ⟨0, 0, .ro, 0x0⟩]⟩
  | .flcRcHb0 => ⟨15, 0x54, [], [⟨31, 0, .wo, 0x0⟩]⟩
  | .flcRcHb1 => ⟨15, 0x58, [], [⟨31, 0, .wo, 0x0⟩]⟩
  | .flcRcStat => ⟨15, 0x5C, [], [⟨31, 16, .ro, 0xFFFF⟩, ⟨15, 0, .ro, 0xFFFF⟩]⟩
  | .flcForceTgt => ⟨15, 0x64, [], [⟨31, 31, .rw, 0x0⟩, ⟨30, 30, .rw, 0x0⟩, ⟨29, 27, .rsv, 0x0⟩, ⟨26, 24, .rw, 0x0⟩, ⟨23, 14, .rsv, 0x0⟩, ⟨13, 0, .rw, 0x0⟩]⟩
  | .flcLogRidx => ⟨15, 0x68, [], [⟨31, 0, .rw, 0x0⟩]⟩
  | .flcFnStat => ⟨15, 0x70, [], [⟨31, 31, .ro, 0x0⟩, ⟨30, 20, .rsv, 0x0⟩, ⟨19, 0, .ro, 0x0⟩]⟩
  | .flcFnRec => ⟨15, 0x80, [(16, 0x4)], [⟨31, 0, .ro, 0x0⟩]⟩
  | .flcUnclr => ⟨15, 0x200, [(16, 0x4)], [⟨31, 0, .ro, 0x0⟩]⟩
  | .flcLogRec => ⟨15, 0x400, [(16, 0x4)], [⟨31, 0, .ro, 0x0⟩]⟩
  | .flcSrcCfg => ⟨15, 0x800, [(512, 0x4)], [⟨31, 31, .wo, 0x0⟩, ⟨30, 7, .rsv, 0x0⟩, ⟨6, 4, .rw, 0x0⟩, ⟨3, 2, .rsv, 0x0⟩, ⟨1, 0, .rw, 0x0⟩]⟩
  | .flcSrcCnt => ⟨15, 0x1000, [(512, 0x4)], [⟨31, 0, .ro, 0x0⟩]⟩
  | .flcLg => ⟨15, 0x3000, [(1024, 0x4)], [⟨31, 0, .ro, 0x0⟩]⟩
  | .glbRstCause => ⟨0, 0x100, [], [⟨31, 23, .rsv, 0x0⟩, ⟨22, 20, .ro, 0x0⟩, ⟨19, 16, .ro, 0x0⟩, ⟨15, 0, .ro, 0x0⟩]⟩
  | .glbRstTimeLo => ⟨0, 0x104, [], [⟨31, 0, .ro, 0x0⟩]⟩
  | .glbRstTimeHi => ⟨0, 0x108, [], [⟨31, 0, .ro, 0x0⟩]⟩
  | .rpcRstCmd => ⟨16, 0x10, [], [⟨31, 31, .wo, 0x0⟩, ⟨30, 12, .rsv, 0x0⟩, ⟨11, 8, .rw, 0x0⟩, ⟨7, 0, .rw, 0x0⟩]⟩
  | .rpcWdog => ⟨16, 0x20, [], [⟨31, 31, .set1, 0x0⟩, ⟨30, 16, .rsv, 0x0⟩, ⟨15, 0, .lk, 0x3E8⟩]⟩
  | .rpcWdogKick => ⟨16, 0x24, [], [⟨31, 0, .wo, 0x0⟩]⟩
  | .rpcBoot => ⟨16, 0x30, [], [⟨31, 2, .rsv, 0x0⟩, ⟨1, 1, .set1, 0x0⟩, ⟨0, 0, .set1, 0x0⟩]⟩
  | .rpcBootStat => ⟨16, 0x34, [], [⟨31, 11, .rsv, 0x0⟩, ⟨10, 8, .ro, 0x0⟩, ⟨7, 4, .ro, 0x0⟩, ⟨3, 3, .rsv, 0x0⟩, ⟨2, 2, .ro, 0x0⟩, ⟨1, 1, .rsv, 0x0⟩, ⟨0, 0, .ro, 0x0⟩]⟩
  | .rpcPdStat => ⟨16, 0x100, [(17, 0x4)], [⟨31, 0, .ro, 0x0⟩]⟩
  | .rpcIslStat => ⟨16, 0x180, [(3, 0x4)], [⟨31, 0, .ro, 0x0⟩]⟩
  | .glbId => ⟨0, 0x10, [], [⟨31, 16, .ro, 0x2A71⟩, ⟨15, 8, .ro, 0x0⟩, ⟨7, 0, .ro, 0x0⟩]⟩
  | .glbSerialLo => ⟨0, 0x14, [], [⟨31, 0, .ro, 0x0⟩]⟩
  | .glbSerialHi => ⟨0, 0x18, [], [⟨31, 0, .ro, 0x0⟩]⟩
  | .glbTimeLo => ⟨0, 0x20, [], [⟨31, 0, .ro, 0x0⟩]⟩
  | .glbTimeHi => ⟨0, 0x24, [], [⟨31, 0, .ro, 0x0⟩]⟩
  | .glbReady => ⟨0, 0x30, [], [⟨31, 19, .rsv, 0x0⟩, ⟨18, 0, .ro, 0x1⟩]⟩
  | .glbFrozen => ⟨0, 0x34, [], [⟨31, 23, .rsv, 0x0⟩, ⟨22, 4, .ro, 0x0⟩, ⟨3, 0, .ro, 0x0⟩]⟩
  | .glbPinStat => ⟨0, 0x38, [], [⟨31, 16, .rsv, 0x0⟩, ⟨15, 8, .ro, 0x0⟩, ⟨7, 5, .rsv, 0x0⟩, ⟨4, 4, .ro, 0x0⟩, ⟨3, 3, .ro, 0x0⟩, ⟨2, 2, .rsv, 0x0⟩, ⟨1, 1, .ro, 0x0⟩, ⟨0, 0, .ro, 0x0⟩]⟩
  | .glbScratch => ⟨0, 0x40, [(4, 0x4)], [⟨31, 0, .rw, 0x0⟩]⟩
  | .xltCtrl => ⟨4, 0x10, [], [⟨31, 12, .rsv, 0x0⟩, ⟨11, 8, .ce, 0x9⟩, ⟨7, 4, .rsv, 0x0⟩, ⟨3, 3, .ce, 0x1⟩, ⟨2, 2, .ce, 0x0⟩, ⟨1, 0, .ce, 0x0⟩]⟩
  | .xltWalkBusy => ⟨4, 0x20, [], [⟨31, 30, .rsv, 0x0⟩, ⟨29, 24, .ro, 0x0⟩, ⟨23, 22, .rsv, 0x0⟩, ⟨21, 16, .ro, 0x0⟩, ⟨15, 14, .rsv, 0x0⟩, ⟨13, 8, .ro, 0x0⟩, ⟨7, 6, .rsv, 0x0⟩, ⟨5, 0, .ro, 0x0⟩]⟩
  | .xltWalkQueue => ⟨4, 0x24, [], [⟨31, 10, .rsv, 0x0⟩, ⟨9, 0, .ro, 0x0⟩]⟩
  | .xltFltCtrl => ⟨4, 0x200, [], [⟨31, 24, .rsv, 0x0⟩, ⟨23, 8, .lk, 0x0⟩, ⟨7, 0, .rsv, 0x0⟩]⟩
  | .xltFltPending => ⟨4, 0x204, [], [⟨31, 13, .rsv, 0x0⟩, ⟨12, 0, .ro, 0x0⟩]⟩
  | .xltFltFlashq => ⟨4, 0x208, [], [⟨31, 7, .rsv, 0x0⟩, ⟨6, 0, .ro, 0x0⟩]⟩
  | .xltFltFlashwait => ⟨4, 0x20C, [], [⟨31, 13, .rsv, 0x0⟩, ⟨12, 0, .ro, 0x0⟩]⟩
  | .xltTstFree => ⟨4, 0x400, [], [⟨31, 19, .rsv, 0x0⟩, ⟨18, 0, .ro, 0x7C000⟩]⟩
  | .xltTstLowmark => ⟨4, 0x404, [], [⟨31, 19, .rsv, 0x0⟩, ⟨18, 0, .lk, 0x2000⟩]⟩
  | .xltTstSeqfree => ⟨4, 0x408, [], [⟨31, 18, .rsv, 0x0⟩, ⟨17, 0, .ro, 0x20000⟩]⟩
  | .seSrndCtrl => ⟨3, 0xF00, [], [⟨31, 17, .rsv, 0x0⟩, ⟨16, 16, .ce, 0x1⟩, ⟨15, 15, .rsv, 0x0⟩, ⟨14, 0, .ce, 0x0⟩]⟩
  | .mapSrndCtrl => ⟨6, 0xF00, [], [⟨31, 17, .rsv, 0x0⟩, ⟨16, 16, .ce, 0x1⟩, ⟨15, 15, .rsv, 0x0⟩, ⟨14, 0, .ce, 0x0⟩]⟩
  | .mapAggCtrl => ⟨6, 0xA00, [], [⟨31, 9, .rsv, 0x0⟩, ⟨8, 8, .lk, 0x1⟩, ⟨7, 4, .rsv, 0x0⟩, ⟨3, 0, .ce, 0x8⟩]⟩
  | .mapAggStat => ⟨6, 0xA04, [], [⟨31, 24, .rsv, 0x0⟩, ⟨23, 16, .ro, 0x80⟩, ⟨15, 5, .rsv, 0x0⟩, ⟨4, 0, .ro, 0x0⟩]⟩

/-- Registers, part 1. -/
def regNames1 : List RegName :=
  [.blkCtrl, .smsCtrl, .smsCntCe, .smsCntUe, .smsPatrol, .ddlCtrl,
   .ddlCntCorr, .ddlCntUe, .ddlModStat, .ddlHbmCfg, .ddlTileCfg, .xltInvAddrLo,
   .xltInvAddrHi, .xltInvLen, .xltInvCmd, .xltInvStat, .xltTierFree, .xltTierReserve,
   .xltTierPinmax, .xltTierPinned, .dqeCtrl, .dqeResStat, .dqeWaitStat, .dqeCtlCtx,
   .dqeCtlRingLo, .dqeCtlRingHi, .dqeRefcntFree, .seCntIssueLo, .seCntIssueHi, .seCntPfault,
   .seSlot, .mapCtrl, .mapChdis, .mapChbusy, .mapChfail, .mapBufFree,
   .mapPaceCfg, .mapRingBase, .mapRingCtrl, .mapRingTail]

/-- Registers, part 2. -/
def regNames2 : List RegName :=
  [.mapRingHead, .mapRingCqbase, .mapRingCqctrl, .mapRingCqprod, .mapRingCqcons, .pcrCtrl,
   .pcrHeatLen, .pcrMaprate, .pcrOt, .pcrBudSel, .pcrBudData, .pcrGridLo,
   .pcrGridHi, .pcrHeatLo, .pcrHeatHi, .pcrStat, .pcrDebt, .pcrCntLate,
   .pcrCntRefuse, .ftcCtrl, .ftcStat, .ftcCapLo, .ftcCapHi, .ftcPatrol,
   .ftcWear, .ftcTgt, .ftcRetryTbl, .ftcCntRetry, .ftcCntRebuild, .ftcCntLost,
   .hpxPortCfg, .hpxWake, .hpxLstat, .hpxLpm, .hpxLrel, .hpxIntxRaised,
   .hpxIntxSeen, .hpxHeld, .crgCtrl, .crgStat]

/-- Registers, part 3. -/
def regNames3 : List RegName :=
  [.crgCntRetry, .crgCntBisnp, .crgLcache, .crgSf, .crgCcwinBaseLo, .crgCcwinBaseHi,
   .crgCcwinSize, .crgCcwinCtrl, .crgMemwinCtrl, .crgMemwinDvaLo, .crgMemwinDvaHi, .crgMemwinSize,
   .ofpTimeStat, .ofpPkg, .ofpCntRetx, .ofpCntNorpt, .ofpPortCfg, .ofpPortStat,
   .bndCtrl, .bndStat, .bndCntMove, .icuCtrl, .icuSwset, .icuPend,
   .icuActive, .icuCcCtrl, .icuCoreStat, .icuCoreCtrl, .icuCoreFs, .icuCoreMask,
   .icuSrcCfg, .lktReq, .lktResult, .lktSel, .lktInfo, .lktInfoQ,
   .lktWaitStat, .lktCntAbandon, .secCtrl, .secStat]

/-- Registers, part 4. -/
def regNames4 : List RegName :=
  [.secSweepDone, .secScrubPend, .mgtStat, .flcCtrl, .flcStat, .flcAck,
   .flcLogProd, .flcLogCons, .flcLogSpill, .flcLogDrop, .flcLgCount, .flcLgLost,
   .flcLogResume, .flcRelease, .flcRcCtrl, .flcRcHb0, .flcRcHb1, .flcRcStat,
   .flcForceTgt, .flcLogRidx, .flcFnStat, .flcFnRec, .flcUnclr, .flcLogRec,
   .flcSrcCfg, .flcSrcCnt, .flcLg, .glbRstCause, .glbRstTimeLo, .glbRstTimeHi,
   .rpcRstCmd, .rpcWdog, .rpcWdogKick, .rpcBoot, .rpcBootStat, .rpcPdStat,
   .rpcIslStat, .glbId, .glbSerialLo, .glbSerialHi]

/-- Registers, part 5. -/
def regNames5 : List RegName :=
  [.glbTimeLo, .glbTimeHi, .glbReady, .glbFrozen, .glbPinStat, .glbScratch,
   .xltCtrl, .xltWalkBusy, .xltWalkQueue, .xltFltCtrl, .xltFltPending, .xltFltFlashq,
   .xltFltFlashwait, .xltTstFree, .xltTstLowmark, .xltTstSeqfree, .seSrndCtrl, .mapSrndCtrl,
   .mapAggCtrl, .mapAggStat]

/-- Every register. -/
def regNames : List RegName := regNames1 ++ regNames2 ++ regNames3 ++ regNames4 ++ regNames5
/-- Register key of an instance: its BAR0 offset (R603, R615). -/
def regAddr (r : RegName) (ix : List Nat) : Nat :=
  r.row.blk * 0x10000 + r.row.off + (List.zipWith (fun d i => d.2 * i) r.row.dims ix).sum

/-- The reset value of a register: its fields' reset values (R4). -/
def RegName.resetVal (r : RegName) : Nat := (r.row.fields.map (fun f => f.rst * 2 ^ f.lo)).sum

/-- The instance indices of a register that an offset within its window names, if any. -/
def instAt : List (Nat × Nat) → Nat → Option (List Nat)
  | [], o => if o = 0 then some [] else none
  | [(c, st)], o => if o % st = 0 ∧ o / st < c then some [o / st] else none
  | (c, st) :: ds, o =>
    if o / st < c then
      match instAt ds (o % st) with
      | some ix => some (o / st :: ix)
      | none => none
    else none

/-- The register and instance at a BAR0 offset of the plain (not alias) part of a window, if it names one (R604). -/
def regAt (addr : Nat) : Option (RegName × List Nat) :=
  let b := addr / 0x10000
  let o := addr % 0x10000
  if o = 0 then (if b < 19 then some (.blkCtrl, [b]) else none)
  else
    let rec go : List RegName → Option (RegName × List Nat)
      | [] => none
      | r :: rs =>
        if r.row.blk = b ∧ r.row.off ≤ o ∧ r ≠ .blkCtrl then
          match instAt r.row.dims (o - r.row.off) with
          | some ix => some (r, ix)
          | none => go rs
        else go rs
    go regNames

end Sys2Proof.Machine
end

