-- ==== Sys2Proof/Machine/Ops.lean ====
section
/-! DEFINITION. The named operations that every meaning is written over: maps, byte memory, bit fields, free values,
register values in force, and accessors of the state's parts. -/

namespace Sys2Proof.Machine

/-! ## Maps -/

/-- The value that a map holds for a key. -/
def Map.look {α : Type} : Map α → Nat → Option α
  | [], _ => none
  | (k, v) :: m, n => if n = k then some v else Map.look m n

/-- The map with a key's value replaced or added; keys stay strictly rising. -/
def Map.put {α : Type} : Map α → Nat → α → Map α
  | [], n, v => [(n, v)]
  | (k, w) :: m, n, v =>
    if n < k then (n, v) :: (k, w) :: m
    else if n = k then (n, v) :: m
    else (k, w) :: Map.put m n v

/-- The map without a key. -/
def Map.del {α : Type} : Map α → Nat → Map α
  | [], _ => []
  | (k, w) :: m, n => if n = k then m else (k, w) :: Map.del m n

/-- A map changed at a key that it holds; a key that it does not hold changes nothing. -/
def Map.upd {α : Type} (m : Map α) (n : Nat) (f : α → α) : Map α :=
  match m.look n with
  | some v => m.put n (f v)
  | none => m

/-- The map with or without a key. -/
def Map.set {α : Type} (m : Map α) (n : Nat) : Option α → Map α
  | some v => m.put n v
  | none => m.del n

/-! ## Byte memory (R30) -/

/-- The canonical form of a byte memory: addresses strictly rise and no entry holds 0, the value of an unlisted byte. -/
def Memory.sortedAbove : Option Nat → Memory → Bool
  | _, [] => true
  | lo, (a, b) :: m =>
    (match lo with | none => true | some l => decide (l < a)) && decide (b ≠ 0) && Memory.sortedAbove (some a) m

/-- The canonical form. -/
def Memory.wf (m : Memory) : Bool := Memory.sortedAbove none m

/-- One byte. -/
def Memory.read : Memory → Nat → Byte
  | [], _ => 0
  | (k, b) :: m, a => if a = k then b else Memory.read m a

/-- One byte written; a 0 is not listed. -/
def Memory.write : Memory → Nat → Byte → Memory
  | [], a, b => if b = 0 then [] else [(a, b)]
  | (k, c) :: m, a, b =>
    if a < k then (if b = 0 then (k, c) :: m else (a, b) :: (k, c) :: m)
    else if a = k then (if b = 0 then m else (a, b) :: m)
    else (k, c) :: Memory.write m a b

/-- Consecutive bytes, lowest address first. -/
def Memory.readN (m : Memory) (a : Nat) : Nat → List Byte
  | 0 => []
  | n + 1 => m.read a :: m.readN (a + 1) n

/-- Consecutive bytes written. -/
def Memory.writeN (m : Memory) (a : Nat) : List Byte → Memory
  | [] => m
  | b :: bs => (m.write a b).writeN (a + 1) bs

/-! ## Bits and bytes -/

/-- Bits [hi:lo] of a number. -/
def fld (w hi lo : Nat) : Nat := (w >>> lo) % 2 ^ (hi + 1 - lo)

/-- One bit of a number. -/
def bitOf (w i : Nat) : Bool := w.testBit i

/-- A Boolean as a bit. -/
def b2n (b : Bool) : Nat := if b then 1 else 0

/-- Little-endian value of bytes. -/
def leVal : List Byte → Nat
  | [] => 0
  | b :: bs => b.toNat + 256 * leVal bs

/-- `n` little-endian bytes of a number. -/
def leBytes : Nat → Nat → List Byte
  | 0, _ => []
  | n + 1, v => BitVec.ofNat 8 v :: leBytes n (v / 256)

/-- Sum of 1 for a counter that saturates at 2^32 - 1. -/
def satInc (w : Word) : Word := if w = 0xFFFFFFFF then w else w + 1

/-- A number saturated to 32 bits. -/
def sat32 (n : Nat) : Word := if n ≥ 2 ^ 32 then 0xFFFFFFFF else BitVec.ofNat 32 n

/-- An element of a list of distinct things, added at the end. -/
def addTo {α : Type} [DecidableEq α] (l : List α) (x : α) : List α := if x ∈ l then l else l ++ [x]

/-- A list without an element. -/
def dropFrom {α : Type} [DecidableEq α] (l : List α) (x : α) : List α := l.filter (fun y => decide (y ≠ x))

/-- The numbers n, n + 1, ... (count of them). -/
def rangeFrom : Nat → Nat → List Nat
  | _, 0 => []
  | n, c + 1 => n :: rangeFrom (n + 1) c

/-- The first element of a list that satisfies a test. -/
def firstOf {α : Type} (p : α → Bool) : List α → Option α
  | [] => none
  | x :: xs => if p x then some x else firstOf p xs

/-- The element with the least key; the first of equal ones. -/
def leastBy {α : Type} (key : α → Nat) : List α → Option α
  | [] => none
  | x :: xs =>
    match leastBy key xs with
    | none => some x
    | some y => if key x ≤ key y then some x else some y

/-- A list changed at one place. -/
def modAt {α : Type} (f : α → α) : List α → Nat → List α
  | [], _ => []
  | x :: xs, 0 => f x :: xs
  | x :: xs, n + 1 => x :: modAt f xs n

/-- State changed by a fold over a list. -/
def forAll {α σ : Type} (l : List α) (s : σ) (f : σ → α → σ) : σ := l.foldl f s

/-! ## Free values and ids -/

/-- A free 64-bit value and the state whose next free value is a fresh one (notes/assumptions/2). -/
def State.draw (s : State) : DWord × State := (Config.freeWord s.free, { s with free := s.free + 1 })

/-- `n` free bytes and the state after them. -/
def State.drawBytes (s : State) : Nat → List Byte × State
  | 0 => ([], s)
  | n + 1 =>
    let r := State.drawBytes { s with free := s.free + 1 } n
    (Config.freeByte s.free :: r.1, r.2)

/-- A fresh id; ids rise in the order of issue. -/
def State.newId (s : State) : Nat × State := (s.nextId, { s with nextId := s.nextId + 1 })

/-- A message leaves the HTU. -/
def State.emit (s : State) (o : Out) : State := { s with out := o :: s.out }

/-! ## Time -/

/-- Whether a time has come. -/
def State.reached (s : State) (t : DWord) : Bool := decide (t.toNat ≤ s.now.toNat)

/-- Nanoseconds since a time. -/
def State.since (s : State) (t : DWord) : Nat := s.now.toNat - t.toNat

/-- Now plus nanoseconds. -/
def State.after (s : State) (ns : Nat) : DWord := s.now + BitVec.ofNat 64 ns

/-! ## Registers in force -/

/-- The stored value of a register instance. -/
def State.reg (s : State) (r : RegName) (ix : List Nat := []) : Nat :=
  match s.regs.look (regAddr r ix) with
  | some v => v.toNat
  | none => r.resetVal

/-- Bits of a register instance that take effect at once. -/
def State.rf (s : State) (r : RegName) (hi lo : Nat) (ix : List Nat := []) : Nat := fld (s.reg r ix) hi lo

/-- Bits of an RW-CE field as they are in force (R611). -/
def State.ce (s : State) (r : RegName) (hi lo : Nat) (ix : List Nat := []) : Nat :=
  match s.force.look (regAddr r ix) with
  | some v => fld v.toNat hi lo
  | none => fld r.resetVal hi lo

/-- A register instance stored. -/
def State.putReg (s : State) (r : RegName) (ix : List Nat) (v : Nat) : State :=
  { s with regs := s.regs.put (regAddr r ix) (BitVec.ofNat 32 v) }

/-- Block indices (R615). -/
def Blk.glb : Nat := 0
def Blk.hpx : Nat := 1
def Blk.dqe : Nat := 2
def Blk.se : Nat := 3
def Blk.xlt : Nat := 4
def Blk.sms : Nat := 5
def Blk.map : Nat := 6
def Blk.ftc : Nat := 7
def Blk.ofp : Nat := 8
def Blk.ddl : Nat := 9
def Blk.crg : Nat := 10
def Blk.icu : Nat := 11
def Blk.lkt : Nat := 12
def Blk.pcr : Nat := 13
def Blk.bnd : Nat := 14
def Blk.flc : Nat := 15
def Blk.rpc : Nat := 16
def Blk.sec : Nat := 17
def Blk.mgt : Nat := 18

/-- Home island of a block's window (R615). -/
def homeIsland (b : Nat) : Nat :=
  if b = Blk.glb ∨ b = Blk.flc ∨ b = Blk.rpc ∨ b = Blk.mgt then 95
  else if b = Blk.xlt then 44
  else if b = Blk.sms then 45
  else if b = Blk.ftc then 93
  else if b = Blk.crg then 53
  else 94

/-- Whether a clock island is powered. -/
def State.islandOn (s : State) (i : Nat) : Bool := s.rpc.islands.contains i

/-- GLB_RST_CAUSE and GLB_RST_TIME at a reset: scope, source and instance (R601). -/
def State.rstCause (s : State) (scope source inst : Nat) : State :=
  { s with rpc := { s.rpc with
    cause := BitVec.ofNat 32 (scope * 2 ^ 20 + source * 2 ^ 16 + inst % 2 ^ 16), causeTime := s.now } }

/-- The island of a power domain that RPC can switch (R592, R593): OFP ports, DDL modules, host links, FTC groups. -/
def domainIsland (d : Nat) : Nat :=
  if d < 448 then 95
  else if d < 496 then 74 + (d - 448) / 3
  else if d < 520 then 90 + (d - 496) / 8
  else if d < 528 then 70 + (d - 520) / 2
  else 93

/-- RPC switches a domain (R593): an island is off when every domain on it is off, and one whose PLL did not lock stays
off. Before bring-up has powered the islands nothing is switched. -/
def State.setDomain (s : State) (d : Nat) (on : Bool) : State :=
  let i := domainIsland d
  if !s.islandOn 94 || s.rpc.pllBad.contains i then s
  else
    let doms := if on then addTo s.rpc.domains d else dropFrom s.rpc.domains d
    let isl := if doms.any (fun x => decide (448 ≤ x ∧ x < 536) && domainIsland x == i) then addTo s.rpc.islands i
      else dropFrom s.rpc.islands i
    { s with rpc := { s.rpc with domains := doms, islands := isl } }

/-- enable of a block's BLK_CTRL. -/
def State.enabled (s : State) (b : Nat) : Bool := s.rf .blkCtrl 0 0 [b] == 1

/-- Whether a block takes new work: its enable is 1, it is not frozen (R556: a frozen block behaves as if its enable were
0), and it is not still completing work under old values (R611). -/
def State.runs (s : State) (b : Nat) : Bool := s.enabled b && !(s.flc.blocks.contains b) && !(s.ceWait.contains b)

/-- Region of a slot, a mover unit, a walker and a control core (R8, R9). -/
def slotRegion (n : Nat) : Nat := n / 16
def unitRegion (u : Nat) : Nat := u / 2
def walkerRegion (w : Nat) : Nat := w / 32
def coreRegion (n : Nat) : Nat := n / 4

/-- Whether a region is frozen (R18). -/
def State.regionFrozen (s : State) (r : Nat) : Bool := s.flc.regions.contains r

/-! ## Contexts and queues -/

/-- A defined context. -/
def State.ctx? (s : State) (c : CtxId) : Option Ctx := s.ctxs.look c.toNat

/-- A context changed, where it is defined. -/
def State.updCtx (s : State) (c : CtxId) (f : Ctx → Ctx) : State := { s with ctxs := s.ctxs.upd c.toNat f }

/-- Queue q of a context record. -/
def Ctx.q (x : Ctx) (q : QIdx) : Queue := x.queues.getD q.toNat {}

/-- A context record with one queue changed. -/
def Ctx.updQ (x : Ctx) (q : QIdx) (f : Queue → Queue) : Ctx := { x with queues := modAt f x.queues q.toNat }

/-- A queue of a context; the undefined queue where the context is not defined. -/
def State.queue (s : State) (c : CtxId) (q : QIdx) : Queue :=
  match s.ctx? c with
  | some x => x.q q
  | none => {}

/-- A queue changed. -/
def State.updQ (s : State) (c : CtxId) (q : QIdx) (f : Queue → Queue) : State := s.updCtx c (fun x => x.updQ q f)

/-- Register gk of a queue: g0 reads 0 (R188). -/
def Queue.gr (q : Queue) (k : Nat) : DWord := if k = 0 then 0 else q.g.getD k 0

/-- Register gk written: a write of g0 is discarded (R188). -/
def Queue.setG (q : Queue) (k : Nat) (v : DWord) : Queue := if k = 0 then q else { q with g := q.g.set k v }

/-- The eight queue indices. -/
def allQ : List QIdx := [0, 1, 2, 3, 4, 5, 6, 7]

/-- A context's slot while it is resident. -/
def State.slotOf (s : State) (c : CtxId) : Option Nat := (s.ctx? c).bind Ctx.slot

/-- The context resident in a slot. -/
def State.slotCtx (s : State) (n : Nat) : Option CtxId :=
  (s.ctxs.find? (fun e => e.2.slot == some n)).map (fun e => BitVec.ofNat 14 e.1)

/-- The thread's initiator for a context (R558): its slot, or slot 0 where it has none. -/
def State.threadOf (s : State) (c : CtxId) : Who :=
  match s.slotOf c with
  | some n => .thread (BitVec.ofNat 6 n)
  | none => .hw

/-- The key of a queue among all queues. -/
def qkey (c : CtxId) (q : QIdx) : Nat := c.toNat * 8 + q.toNat

/-! ## Functions and links (ch. 13) -/

/-- Host port of a function (R53). -/
def fnPort (f : FnId) : Nat := f.toNat / 256
/-- Function number within its port. -/
def fnNum (f : FnId) : Nat := f.toNat % 256

/-- A function's record; the absent function where the map lists none. -/
def State.fn (s : State) (f : FnId) : Fn := (s.hpx.fns.look f.toNat).getD {}

/-- A function's record replaced. -/
def State.putFn (s : State) (f : FnId) (x : Fn) : State := { s with hpx := { s.hpx with fns := s.hpx.fns.put f.toNat x } }

/-- A function's record changed. -/
def State.updFn (s : State) (f : FnId) (g : Fn → Fn) : State := s.putFn f (g (s.fn f))

/-- A host link. -/
def State.link (s : State) (l : Nat) : Link := s.hpx.links.getD l {}

/-- A host link changed. -/
def State.updLink (s : State) (l : Nat) (g : Link → Link) : State :=
  { s with hpx := { s.hpx with links := modAt g s.hpx.links l } }

/-- A virtual device's record. -/
def State.vdev (s : State) (v : Vdix) : VDev := (s.bnd.vdevs.look v.toNat).getD {}

/-- A virtual device's record changed. -/
def State.updVdev (s : State) (v : Vdix) (g : VDev → VDev) : State :=
  { s with bnd := { s.bnd with vdevs := s.bnd.vdevs.put v.toNat (g (s.vdev v)) } }

/-- A core changed. -/
def State.updCore (s : State) (n : Nat) (g : Core → Core) : State :=
  { s with icu := { s.icu with cores := modAt g s.icu.cores n } }

/-- A core. -/
def State.core (s : State) (n : Nat) : Core := s.icu.cores.getD n {}

/-! ## Requests -/

/-- A request by its id. -/
def State.req? (s : State) (id : Nat) : Option Req := firstOf (fun r => r.id == id) s.reqs

/-- A request changed. -/
def State.updReq (s : State) (id : Nat) (f : Req → Req) : State :=
  { s with reqs := s.reqs.map (fun r => if r.id = id then f r else r) }

/-- A request ended. -/
def State.delReq (s : State) (id : Nat) : State := { s with reqs := s.reqs.filter (fun r => decide (r.id ≠ id)) }

/-- Requests that a test names end without a result: requests that joined the walk of one of them look up again, and the
walk queue forgets them. -/
def State.dropReqs (s : State) (gone : Req → Bool) : State :=
  let ids := (s.reqs.filter gone).map Req.id
  let keep (r : Req) : Req := match r.phase with
    | .joined k => if ids.contains k then { r with phase := .lookup, tr := none } else r
    | _ => r
  { s with
    reqs := (s.reqs.filter (fun r => !gone r)).map keep
    xlt := { s.xlt with walkQ := s.xlt.walkQ.filter (fun k => !ids.contains k) } }

/-- A request added. -/
def State.addReq (s : State) (r : Req) : State := { s with reqs := s.reqs ++ [r] }

/-- A descriptor by its id. -/
def State.desc? (s : State) (id : Nat) : Option Desc := firstOf (fun d => d.id == id) s.map.descs

/-- A descriptor changed. -/
def State.updDesc (s : State) (id : Nat) (f : Desc → Desc) : State :=
  { s with map := { s.map with descs := s.map.descs.map (fun d => if d.id = id then f d else d) } }

/-- A descriptor ended. -/
def State.delDesc (s : State) (id : Nat) : State :=
  { s with map := { s.map with descs := s.map.descs.filter (fun d => decide (d.id ≠ id)) } }

end Sys2Proof.Machine
end

