-- ==== Sys2Proof/Machine/Crypto.lean ====
section
/-! DEFINITION. The algorithms that the spec names and other standards define (R303, R305, R377, R397, R527, R563): CRC-32C,
AES-256 of one block (FIPS 197), SHA-384 (FIPS 180-4), HMAC, and the counter-mode KDF of SP 800-108 (notes/assumptions/3). -/

namespace Sys2Proof.Machine

/-! ## CRC-32C -/

/-- Bits of one byte of a CRC with the Castagnoli polynomial, least significant first. -/
def crcBits : Nat → Word → Word
  | 0, c => c
  | n + 1, c => crcBits n ((c >>> 1) ^^^ (if c.getLsbD 0 then 0x82F63B78 else 0))

/-- CRC-32C of a byte string. -/
def crc32c (bs : List Byte) : Word := ~~~(bs.foldl (fun c b => crcBits 8 (c ^^^ b.zeroExtend 32)) 0xFFFFFFFF)

/-! ## AES-256 (FIPS 197) -/

/-- A byte times x in the field of AES. -/
def xtime (b : Byte) : Byte := (b <<< 1) ^^^ (if b.getLsbD 7 then 0x1B else 0)

/-- The product of two bytes, over the bits of the second that remain. -/
def gfMulAux : Nat → Byte → Byte → Byte
  | 0, _, _ => 0
  | n + 1, a, b => (if b.getLsbD 0 then a else 0) ^^^ gfMulAux n (xtime a) (b >>> 1)

def gfMul (a b : Byte) : Byte := gfMulAux 8 a b

/-- The inverse of a byte, its 254th power; 0 for 0. -/
def gfInv (a : Byte) : Byte :=
  let a2 := gfMul a a
  let a3 := gfMul a2 a
  let a6 := gfMul a3 a3
  let a12 := gfMul a6 a6
  let a15 := gfMul a12 a3
  let a30 := gfMul a15 a15
  let a60 := gfMul a30 a30
  let a120 := gfMul a60 a60
  let a126 := gfMul a120 a6
  let a127 := gfMul a126 a
  gfMul a127 a127

/-- The S-box. -/
def sbox (b : Byte) : Byte :=
  let v := gfInv b
  v ^^^ v.rotateLeft 1 ^^^ v.rotateLeft 2 ^^^ v.rotateLeft 3 ^^^ v.rotateLeft 4 ^^^ 0x63

/-- Two byte strings added bit by bit. -/
def xorBytes (a b : List Byte) : List Byte := List.zipWith (fun x y => x ^^^ y) a b

/-- x to a power. -/
def rcon : Nat → Byte
  | 0 => 1
  | n + 1 => xtime (rcon n)

/-- The word that follows eight words of the key schedule, word number i. -/
def keyWord (i : Nat) (win : List (List Byte)) : List Byte :=
  let last := win.getD 7 []
  let t :=
    if i % 8 = 0 then xorBytes ((last.drop 1 ++ last.take 1).map sbox) [rcon (i / 8 - 1), 0, 0, 0]
    else if i % 8 = 4 then last.map sbox
    else last
  xorBytes (win.getD 0 []) t

/-- The rest of the key schedule: words of the window, then those that follow. -/
def keyWords : Nat → Nat → List (List Byte) → List (List Byte)
  | 0, _, win => win
  | n + 1, i, win => win.headD [] :: keyWords n (i + 1) (win.drop 1 ++ [keyWord i win])

/-- A byte string in groups of a size. -/
def groups (k : Nat) : Nat → List Byte → List (List Byte)
  | 0, _ => []
  | n + 1, bs => bs.take k :: groups k n (bs.drop k)

/-- The round keys of a key, 16 bytes each. -/
def roundKeys (key : List Byte) : List (List Byte) := groups 16 15 ((keyWords 52 8 (groups 4 8 key)).flatten)

/-- Rows shifted: byte r + 4c comes from column c + r. -/
def shiftRows (s : List Byte) : List Byte := (List.range 16).map (fun i => s.getD ((i + 4 * (i % 4)) % 16) 0)

/-- One column mixed. -/
def mixColumn (c : List Byte) : List Byte :=
  (List.range 4).map (fun r =>
    xtime (c.getD r 0) ^^^ (xtime (c.getD ((r + 1) % 4) 0) ^^^ c.getD ((r + 1) % 4) 0) ^^^ c.getD ((r + 2) % 4) 0 ^^^
    c.getD ((r + 3) % 4) 0)

/-- The rounds after the first key addition; the last one mixes no columns. -/
def aesRounds : List (List Byte) → List Byte → List Byte
  | [], s => s
  | [k], s => xorBytes (shiftRows (s.map sbox)) k
  | k :: ks, s => aesRounds ks (xorBytes ((groups 4 4 (shiftRows (s.map sbox))).map mixColumn).flatten k)

/-- The bytes of a number, most significant first. -/
def beBytes (n v : Nat) : List Byte := (leBytes n v).reverse

/-- The number that bytes give, most significant first. -/
def beNum (bs : List Byte) : Nat := bs.foldl (fun n b => n * 256 + b.toNat) 0

/-- AES-256 of one block of 16 bytes. -/
def aesBytes (key block : List Byte) : List Byte :=
  let ks := roundKeys key
  aesRounds (ks.drop 1) (xorBytes block (ks.headD []))

/-- AES-256 of a block that stands for a number, as little-endian bytes in and out (R305); a key's first byte is its most
significant one. -/
def aes256 (key : BitVec 256) (block : BitVec 128) : BitVec 128 :=
  BitVec.ofNat 128 (beNum (aesBytes (beBytes 32 key.toNat) (leBytes 16 block.toNat)).reverse)

/-! ## SHA-384 and HMAC -/

/-- The constants of SHA-512's rounds. -/
def shaK : List DWord :=
  [0x428A2F98D728AE22, 0x7137449123EF65CD, 0xB5C0FBCFEC4D3B2F, 0xE9B5DBA58189DBBC,
   0x3956C25BF348B538, 0x59F111F1B605D019, 0x923F82A4AF194F9B, 0xAB1C5ED5DA6D8118,
   0xD807AA98A3030242, 0x12835B0145706FBE, 0x243185BE4EE4B28C, 0x550C7DC3D5FFB4E2,
   0x72BE5D74F27B896F, 0x80DEB1FE3B1696B1, 0x9BDC06A725C71235, 0xC19BF174CF692694,
   0xE49B69C19EF14AD2, 0xEFBE4786384F25E3, 0x0FC19DC68B8CD5B5, 0x240CA1CC77AC9C65] ++
  [0x2DE92C6F592B0275, 0x4A7484AA6EA6E483, 0x5CB0A9DCBD41FBD4, 0x76F988DA831153B5,
   0x983E5152EE66DFAB, 0xA831C66D2DB43210, 0xB00327C898FB213F, 0xBF597FC7BEEF0EE4,
   0xC6E00BF33DA88FC2, 0xD5A79147930AA725, 0x06CA6351E003826F, 0x142929670A0E6E70,
   0x27B70A8546D22FFC, 0x2E1B21385C26C926, 0x4D2C6DFC5AC42AED, 0x53380D139D95B3DF,
   0x650A73548BAF63DE, 0x766A0ABB3C77B2A8, 0x81C2C92E47EDAEE6, 0x92722C851482353B] ++
  [0xA2BFE8A14CF10364, 0xA81A664BBC423001, 0xC24B8B70D0F89791, 0xC76C51A30654BE30,
   0xD192E819D6EF5218, 0xD69906245565A910, 0xF40E35855771202A, 0x106AA07032BBD1B8,
   0x19A4C116B8D2D0C8, 0x1E376C085141AB53, 0x2748774CDF8EEB99, 0x34B0BCB5E19B48A8,
   0x391C0CB3C5C95A63, 0x4ED8AA4AE3418ACB, 0x5B9CCA4F7763E373, 0x682E6FF3D6B2B8A3,
   0x748F82EE5DEFB2FC, 0x78A5636F43172F60, 0x84C87814A1F0AB72, 0x8CC702081A6439EC] ++
  [0x90BEFFFA23631E28, 0xA4506CEBDE82BDE9, 0xBEF9A3F7B2C67915, 0xC67178F2E372532B,
   0xCA273ECEEA26619C, 0xD186B8C721C0C207, 0xEADA7DD6CDE0EB1E, 0xF57D4F7FEE6ED178,
   0x06F067AA72176FBA, 0x0A637DC5A2C898A6, 0x113F9804BEF90DAE, 0x1B710B35131C471B,
   0x28DB77F523047D84, 0x32CAAB7B40C72493, 0x3C9EBE0A15C9BEBC, 0x431D67C49C100D4C,
   0x4CC5D4BECB3E42B6, 0x597F299CFC657E2A, 0x5FCB6FAB3AD6FAEC, 0x6C44198C4A475817]

/-- The initial hash value of SHA-384. -/
def shaInit : List DWord :=
  [0xCBBB9D5DC1059ED8, 0x629A292A367CD507, 0x9159015A3070DD17, 0x152FECD8F70E5939,
   0x67332667FFC00B31, 0x8EB44A8768581511, 0xDB0C2E0D64F98FA7, 0x47B5481DBEFA4FA4]

/-- One round on the eight working words, with a round's constant and message word. -/
def shaRound (k w : DWord) (v : List DWord) : List DWord :=
  match v with
  | [a, b, c, d, e, f, g, h] =>
    let t1 := h + (e.rotateRight 14 ^^^ e.rotateRight 18 ^^^ e.rotateRight 41) + ((e &&& f) ^^^ (~~~e &&& g)) + k + w
    let t2 := (a.rotateRight 28 ^^^ a.rotateRight 34 ^^^ a.rotateRight 39) + ((a &&& b) ^^^ (a &&& c) ^^^ (b &&& c))
    [t1 + t2, a, b, c, d + t1, e, f, g]
  | x => x

/-- The rounds of a block: the window holds the next sixteen message words. -/
def shaRounds : List DWord → List DWord → List DWord → List DWord
  | [], _, v => v
  | k :: ks, win, v =>
    let w1 := win.getD 1 0
    let w14 := win.getD 14 0
    let next := (w14.rotateRight 19 ^^^ w14.rotateRight 61 ^^^ (w14 >>> 6)) + win.getD 9 0 +
      (w1.rotateRight 1 ^^^ w1.rotateRight 8 ^^^ (w1 >>> 7)) + win.getD 0 0
    shaRounds ks (win.drop 1 ++ [next]) (shaRound k (win.getD 0 0) v)

/-- The blocks of a padded message. -/
def shaBlocks : Nat → List Byte → List DWord → List DWord
  | 0, _, h => h
  | n + 1, bs, h =>
    let ws := (groups 8 16 (bs.take 128)).map (fun x => BitVec.ofNat 64 (beNum x))
    shaBlocks n (bs.drop 128) (List.zipWith (fun x y => x + y) h (shaRounds shaK ws h))

/-- SHA-384 of a byte string. -/
def sha384 (m : List Byte) : List Byte :=
  let len := m.length
  let zeros := (239 - len % 128) % 128
  let p := m ++ 0x80 :: List.replicate zeros 0 ++ beBytes 16 (8 * len)
  ((shaBlocks (p.length / 128) p shaInit).take 6).flatMap (fun w => beBytes 8 w.toNat)

/-- HMAC-SHA-384 with a key of at most 128 bytes. -/
def hmac384 (key m : List Byte) : List Byte :=
  let k := key ++ List.replicate (128 - key.length) 0
  sha384 (k.map (fun b => b ^^^ 0x5C) ++ sha384 (k.map (fun b => b ^^^ 0x36) ++ m))

/-! ## Key derivation (R527) -/

/-- Bytes of an ASCII label. -/
def ascii (t : String) : List Byte := t.toList.map (fun c => BitVec.ofNat 8 c.toNat)

/-- A derived key of 256 bits: one iteration of the counter mode, its first 32 bytes. -/
def kdf256 (key : List Byte) (label : String) (context : List Byte) : BitVec 256 :=
  BitVec.ofNat 256 (beNum ((hmac384 key (beBytes 4 1 ++ ascii label ++ 0 :: context ++ beBytes 4 256)).take 32))

end Sys2Proof.Machine
end

