-- ==== Sys2Proof/Machine/HostOut.lean ====
section
/-! DEFINITION. What leaves toward a host: messages and records of a function, held while a link is frozen or a function
is in D3hot, MSI-X vectors and INTx emulation, wake conditions (R417 to R420, R424). -/

namespace Sys2Proof.Machine

/-- Whether port p runs as two x8 links (R402). -/
def State.bif (s : State) (p : Nat) : Bool := s.hpx.bifB.toNat.testBit p

/-- The link of a function (R402, R403). -/
def State.fnLink (s : State) (f : FnId) : Nat :=
  2 * fnPort f + (if s.bif (fnPort f) ∧ fnNum f ≥ 128 then 1 else 0)

/-- Whether a function is the PF of its link (R403). -/
def State.isPf (s : State) (f : FnId) : Bool :=
  fnNum f = 0 ∨ (s.bif (fnPort f) ∧ fnNum f = 128)

/-- The PF of a link. -/
def State.linkPf (l : Nat) : FnId := BitVec.ofNat 10 (l / 2 * 256 + (l % 2) * 128)

/-- Whether an owner of host messages names a function. -/
def HostMsg.fnOf : HostMsg → Option FnId
  | .data _ _ _ _ _ => none
  | .record f _ _ _ _ => some f
  | .index f _ _ => some f
  | .msix f _ => some f
  | .atsInvDone f _ => some f
  | .req f _ => some f

/-- Whether a queue of a context that a function owns is STALLED (R420). -/
def State.fnStalled (s : State) (f : FnId) : Bool :=
  s.ctxs.any (fun e => e.2.func == f && e.2.queues.any (fun q => q.state == .stalled))

/-- Whether a HOST fault of a context that a function owns waits (R420). -/
def State.fnHostFault (s : State) (f : FnId) : Bool :=
  s.xlt.faults.any (fun e => e.2.func == f && e.2.svc == .host)

/-- Whether a function has a wake condition (R420). -/
def State.wakes (s : State) (f : FnId) : Bool :=
  let x := s.fn f
  let k := s.link (s.fnLink f)
  (x.d3hot && (!x.pba.isEmpty || k.dheld.any (fun m => m.fnOf == some f))) ||
  (k.st == .l2 && (s.fnStalled f || s.fnHostFault f))

/-- The effect of a wake condition, where one holds (R420). -/
def State.wakeCheck (s : State) (f : FnId) : State :=
  let x := s.fn f
  let l := s.fnLink f
  if !s.wakes f then s
  else if (s.link l).st == .l2 then
    if (s.link l).pmeL0.contains f then s.updLink l (fun k => { k with wake := true }) else s
  else if x.pmeEn && !x.pmeSt then
    (s.putFn f { x with pmeSt := true, pmeAt := s.now }).emit (.pmPme f)
  else s

/-- Places of a link's hold (R424 step 4) and of its D3hot hold (R419). -/
def holdMax : Nat := 256
def d3Max : Nat := 4096

/-- Whether a record or message of a function can be handed to its port now: a full hold makes its writer wait. -/
def State.hostRoom (s : State) (f : FnId) (n : Nat) : Bool :=
  let k := s.link (s.fnLink f)
  if k.frozen then k.hold.length + n ≤ holdMax else k.dheld.length + n ≤ d3Max

/-- A record, index write or message of a function goes to its port (R419, R424). -/
def State.hostPush (s : State) (f : FnId) (m : HostMsg) : State :=
  let l := s.fnLink f
  if (s.link l).frozen then s.updLink l (fun k => { k with hold := k.hold ++ [m] })
  else if (s.fn f).d3hot || !s.runs Blk.hpx then
    (s.updLink l (fun k => { k with dheld := k.dheld ++ [m] })).wakeCheck f
  else s.emit (.host l m)

/-- INTA of a link follows the two counts and Interrupt Disable (R418). -/
def State.intaUpdate (s : State) (l : Nat) : State :=
  let k := s.link l
  let f := State.linkPf l
  let want := decide (k.raised ≠ k.seen) && !(s.fn f).intDis
  if want = k.inta then s
  else ((s.updLink l (fun k => { k with inta := want })).updFn f (fun x => { x with intSt := want })).emit (.inta l want)

/-- Whether an MSI-X vector is masked: its table entry's mask bit, 1 until it is written (R406, PCIe reset). -/
def Fn.vecMasked (x : Fn) (v : Nat) : Bool :=
  match x.vectors.look v with
  | some e => e.2.2
  | none => true

/-- A function raises an MSI-X vector (R417). -/
def State.msixRaise (s : State) (f : FnId) (v : Nat) : State :=
  let x := s.fn f
  let l := s.fnLink f
  if !x.msixEn then
    if s.isPf f then (s.updLink l (fun k => { k with raised := k.raised + 1 })).intaUpdate l else s
  else if x.vecMasked v || x.fmask || x.d3hot || (s.link l).frozen || !s.runs Blk.hpx then
    (s.putFn f { x with pba := addTo x.pba v }).wakeCheck f
  else s.emit (.host l (.msix f v))

/-- A function's pending vectors whose masks are clear are sent, lowest first (R417, R419, R426). -/
def State.msixFlush (s : State) (f : FnId) : State :=
  let x := s.fn f
  if !x.msixEn || x.fmask || x.d3hot || (s.link (s.fnLink f)).frozen || !s.runs Blk.hpx then s
  else
    let go := x.pba.filter (fun v => !x.vecMasked v)
    let s1 := s.putFn f { x with pba := x.pba.filter (fun v => x.vecMasked v) }
    forAll go s1 (fun t v => t.emit (.host (s.fnLink f) (.msix f v)))

/-- Whether a function takes requests to its BARs now (R408, R414, R415, R419, R428). -/
def State.barOpen (s : State) (f : FnId) : Bool :=
  let x := s.fn f
  x.present && x.ready && !x.d3hot && s.runs Blk.hpx &&
  (if s.isPf f then x.mse else (s.fn (State.linkPf (s.fnLink f))).vfMse)

end Sys2Proof.Machine
end

