-- ==== Sys2Proof/Machine/Flc.lean ====
section
/-! DEFINITION. Fault capture (R554 to R570): sources, initiator IDs, the record, capture and folding, counting,
escalation, uncleared faults and the owning function. The reactions of levels 2 to 4 stand in React.lean. -/

namespace Sys2Proof.Machine

/-! ## Source numbers (R559, R560) -/

def Src.cfgReject : BitVec 9 := 0
def Src.regParity : BitVec 9 := 1
def Src.islandOff : BitVec 9 := 2
def Src.logMediumFail : BitVec 9 := 3
def Src.logSpillFail : BitVec 9 := 4
def Src.rcTakeover : BitVec 9 := 5
def Src.rcStandbyLost : BitVec 9 := 6
def Src.rcBothLost : BitVec 9 := 7
def Src.ccBusErr : BitVec 9 := 8
def Src.icuMaskExpire : BitVec 9 := 9
def Src.icuNoTarget : BitVec 9 := 10
def Src.tstLow : BitVec 9 := 16
def Src.xltFaultUnres : BitVec 9 := 17
def Src.atsSize : BitVec 9 := 18
def Src.priStray : BitVec 9 := 19
def Src.tagMismatch : BitVec 9 := 20
def Src.smsCe : BitVec 9 := 21
def Src.smsUe : BitVec 9 := 22
def Src.tstUe : BitVec 9 := 23
def Src.seProgram : BitVec 9 := 24
def Src.dbRange : BitVec 9 := 25
def Src.attachReject : BitVec 9 := 26
def Src.refcntRange : BitVec 9 := 27
def Src.mapPoisonOut : BitVec 9 := 32
def Src.aggPoison : BitVec 9 := 33
def Src.aggAccPoison : BitVec 9 := 34
def Src.paceOverrun : BitVec 9 := 35
def Src.ringRange : BitVec 9 := 36
def Src.ringOwn : BitVec 9 := 37
def Src.pcrGrid : BitVec 9 := 38
def Src.bndMoveFail : BitVec 9 := 39
def Src.ftcProgFail : BitVec 9 := 48
def Src.ftcEraseFail : BitVec 9 := 49
def Src.ftcRetryDeep : BitVec 9 := 50
def Src.ftcPatrolLate : BitVec 9 := 51
def Src.ftcTargetFail : BitVec 9 := 52
def Src.ftcSpareLow : BitVec 9 := 53
def Src.ftcZoneCopy : BitVec 9 := 54
def Src.ftcUnitLost : BitVec 9 := 55
def Src.ftcWrstop : BitVec 9 := 56
def Src.ftcZoneLost : BitVec 9 := 57
def Src.hpxCorr (l : Nat) : BitVec 9 := BitVec.ofNat 9 (64 + 6 * l)
def Src.hpxPoisonIn (l : Nat) : BitVec 9 := BitVec.ofNat 9 (65 + 6 * l)
def Src.hpxCto (l : Nat) : BitVec 9 := BitVec.ofNat 9 (66 + 6 * l)
def Src.hpxUrIn (l : Nat) : BitVec 9 := BitVec.ofNat 9 (67 + 6 * l)
def Src.hpxUncorr (l : Nat) : BitVec 9 := BitVec.ofNat 9 (68 + 6 * l)
def Src.hpxTrain (l : Nat) : BitVec 9 := BitVec.ofNat 9 (69 + 6 * l)
def Src.crgLcacheUe : BitVec 9 := 112
def Src.cohLineLost : BitVec 9 := 113
def Src.cohMemwinRange : BitVec 9 := 114
def Src.cohBiLost : BitVec 9 := 115
def Src.ddlCorr : BitVec 9 := 116
def Src.ddlLinkDown : BitVec 9 := 117
def Src.hbmCe : BitVec 9 := 118
def Src.hbmUe : BitVec 9 := 119
def Src.hbmWriteFail : BitVec 9 := 120
def Src.ddlTileErr : BitVec 9 := 121
def Src.ofpAttestFail (n : Nat) : BitVec 9 := BitVec.ofNat 9 (128 + n)
def Src.ofpTimeUnsync : BitVec 9 := 192
def Src.ofpWriteFail : BitVec 9 := 193
def Src.roceFail : BitVec 9 := 194
def Src.secFuse : BitVec 9 := 200
def Src.secEntropy : BitVec 9 := 201
def Src.secLapExhaust : BitVec 9 := 202
def Src.secScrubFail : BitVec 9 := 203
def Src.mgtSessions : BitVec 9 := 204
def Src.mgtAuthFail : BitVec 9 := 205

/-- Default class and level of a source (R559, R560); none for a reserved source. RC_BOTH_LOST has no level of R555:
its reaction is fixed (R580). -/
def srcDefault (n : Nat) : Option (BitVec 2 × BitVec 3) :=
  if n ∈ [0, 9, 18, 19, 20, 21, 25, 27, 35, 37, 48, 49, 50, 51, 114, 116, 118, 204] then some (0, 0)
  else if n ∈ [2, 4, 5, 6, 8, 10, 16, 26, 36, 38, 39, 52, 53, 54, 192, 203, 205] then some (0, 1)
  else if n = 1 then some (3, 4)
  else if n = 3 then some (3, 1)
  else if n = 7 then some (3, Config.bothLostLevel)
  else if n ∈ [17, 55, 56, 113, 115, 117, 120, 121, 193, 194, 201] then some (2, 1)
  else if n ∈ [22, 32, 33, 34, 112, 119] then some (1, 1)
  else if n ∈ [23, 24] then some (2, 2)
  else if n ∈ [57, 200, 202] then some (3, 3)
  else if 64 ≤ n ∧ n < 112 then
    match (n - 64) % 6 with
    | 0 => some (0, 0)
    | 1 => some (1, 1)
    | 2 => some (2, 1)
    | 3 => some (0, 0)
    | 4 => some (2, 3)
    | _ => some (0, 1)
  else if 128 ≤ n ∧ n < 192 then some (0, 1)
  else if 256 ≤ n ∧ n < 512 then
    let k := (n - 256) % 64
    if k < 12 then some (2, 3)
    else if k < 16 then some (0, 0)
    else if k < 27 then some (0, 1)
    else none
  else none

/-- Class and level in force of a source (R561). -/
def State.srcCfg (s : State) (n : Nat) : Option (BitVec 2 × BitVec 3) :=
  match srcDefault n with
  | none => none
  | some d => some ((s.flc.srcCfg.look n).getD d)

/-! ## Reasons (R564) and event error codes (R29) -/

def Rsn.opcRsv : Byte := 0x01
def Rsn.encRsv : Byte := 0x02
def Rsn.priv : Byte := 0x03
def Rsn.twoIndex : Byte := 0x04
def Rsn.inlineLen : Byte := 0x05
def Rsn.misalign : Byte := 0x06
def Rsn.divZero : Byte := 0x07
def Rsn.badTarget : Byte := 0x08
def Rsn.badRd : Byte := 0x09
def Rsn.eventRange : Byte := 0x0A
def Rsn.fetchPoison : Byte := 0x0B
def Rsn.addrRange : Byte := 0x20
def Rsn.permission : Byte := 0x21
def Rsn.seqDesc : Byte := 0x22
def Rsn.tierPinFull : Byte := 0x23
def Rsn.hostRefused : Byte := 0x24
def Rsn.hostTimeout : Byte := 0x25
def Rsn.atomClass : Byte := 0x26
def Rsn.lenRange : Byte := 0x27
def Rsn.cohWindow : Byte := 0x28
def Rsn.flashOwner : Byte := 0x29
def Rsn.flashFull : Byte := 0x2A
def Rsn.ringClass : Byte := 0x2B
def Rsn.tablePoison : Byte := 0x2C
def Rsn.remoteXlate : Byte := 0x40
def Rsn.remoteWrite : Byte := 0x41
def Rsn.noReport : Byte := 0x42
def Rsn.roceHandle : Byte := 0x43
def Rsn.poisonNoCarrier : Byte := 0x44
def Rsn.ddlDown : Byte := 0x45
def Rsn.aggAlign : Byte := 0x50

def Code.xlateUnresolved : Byte := 0x01
def Code.hostPathFailed : Byte := 0x02
def Code.remoteNack : Byte := 0x03
def Code.partitioned : Byte := 0x04
def Code.contextAborted : Byte := 0x05
def Code.queueBroken : Byte := 0x06
def Code.aggQuorumLost : Byte := 0x07
def Code.rebindAborted : Byte := 0x08
def Code.portFrozen : Byte := 0x09
def Code.flashUnrecoverable : Byte := 0x0A
def Code.programFault : Byte := 0x0B
def Code.refusedAdmission : Byte := 0x0C

/-! ## The record (R558, R563) -/

/-- The initiator ID (R558). -/
def initId : Who → BitVec 16
  | .hw => 0
  | .host f => BitVec.ofNat 16 (0x1000 + f.toNat)
  | .thread n => BitVec.ofNat 16 (0x2000 + n.toNat)
  | .mover n => BitVec.ofNat 16 (0x3000 + n.toNat)
  | .walker n => BitVec.ofNat 16 (0x4000 + n.toNat)
  | .core n => BitVec.ofNat 16 (0x5000 + n.toNat)
  | .fabric l => BitVec.ofNat 16 (0x6000 + l.toNat)
  | .mgt p n => BitVec.ofNat 16 (0x7000 + 8 * p.toNat + n.toNat)

/-- ACC of R563. -/
def accCode : Acc → Nat
  | .none => 0
  | .read => 1
  | .write => 2
  | .atomic => 3
  | .fetch => 4
  | .regRead => 5
  | .regWrite => 6
  | .message => 7

/-- AKIND of R563. -/
def akindCode : AKind → Nat
  | .none => 0
  | .dva => 1
  | .ca => 2
  | .pra => 3
  | .bar0 => 4
  | .host => 5
  | .ccpa => 6
  | .bar2 => 7

/-- The bytes 0x00 to 0x3B of a record, as a number (R563). -/
def FRec.low (r : FRec) : Nat :=
  r.time.toNat + r.f.addr.toNat * 2 ^ 64 + r.seq.toNat * 2 ^ 128
  + (r.f.src.toNat + r.cls.toNat * 2 ^ 9 + r.level.toNat * 2 ^ 11 + b2n r.esc * 2 ^ 14 + b2n r.f.forced * 2 ^ 15
     + (initId r.f.who).toNat * 2 ^ 16) * 2 ^ 160
  + (accCode r.f.acc + akindCode r.f.akind * 2 ^ 4 + r.f.reason.toNat * 2 ^ 8 + r.f.code.toNat * 2 ^ 16
     + (if r.f.akind = .pra then r.f.pcls.toNat else 0) * 2 ^ 24) * 2 ^ 192
  + ((match r.f.ctx with | some c => c.toNat + 2 ^ 14 | none => 0)
     + (match r.f.queue with | some q => q.toNat * 2 ^ 15 + 2 ^ 18 | none => 0)) * 2 ^ 224
  + (match r.f.queue with | some _ => r.f.iseq.toNat | none => 0) * 2 ^ 256
  + r.rep.toNat * 2 ^ 288 + r.f.synd.toNat * 2 ^ 320

/-- A record as its 64 bytes, with its CRC (R563). -/
def FRec.bits (r : FRec) : BitVec 512 :=
  BitVec.ofNat 512 (r.low + (crc32c (leBytes 60 r.low)).toNat * 2 ^ 480)

/-! ## Capture -/

/-- The owning function of a record (R569). -/
def State.ownerFn (s : State) (f : FaultIn) : Option FnId :=
  match f.who with
  | .host h => some h
  | _ =>
    match f.ctx with
    | some c => (s.ctx? c).map Ctx.func
    | none => none

/-- The vector of a function's fault queue, or 0 (R569). -/
def State.faultVec (s : State) (f : FnId) : Nat :=
  match s.xlt.faultQs.look f.toNat with
  | some q => q.vec.toNat
  | none => 0

/-- The owning function is told (R569). -/
def State.notifyOwner (s : State) (f : FaultIn) (r : FRec) : State :=
  match s.ownerFn f with
  | none => s
  | some h =>
    (s.updFn h (fun x => { x with recValid := true, recData := r.bits,
                                  recCount := if x.recCount ≥ 0xFFFFF then 0xFFFFF else x.recCount + 1 })).msixRaise
      h (s.faultVec h)

/-- A block detects a fault: it is captured or folded, counted, escalated, kept uncleared and told to its owner
(R562, R565, R566, R569). A reaction of level 2 or more is left in `todo` for the end of the command; level 4 also asks
RPC for a die reset (R555). A fault of a reserved source does not exist. -/
def State.raise (s : State) (f : FaultIn) : State :=
  match s.srcCfg f.src.toNat with
  | none => s
  | some (cls, lv) =>
    let n := f.src.toNat
    let both := n = 7
    let esc := !both && s.flc.unclr.any (fun u => u.1 == n && u.2.1 == cls)
    let level := if esc then min 4 (lv.toNat + 1) else lv.toNat
    let fl := s.flc
    let r : FRec := { time := s.now, f := f, seq := fl.seq, cls := cls, level := BitVec.ofNat 3 level, esc := esc }
    let s1 : State :=
      match fl.capture.look n with
      | some old =>
        { s with flc := { fl with
            capture := fl.capture.put n { old with rep := if old.rep = 0xFFFF then 0xFFFF else old.rep + 1 }
            counts := fl.counts.put n (satInc ((fl.counts.look n).getD 0)) } }
      | none =>
        { s with flc := { fl with
            capture := fl.capture.put n r
            seq := fl.seq + 1
            counts := fl.counts.put n (satInc ((fl.counts.look n).getD 0)) } }
    if level = 0 then s1
    else
      let s2 : State := { s1 with flc := { s1.flc with
        unclr := s1.flc.unclr ++ [(n, cls, esc)]
        todo := if level ≥ 2 ∧ !both then s1.flc.todo ++ [(f, level)] else s1.flc.todo
        dieReset := if level = 4 ∧ !both ∧ s1.flc.dieReset = none then some n else s1.flc.dieReset } }
      s2.notifyOwner f r

/-- A condition whose source raises one fault each time the condition begins (R562): `on` tells whether it holds now. -/
def State.condFault (s : State) (f : FaultIn) (on : Bool) : State :=
  let n := f.src.toNat
  if on then
    if s.flc.active.contains n then s
    else ({ s with flc := { s.flc with active := s.flc.active ++ [n] } }).raise f
  else { s with flc := { s.flc with active := s.flc.active.filter (fun k => decide (k ≠ n)) } }

/-- CFG_REJECT for a register write at a BAR0 offset (R5, R604). -/
def State.cfgReject (s : State) (who : Who) (addr : Nat) : State :=
  s.raise { src := Src.cfgReject, who := who, addr := BitVec.ofNat 64 addr, acc := .regWrite, akind := .bar0 }

/-- A host's request to a BAR: nothing arrives over a link that is down; a frozen link discards a posted one and answers
any other with Unsupported Request, without a record, but for its PF's accesses to the HPX window (`hpx`); so does a closed
function, with a record (R408, R425). -/
def State.inbound (s : State) (f : FnId) (posted : Bool) (addr : DWord) (acc : Acc) (kind : AKind) (serve : State → State)
    (hpx : Bool := false) : State :=
  let l := s.fnLink f
  let refused := if posted then s else s.emit (.unsupported f)
  if !(s.link l).dlup then s
  else if (s.link l).frozen && !(hpx && s.isPf f) then refused
  else if s.barOpen f then serve s
  else refused.raise { src := Src.hpxUrIn l, who := .host f, addr := addr, acc := acc, akind := kind }

/-- Whether an initiator is an operator's session of the management network (R546). -/
def State.operator (s : State) : Who → Bool
  | .mgt p n => s.mgt.sessions.any (fun x => x.port == p.toNat && x.num == n.toNat && x.right == .operator)
  | _ => false

/-- A control core, or an operator's session for which MGT writes (R561, R583). -/
def State.coreOrOperator (s : State) (w : Who) : Bool :=
  match w with
  | .core _ => true
  | _ => s.operator w

/-- The island of a register (R613): its own for an instance of a link, port, unit, module or HCA, else its window's home. -/
def regIsland (addr : Nat) : Nat :=
  match regAt addr with
  | some (.hpxLstat, l :: _) => 70 + l / 2
  | some (.hpxLpm, l :: _) => 70 + l / 2
  | some (.hpxLrel, l :: _) => 70 + l / 2
  | some (.ofpPortStat, p :: _) => 74 + p
  | some (.mapChbusy, u :: _) => 32 + u
  | some (.mapChfail, u :: _) => 32 + u
  | some (.mapBufFree, u :: _) => 32 + u
  | some (.ddlModStat, m :: _) => 90 + m / 8
  | some (.crgLcache, p :: _) => 70 + p
  | some (.crgSf, p :: _) => 70 + p
  | _ => homeIsland (addr / 0x10000)

/-- Whether a control core runs: it is not held in reset, its island is powered and its region is not frozen (R8, R18,
R578). -/
def State.coreRuns (s : State) (n : CoreId) : Bool :=
  !(s.core n.toNat).held && s.islandOn (54 + n.toNat) && !s.regionFrozen (coreRegion n.toNat)

/-- A register access reaches its window: a host's over its link, a core's where it runs; a window whose island is
powered off is not reached (R614). -/
def State.regArrive (s : State) (who : Who) (addr : Nat) (serve : State → State) : State :=
  if !s.islandOn (regIsland addr) then s
  else
    match who with
    | .host f => s.inbound f true (BitVec.ofNat 64 addr) .regWrite .bar0 serve (addr / 0x10000 == Blk.hpx)
    | .core n => if s.coreRuns n then serve s else s
    | _ => serve s

/-- A write of a register by an initiator that may make it; from any other it is ignored, and FLC records CFG_REJECT. -/
def State.writeBy (s : State) (ok : Bool) (who : Who) (r : RegName) (ix : List Nat) (f : State → State) : State :=
  s.regArrive who (regAddr r ix) (fun t => if ok then f t else t.cfgReject who (regAddr r ix))

/-- ERR_N is driven low (R567). -/
def State.errLow (s : State) : Bool := !s.flc.unclr.isEmpty || s.flc.lastgasp || s.flc.fallback

end Sys2Proof.Machine
end

