-- ==== Sys2Proof/Machine/Sms.lean ====
section
/-! DEFINITION. SMS lines: partitions, owner tags, poison, checked reads and writes (R30, R31, R62, R521, R522), and the
memory behind die-to-die links (R38) as far as writes have defined it. -/

namespace Sys2Proof.Machine

/-- Flat SMS address of byte 0 of the staging windows, the tier cache and the firmware area (R30, in table order after
the 4 GiB of the Table Store). -/
def stagingBase : Nat := 0x100000000
def tierBase : Nat := 0x280000000
def fwBase : Nat := 0x3E0000000

/-- Sizes of the partitions (R30, R46). -/
def stagingSize : Nat := 0x180000000
def tierSize : Nat := 0x160000000
def fwSize : Nat := 0x1C000000

/-- Metadata of the line that holds a byte. -/
def State.line (s : State) (a : Nat) : LineMeta := (s.mem.lines.look (a / 64)).getD {}

/-- Metadata of a line replaced; unowned and clean lines are not listed. -/
def State.putLine (s : State) (a : Nat) (m : LineMeta) : State :=
  { s with mem := { s.mem with
      lines := if m = {} then s.mem.lines.del (a / 64) else s.mem.lines.put (a / 64) m } }

/-- Bytes written without touching metadata. -/
def State.putBytes (s : State) (a : Nat) (bs : List Byte) : State :=
  { s with mem := { s.mem with bytes := s.mem.bytes.writeN a bs } }

/-- What the layer controller's check finds at a line that is read or partly written (R31). `tst` names a Table Store
line met by a walk, whose error TST_UE records. -/
def State.eccLine (s : State) (a : Nat) (e : Ecc) (who : Who) : State :=
  match e with
  | .ok => s
  | .corrected =>
    ({ s with mem := { s.mem with ce := satInc s.mem.ce } }).raise { src := Src.smsCe, who := who, acc := .none }
  | .uncorrectable =>
    if (s.line a).poison then s
    else
      let s1 : State := s.putLine a { s.line a with poison := true }
      ({ s1 with mem := { s1.mem with ue := satInc s1.mem.ue } }).raise { src := Src.smsUe, who := who, acc := .none }

/-- Lines that a span covers, as (line base, first byte, byte count) in order. -/
def lineSpans (a : Nat) : Nat → Nat → List (Nat × Nat × Nat)
  | 0, _ => []
  | fuel + 1, n =>
    if n = 0 then []
    else
      let base := a / 64 * 64
      let k := min n (base + 64 - a)
      (base, a, k) :: lineSpans (a + k) fuel (n - k)

/-- A span's lines. -/
def spanLines (a n : Nat) : List (Nat × Nat × Nat) := lineSpans a (n / 64 + 2) n

/-- One line's part of a read: its bytes, whether it is poisoned, and the state after a tag comparison (R31, R62). -/
def State.readPart (s : State) (own : Option CtxId) (who : Who) (p : Nat × Nat × Nat) : List Byte × Bool × State :=
  let m := s.line p.1
  if m.poison then (List.replicate p.2.2 0, true, s)
  else
    match own with
    | none => (s.mem.bytes.readN p.2.1 p.2.2, false, s)
    | some o =>
      if m.owned ∧ m.tag = o then (s.mem.bytes.readN p.2.1 p.2.2, false, s)
      else (List.replicate p.2.2 0, false, s.raise { src := Src.tagMismatch, who := who, acc := .read })

/-- A read of SMS: bytes, poison of any line, and the state after it. `own` is the leaf's OWNER where tags are compared
(R522), none elsewhere. -/
def State.smsRead (s : State) (a n : Nat) (own : Option CtxId) (who : Who) : List Byte × Bool × State :=
  (spanLines a n).foldl
    (fun r p => let x := r.2.2.readPart own who p; (r.1 ++ x.1, r.2.1 || x.2.1, x.2.2)) ([], false, s)

/-- One line's part of a write (R31, R62): a write of the whole line clears poison; a partial write into a line of
another tag zeroes the rest, and a poisoned line stays poisoned; poisoned data poisons the line (R332). -/
def State.writePart (s : State) (own : Option CtxId) (poison : Bool) (bs : List Byte) (p : Nat × Nat × Nat) : State :=
  let m := s.line p.1
  let whole := decide (p.2.2 = 64)
  let foreign := match own with
    | some o => !(m.owned && m.tag == o)
    | none => false
  let s1 := if foreign && !whole && !m.poison then s.putBytes p.1 (List.replicate 64 0) else s
  let s2 := s1.putBytes p.2.1 bs
  s2.putLine p.1 {
    tag := match own with | some o => o | none => m.tag
    owned := match own with | some _ => true | none => m.owned
    poison := poison || (m.poison && !whole) }

/-- A write of SMS. -/
def State.smsWrite (s : State) (a : Nat) (bs : List Byte) (own : Option CtxId) (poison : Bool) : State :=
  ((spanLines a bs.length).foldl
    (fun r p => (r.1.writePart own poison (r.2.take p.2.2) p, r.2.drop p.2.2)) (s, bs)).1

/-! ## HBM and tile memory (R38) -/

/-- Key of an HBM byte: channel and offset; of a tile byte: die, tile and offset. -/
def hbmKey (idx : BitVec 24) (off : Nat) : Nat := idx.toNat * 2 ^ 48 + off

/-- The lap of a context ID or of a link that the last update has committed (R398, R531). -/
def State.lapStored (s : State) (link : Bool) (id : Nat) : Word :=
  s.sec.lapBase + ((if link then s.sec.linkLaps else s.sec.laps).look id).getD 0

/-- The lap under which a page of an owner is encrypted: the current lap when LP equals its bit 0, the previous one
otherwise (R65). -/
def State.lapOf (s : State) (own : CtxId) (lp : Bool) : Word :=
  match s.ctx? own with
  | some x => if x.lap.toNat.testBit 0 = lp then x.lap else x.lap - 1
  | none => 0

/-- A context's generation (R53). -/
def State.genOf (s : State) (own : CtxId) : Word :=
  match s.ctx? own with
  | some x => x.gen
  | none => (s.sec.gens.look own.toNat).getD 0

/-- The lap of an access to an HBM line: a sweep register that has passed the page stands before the LP that a
translation carries (R536). -/
def State.keyLap (s : State) (idx : BitVec 24) (off : Nat) (own : CtxId) (lp : Bool) : Word :=
  match s.sec.regs.look idx.toNat with
  | some g =>
    if g.finished ∧ g.ctx = own ∧ g.page * 4096 ≤ off ∧ off < g.page * 4096 + 2 ^ g.lsize then
      match s.ctx? own with
      | some x => x.lap
      | none => 0
    else s.lapOf own lp
  | none => s.lapOf own lp

/-- HBM bytes read under an owner's keys: a byte last written under other keys, or not yet written, is free (R38). -/
def State.hbmRead (s : State) (idx : BitVec 24) (off : Nat) (own : CtxId) (lp : Bool) : Nat → List Byte × State
  | 0 => ([], s)
  | n + 1 =>
    let r := State.hbmRead s idx (off + 1) own lp n
    match s.mem.hbm.look (hbmKey idx off) with
    | some (b, o, g, l) =>
      if o = own ∧ g = s.genOf own ∧ l = s.keyLap idx off own lp then (b :: r.1, r.2)
      else (Config.freeByte r.2.free :: r.1, { r.2 with free := r.2.free + 1 })
    | none => (Config.freeByte r.2.free :: r.1, { r.2 with free := r.2.free + 1 })

/-- HBM bytes written under an owner's keys. -/
def State.hbmWrite (s : State) (idx : BitVec 24) (off : Nat) (own : CtxId) (lp : Bool) : List Byte → State
  | [] => s
  | b :: bs =>
    State.hbmWrite { s with mem := { s.mem with
      hbm := s.mem.hbm.put (hbmKey idx off) (b, own, s.genOf own, s.keyLap idx off own lp) } } idx (off + 1) own lp bs

/-- HBM bytes made undefined again: an unaccepted outcome of a failed write (R38). -/
def State.hbmForget (s : State) (idx : BitVec 24) (off : Nat) : Nat → State
  | 0 => s
  | n + 1 => State.hbmForget { s with mem := { s.mem with hbm := s.mem.hbm.del (hbmKey idx off) } } idx (off + 1) n

/-- Tile-memory bytes read; a byte not yet written is free. -/
def State.tileRead (s : State) (idx : BitVec 24) (off : Nat) : Nat → List Byte × State
  | 0 => ([], s)
  | n + 1 =>
    let r := State.tileRead s idx (off + 1) n
    match s.mem.tile.look (hbmKey idx off) with
    | some b => (b :: r.1, r.2)
    | none => (Config.freeByte r.2.free :: r.1, { r.2 with free := r.2.free + 1 })

/-- Tile-memory bytes written. -/
def State.tileWrite (s : State) (idx : BitVec 24) (off : Nat) : List Byte → State
  | [] => s
  | b :: bs =>
    State.tileWrite { s with mem := { s.mem with tile := s.mem.tile.put (hbmKey idx off) b } } idx (off + 1) bs

/-- Tile-memory bytes made undefined again. -/
def State.tileForget (s : State) (idx : BitVec 24) (off : Nat) : Nat → State
  | 0 => s
  | n + 1 => State.tileForget { s with mem := { s.mem with tile := s.mem.tile.del (hbmKey idx off) } } idx (off + 1) n

end Sys2Proof.Machine
end

