-- ==== Sys2Proof/Machine/Round.lean ====
section
/-! DEFINITION. Aggregation rounds as far as other blocks meet them: held pages of a round, the first eight bytes of its
record, and the drop of a party (R306, R307, R313). -/

namespace Sys2Proof.Machine

/-- Place of a DVA in pages of 4 KiB that are held from a first DVA on. -/
def heldAt (pages : List (Byte × BitVec 24 × Nat)) (dva0 a : Nat) : Option (Byte × BitVec 24 × Nat) :=
  (pages[a / 4096 - dva0 / 4096]?).map (fun p => (p.1, p.2.1, p.2.2 + a % 4096))

/-- The lap parity under which a held HBM page is reached: that of the leaf that names it, whose LP the sweep alone changes
(R65). -/
def State.heldLp (s : State) (own : CtxId) (idx : BitVec 24) (off : Nat) : Bool :=
  let names (e : Nat × PTE) : Bool :=
    let n := e.2.toNat
    let o := fld n 99 64 * 4096
    let l := [12, 16, 21, 25, 30].getD (fld n 4 2) 30
    (match s.xlt.frames.look (e.1 / 512) with
     | some f => f.stage2
     | none => false) && fld n 1 0 == 3 && fld n 39 32 == 3 && fld n 63 40 == idx.toNat && fld n 29 16 == own.toNat &&
    decide (o ≤ off ∧ off < o + 2 ^ l)
  match s.xlt.entries.find? names with
  | some e => e.2.toNat.testBit 9
  | none => match s.ctx? own with
    | some x => x.lap.toNat.testBit 0
    | none => false

/-- Bytes written to a held place under an owner: staging windows or HBM (R296). -/
def State.heldPut (s : State) (own : CtxId) (p : Byte × BitVec 24 × Nat) (bs : List Byte) : State :=
  if p.1 = 3 then s.hbmWrite p.2.1 p.2.2 own (s.heldLp own p.2.1 p.2.2) bs
  else s.smsWrite (stagingBase + p.2.2) bs (some own) false

/-- A span of held pages written, page by page. -/
def State.heldWrite (s : State) (own : CtxId) (pages : List (Byte × BitVec 24 × Nat)) (dva0 : Nat) :
    Nat → Nat → List Byte → State
  | 0, _, _ => s
  | fuel + 1, a, bs =>
    if bs.isEmpty then s
    else
      let n := 4096 - a % 4096
      let s1 := match heldAt pages dva0 a with
        | some p => s.heldPut own p (bs.take n)
        | none => s
      State.heldWrite s1 own pages dva0 fuel (a + n) (bs.drop n)

/-- Bytes read from a held place, and whether a line carries poison. -/
def State.heldGet (s : State) (own : CtxId) (p : Byte × BitVec 24 × Nat) (n : Nat) : List Byte × Bool × State :=
  if p.1 = 3 then
    let r := s.hbmRead p.2.1 p.2.2 own (s.heldLp own p.2.1 p.2.2) n
    (r.1, false, r.2)
  else s.smsRead (stagingBase + p.2.2) n (some own) .hw

/-- A span of held pages read. -/
def State.heldRead (s : State) (own : CtxId) (pages : List (Byte × BitVec 24 × Nat)) (dva0 : Nat) :
    Nat → Nat → Nat → List Byte × Bool × State
  | 0, _, _ => ([], false, s)
  | fuel + 1, a, n =>
    if n = 0 then ([], false, s)
    else
      let k := min n (4096 - a % 4096)
      match heldAt pages dva0 a with
      | none => ([], false, s)
      | some p =>
        let x := s.heldGet own p k
        let y := State.heldRead x.2.2 own pages dva0 fuel (a + k) (n - k)
        (x.1 ++ y.1, x.2.1 || y.2.1, y.2.2)

/-- Stripes of a round (R298). -/
def Round.stripes (r : Round) : Nat := (r.n + 2 ^ r.lstripe - 1) / 2 ^ r.lstripe

/-- STATE of R313. -/
def RState.code : RState → Nat
  | .opened => 0
  | .closing => 1
  | .released => 2
  | .failed => 3

/-- Counts of R313. -/
def Round.joinedCount (r : Round) : Nat := (r.parties.filter Party.joined).length
def Round.completeCount (r : Round) : Nat := (r.parties.filter (fun p => decide (p.commits = r.stripes))).length
def Round.droppedCount (r : Round) : Nat := (r.parties.filter (fun p => p.joined && p.dropped)).length

/-- Bytes 0x00 to 0x07 of the record. -/
def Round.head (r : Round) : List Byte :=
  leBytes 4 (r.st.code + r.reason * 2 ^ 4 + r.joinedCount * 2 ^ 8 + r.completeCount * 2 ^ 16 + r.droppedCount * 2 ^ 24)
  ++ leBytes 4 r.stripes

/-- The record's first bytes are rewritten (R313). -/
def State.roundHead (s : State) (slot : Nat) : State :=
  match s.map.rounds.look slot with
  | none => s
  | some r => s.heldWrite r.ctx r.recPages r.recDva.toNat 2 r.recDva.toNat r.head

/-- A round changed, and the first bytes of its record with it. -/
def State.updRound (s : State) (slot : Nat) (f : Round → Round) : State :=
  ({ s with map := { s.map with rounds := s.map.rounds.upd slot f } }).roundHead slot

/-- A party is dropped and settled (R306, R307): accepted stripes that continue its prefix are committed when they are
accepted, so those that remain are discarded. -/
def Party.drop (p : Party) : Party := { p with dropped := true, accepted := [] }

/-- This package's index (R471); 0 where none is assigned. -/
def State.ownPkg (s : State) : PkgId := s.ofp.pkg.getD 0

/-- The parties of joined queues that a test names are dropped, here and at rounds of other homes. -/
def State.dropParties (s : State) (which : CtxId → QIdx → Bool) : State :=
  let mine (p : Party) : Bool := p.joined && !p.dropped && p.pkg == s.ownPkg && which p.ctx p.queue
  let hit := (s.map.rounds.filter (fun e => e.2.st != .released && e.2.st != .failed && e.2.parties.any mine)).map Prod.fst
  let s1 := forAll hit s (fun t k => t.updRound k (fun r =>
    { r with parties := r.parties.map (fun p => if mine p then p.drop else p) }))
  { s1 with map := { s1.map with joined := s1.map.joined.map (fun j =>
      if which j.ctx j.queue then { j with dropped := true, secret := 0 } else j) } }

end Sys2Proof.Machine
end

