-- ==== Sys2Proof/Machine/Operands.lean ====
section
/-! DEFINITION. Jarud words: the fields of the base word (R195), what each opcode's encoding allows (R222, R226 to R265),
and the operand forms (R201, R202, R204). A base word is a number below 2^256. -/

namespace Sys2Proof.Machine

/-! ## Fields of the base word (R195) -/

def J.opc (w : Nat) : Nat := fld w 7 0
def J.xc (w : Nat) : Nat := fld w 10 8
def J.ge (w : Nat) : Bool := w.testBit 11
def J.gp (w : Nat) : Nat := fld w 14 12
def J.gn (w : Nat) : Bool := w.testBit 15
def J.md (w : Nat) : Nat := fld w 23 16
def J.rd (w : Nat) : Nat := fld w 28 24
def J.ra (w : Nat) : Nat := fld w 36 32
def J.rb (w : Nat) : Nat := fld w 41 37
def J.rc (w : Nat) : Nat := fld w 46 42
def J.ama (w : Nat) : Nat := fld w 51 48
def J.amb (w : Nat) : Nat := fld w 55 52
def J.imm0 (w : Nat) : Nat := fld w 127 64
def J.imm1 (w : Nat) : Nat := fld w 191 128
def J.imm2 (w : Nat) : Nat := fld w 255 192

/-- The modifiers of the integer group and of scalar accesses (R198, R235). -/
def J.sg (w : Nat) : Bool := (J.md w).testBit 3
def J.wid (w : Nat) : Nat := 8 * 2 ^ fld (J.md w) 2 1
def J.sat (w : Nat) : Bool := (J.md w).testBit 0

/-- Words of an instruction. -/
def J.words (w : Nat) : Nat := 1 + J.xc w

/-! ## What an opcode's entry names -/

/-- Kinds of destination: none, a register, a predicate, two registers, three registers (R195, R224). -/
inductive JDst where
  | none | g | p | g2 | g3
  deriving DecidableEq, Repr

/-- An entry of the instruction reference, as its encoding: least and greatest XC, and whether an INLINE operand allows
any XC; the destination; the modes of A and B (empty: not named); whether RC is named whatever the modes are; the bits
that MOD and IMM2 may have set; whether RA[2:0] and RB[2:0] name predicates. -/
structure JEnc where
  xcMin : Nat := 0
  xcMax : Nat := 0
  pay   : Bool := false
  dst   : JDst := .none
  a     : List Nat := []
  b     : List Nat := []
  rc    : Bool := false
  md    : Nat := 0
  imm2  : Nat := 0
  preds : Bool := false
  deriving DecidableEq, Repr

/-- The modes of R201. -/
def amReg : Nat := 0
def amImm : Nat := 1
def amDisp : Nat := 2
def amIndex : Nat := 3
def amToken : Nat := 4
def amInline : Nat := 5

/-- Mode lists that entries share. -/
def amVal : List Nat := [0, 1]
def amMem : List Nat := [2, 3, 4]

/-- The bits [hi:lo] as a mask. -/
def maskOf (hi lo : Nat) : Nat := (2 ^ (hi + 1 - lo) - 1) * 2 ^ lo

/-- The encoding of an instruction whose opcode R226 assigns; none for a reserved opcode (R196). -/
def encOf (w : Nat) : Option JEnc :=
  match J.opc w with
  | 0x01 => some { xcMax := 6 }
  | 0x02 => some { imm2 := maskOf 31 0 }
  | 0x03 => some { a := [0] }
  | 0x04 => some { dst := .g, imm2 := maskOf 31 0 }
  | 0x08 => some { dst := .p, md := 0xF, preds := true }
  | 0x09 => some { dst := .p, a := amVal }
  | 0x0A => some { dst := .g }
  | 0x0B => some { a := amVal }
  | 0x20 | 0x21 | 0x22 | 0x23 | 0x25 => some { dst := .g, a := amVal, b := amVal, md := 0xF }
  | 0x24 => some { dst := .g, a := amVal, md := 0xF }
  | 0x26 => some { dst := .g, a := amVal, b := amVal, md := 0xE }
  | 0x27 => some { dst := .g2, a := amVal, b := amVal, md := 0xF }
  | 0x28 => some { dst := .g, a := amVal, b := amVal, md := 0xF }
  | 0x29 | 0x2A | 0x2B | 0x2C | 0x2D | 0x2E | 0x2F | 0x30 | 0x31 | 0x32 =>
    some { dst := .g, a := amVal, b := amVal, md := 0xE }
  | 0x33 => some { dst := .p, a := amVal, b := amVal, md := 0xE, imm2 := 7 }
  | 0x34 => some { pay := true, dst := .g, a := [0, 1, 5], md := 0xE }
  | 0x35 => some { dst := .g, a := amMem }
  | 0x36 | 0x37 => some { dst := .g, a := amVal, md := 0xE }
  | 0x38 => some { dst := .g }
  | 0x39 => some { a := amVal, imm2 := 0xFF }
  | 0x3A => some { dst := .g, a := amVal, imm2 := maskOf 55 40 }
  | 0x40 => some { dst := .g, a := amMem, md := 0xE }
  | 0x41 => some { pay := true, a := amMem, b := [0, 1, 5], md := 0x1E }
  | 0x42 => some { dst := .g, a := amMem, b := amVal, rc := decide (fld (J.imm2 w) 2 0 = 7), md := 0xE, imm2 := 7 }
  | 0x43 => some { dst := .g, a := amVal, md := 1 }
  | 0x44 | 0x45 => some { dst := .g, a := amMem, md := 1 }
  | 0x48 | 0x49 =>
    let m := J.md w
    some { xcMin := if J.opc w = 0x49 then 1 else 0, xcMax := if J.opc w = 0x49 then 6 else 0, pay := true
           a := [2, 3, 4, 5], b := amMem, rc := m.testBit 1, md := 0xF
           imm2 := maskOf 39 0 + (if m.testBit 2 then maskOf 55 40 else 0) + (if m.testBit 3 then maskOf 61 56 else 0) }
  | 0x50 =>
    match fld (J.md w) 2 0 with
    | 0 => some { dst := .g2, a := [2], md := 0x1F }
    | 1 => some { dst := .g2, a := amVal, md := 0x1F }
    | 2 => some { pay := true, a := [2, 3, 4, 5], b := amVal, rc := (J.md w).testBit 4, md := 0x1F,
                  imm2 := maskOf 45 0 + maskOf 54 52 }
    | 3 => some { dst := .g, a := amVal, md := 0x1F }
    | 4 => some { dst := .g, a := amVal, md := 0x1F }
    | _ => some {}
  | 0x60 => some { md := 7 }
  | 0x61 => some { a := amVal, rc := (J.md w).testBit 0, md := 1, imm2 := 0xFFFF }
  | 0x62 => some { dst := .g, b := amVal, imm2 := maskOf 47 0 }
  | 0x63 => some { dst := .g, a := amMem, b := amVal, md := 8, imm2 := maskOf 47 16 + 7 }
  | 0x64 => some { imm2 := 0xFFFF }
  | 0x68 => some { dst := .g, a := [2, 3], b := amVal, imm2 := maskOf 47 16 }
  | 0x69 => some { a := [2, 3], b := amVal }
  | 0x6C => some { dst := .g, a := amVal, imm2 := maskOf 47 16 }
  | 0x6D | 0x6E => some { dst := .g, a := amVal }
  | 0x80 => some { pay := true, dst := .g, a := amVal, b := [0, 5], md := 1,
                   imm2 := if (J.md w).testBit 0 then 0xFF else 0x3FFF }
  | 0x81 => some { dst := .g3, a := amVal, md := 7, imm2 := 0x3FFF + maskOf 23 16 }
  | 0x82 => some { dst := .g, a := amVal, imm2 := 0x1F + maskOf 26 16 }
  | 0x83 =>
    if (J.md w).testBit 0 then some { dst := .g, a := amVal, md := 1 }
    else some { xcMin := 2, xcMax := 6, dst := .g2, a := [5], md := 1 }
  | 0x88 => some { dst := .g, a := amVal, b := amVal, md := 0xF, imm2 := 0x3FFF }
  | 0xA0 => some { dst := .g }
  | 0xA1 => some { a := amVal, md := 1 }
  | 0xA2 => some { dst := .g, a := amVal, b := amVal, md := 1, imm2 := 0xFFFF }
  | 0xA3 => some { dst := .g }
  | 0xC0 => some { dst := .g2, md := 3, imm2 := 0x3FFF + maskOf 31 24 }
  | 0xC1 => some { xcMin := 1, xcMax := 6, dst := .g, a := [5], imm2 := 0x3FFF }
  | 0xC2 | 0xC3 | 0xC5 => some { dst := .g, imm2 := 0x3FFF }
  | 0xC4 => some { dst := .g, a := [0], imm2 := 0x3FFF }
  | 0xC8 => some { dst := .g, a := amVal, md := 0xF, imm2 := 0x3FFF + maskOf 18 16 + maskOf 28 24 }
  | 0xC9 | 0xCA | 0xCB => some { dst := .g, imm2 := 0x3FFF + maskOf 18 16 }
  | 0xCC => some { dst := .g2, a := amVal, imm2 := 0x3FFF }
  | _ => none

/-- Reserved values in named fields: the checks that a mask does not express (R228 to R246). -/
def encValueBad (w : Nat) : Bool :=
  let m := J.md w
  let i := J.imm2 w
  let cvt := fld i 44 40 > 0x12 || fld i 50 46 > 0x12 || fld i 54 52 > 4 ||
    !subtyped (fld i 44 40) && i.testBit 45 || !subtyped (fld i 50 46) && i.testBit 51
  match J.opc w with
  | 0x08 => fld (J.ra w) 4 3 ≠ 0 || fld (J.rb w) 4 3 ≠ 0
  | 0x33 => fld i 2 0 > 5
  | 0x3A => cvt || fmtBlockOrLane (fld i 44 40) || fmtBlockOrLane (fld i 50 46)
  | 0x42 => fld m 2 1 < 2
  | 0x48 => m.testBit 2 && (cvt || fmtLane (fld i 44 40) || fmtLane (fld i 50 46)) ||
            m.testBit 1 && (J.ama w = amIndex || J.amb w = amIndex)
  | 0x49 => !m.testBit 2 || cvt || fmtLane (fld i 44 40) || fmtLane (fld i 50 46) ||
            m.testBit 1 && (J.ama w = amIndex || J.amb w = amIndex)
  | 0x50 => fld m 2 0 > 4 || fld m 2 0 = 2 && (fld i 44 40 > 0x10 || fld i 54 52 > 4 ||
              !subtyped (fld i 44 40) && i.testBit 45) ||
            fld m 2 0 = 2 && m.testBit 4 && J.ama w = amIndex
  | 0x63 => fld i 2 0 > 5
  | 0x80 => J.amb w = amReg && J.rb w = 31
  | 0x81 => fld m 2 0 > 5 || fld i 19 16 ≠ 0
  | _ => false
where
  /-- MXFP8 and MXFP6, whose subtype bit is no reserved encoding when 1 (R269). -/
  subtyped (c : Nat) : Bool := c = 0x09 || c = 0x0A
  /-- ZQ32 and ZL64, which only AGG produces (R242). -/
  fmtLane (c : Nat) : Bool := c = 0x11 || c = 0x12
  /-- MX formats, ZQ32 and ZL64 (R233). -/
  fmtBlockOrLane (c : Nat) : Bool := (0x09 ≤ c && c ≤ 0x0C) || c = 0x11 || c = 0x12

/-- An operand that the entry does not name leaves its mode, register and immediate 0. -/
def operandUnusedBad (am r imm : Nat) : Bool := am ≠ 0 || r ≠ 0 || imm ≠ 0

/-- An operand that the entry names leaves 0 the field that its mode does not read: the immediate with REG, the register with
IMM and INLINE (R201, R222). -/
def operandFieldsBad (am r imm : Nat) : Bool := am = amReg && imm ≠ 0 || (am = amImm || am = amInline) && r ≠ 0

/-- The encoding fault of a word whose opcode is assigned, if any (R215, R222, R224): ENC_RSV, or BAD_RD where a destination
that leaves no room for its second or third register is the one reserved encoding. -/
def encFault (w : Nat) (e : JEnc) : Option Byte :=
  let badRd := (e.dst = .g2 ∧ J.rd w = 31) ∨ (e.dst = .g3 ∧ J.rd w ≥ 30)
  let rsv : Bool :=
    let inl := J.ama w = amInline && e.a.contains amInline || J.amb w = amInline && e.b.contains amInline
    let xcBad := J.xc w < e.xcMin || J.xc w > 6 || J.xc w > e.xcMax && !(e.pay && inl)
    let rsvBad := fld w 63 56 ≠ 0 || w.testBit 47 || fld w 31 29 ≠ 0
    let rdBad := match e.dst with
      | .none => J.rd w ≠ 0
      | .p => J.rd w ≥ 8
      | _ => false
    let aBad :=
      if e.preds then J.ama w ≠ 0 || J.imm0 w ≠ 0
      else if e.a = [] then operandUnusedBad (J.ama w) (J.ra w) (J.imm0 w)
      else !e.a.contains (J.ama w) || operandFieldsBad (J.ama w) (J.ra w) (J.imm0 w)
    let bBad :=
      if e.preds then J.amb w ≠ 0 || J.imm1 w ≠ 0
      else if e.b = [] then operandUnusedBad (J.amb w) (J.rb w) (J.imm1 w)
      else !e.b.contains (J.amb w) || operandFieldsBad (J.amb w) (J.rb w) (J.imm1 w)
    let index := J.ama w = amIndex || J.amb w = amIndex
    let rcBad := !(e.rc || index) && J.rc w ≠ 0
    let mdBad := J.md w &&& e.md ≠ J.md w
    let i2Bad := J.imm2 w &&& e.imm2 ≠ J.imm2 w
    xcBad || rsvBad || rdBad || aBad || bBad || rcBad || mdBad || i2Bad || encValueBad w
  if rsv then some Rsn.encRsv else if badRd then some Rsn.badRd else none

/-! ## Operand values and addresses (R201, R202) -/

/-- What an instruction reads: the base word, the payload of its extension words, its queue and the sequence
descriptors of the Table Store. -/
structure JIn where
  w   : Nat
  pay : List Byte
  q   : Queue
  seqs : Map SeqDesc
  deriving DecidableEq, Repr

/-- Payload bytes from an offset. -/
def JIn.inline (x : JIn) (off n : Nat) : List Byte := (x.pay.drop off).take n

/-- The value of operand A under REG or IMM. -/
def JIn.aVal (x : JIn) : DWord :=
  if J.ama x.w = amImm then BitVec.ofNat 64 (J.imm0 x.w) else x.q.gr (J.ra x.w)

/-- The value of operand B under REG or IMM. -/
def JIn.bVal (x : JIn) : DWord :=
  if J.amb x.w = amImm then BitVec.ofNat 64 (J.imm1 x.w) else x.q.gr (J.rb x.w)

/-- The third source. -/
def JIn.cVal (x : JIn) : DWord := x.q.gr (J.rc x.w)

/-- The DVA of an address operand, with wrapping arithmetic; a TOKEN operand of a descriptor not in use forms BASE 0. -/
def JIn.dva (x : JIn) (am r imm : Nat) : DWord :=
  if am = amDisp then x.q.gr r + BitVec.ofNat 64 imm
  else if am = amIndex then x.q.gr r + (x.cVal <<< fld imm 2 0)
  else if am = amToken then
    match x.seqs.look (fld imm 16 0) with
    | some d => d.base + x.q.gr r * BitVec.ofNat 64 (2 ^ d.lstride)
    | none => 0
  else 0

def JIn.aDva (x : JIn) : DWord := x.dva (J.ama x.w) (J.ra x.w) (J.imm0 x.w)
def JIn.bDva (x : JIn) : DWord := x.dva (J.amb x.w) (J.rb x.w) (J.imm1 x.w)

/-- The check of a TOKEN operand before translation (R203, R77): the reason of its failure, if it fails. -/
def JIn.tokenFault (x : JIn) (c : CtxId) (am r imm : Nat) : Option Byte :=
  if am ≠ amToken then none
  else
    match x.seqs.look (fld imm 16 0) with
    | none => some Rsn.seqDesc
    | some d =>
      if d.ctx ≠ c then some Rsn.seqDesc
      else if (x.q.gr r).toNat ≥ d.limit then some Rsn.addrRange
      else none

def JIn.aTokenFault (x : JIn) (c : CtxId) : Option Byte := x.tokenFault c (J.ama x.w) (J.ra x.w) (J.imm0 x.w)
def JIn.bTokenFault (x : JIn) (c : CtxId) : Option Byte := x.tokenFault c (J.amb x.w) (J.rb x.w) (J.imm1 x.w)

/-- Registers that a word names, for dependence on loads that have not returned: sources and destinations. -/
def regDeps (w : Nat) (e : JEnc) : List Nat :=
  let a := if e.a ≠ [] ∧ J.ama w ≠ amImm ∧ J.ama w ≠ amInline then [J.ra w] else []
  let b := if e.b ≠ [] ∧ J.amb w ≠ amImm ∧ J.amb w ≠ amInline then
      (if J.opc w = 0x80 then [J.rb w, J.rb w + 1] else [J.rb w]) else []
  let c := if e.rc ∨ J.ama w = amIndex ∨ J.amb w = amIndex then [J.rc w] else []
  let d := match e.dst with
    | .g => [J.rd w]
    | .g2 => [J.rd w, J.rd w + 1]
    | .g3 => [J.rd w, J.rd w + 1, J.rd w + 2]
    | _ => []
  (a ++ b ++ c ++ d).filter (fun k => decide (k ≠ 0))

end Sys2Proof.Machine
end

