-- ==== Sys2Proof/Machine/Flags.lean ====
section
/-! DEFINITION. FLAGS (R193), and the integer operations on exact integers with the flags that each defines
(R199, R209 to R214, R228 to R230). -/

namespace Sys2Proof.Machine

/-- Bits of FLAGS (R193). -/
def Fl.sat : Nat := 0
def Fl.dz : Nat := 1
def Fl.inv : Nat := 2
def Fl.ovf : Nat := 3
def Fl.unf : Nat := 4
def Fl.c : Nat := 5
def Fl.v : Nat := 6
def Fl.trapdz : Nat := 7

/-- A bit of FLAGS. -/
def flagBit (f : Byte) (k : Nat) : Bool := f.toNat.testBit k

/-- FLAGS with a bit set to a value. -/
def setFlag (f : Byte) (k : Nat) (b : Bool) : Byte :=
  BitVec.ofNat 8 ((if b then f.toNat ||| 2 ^ k else (f.toNat ||| 2 ^ k) - 2 ^ k))

/-- FLAGS with a sticky bit set where a condition holds. -/
def stick (f : Byte) (k : Nat) (b : Bool) : Byte := if b then setFlag f k true else f

/-- The low `w` bits of a source, as the integer that its signedness reads (R199). -/
def srcInt (w : Nat) (sg : Bool) (v : DWord) : Int :=
  let n := v.toNat % 2 ^ w
  if sg ∧ n ≥ 2 ^ (w - 1) then (n : Int) - 2 ^ w else n

/-- Least and greatest values of a width and signedness. -/
def minInt (w : Nat) (sg : Bool) : Int := if sg then -(2 ^ (w - 1)) else 0
def maxInt (w : Nat) (sg : Bool) : Int := if sg then 2 ^ (w - 1) - 1 else 2 ^ w - 1

/-- Whether a true result lies outside its range. -/
def outside (w : Nat) (sg : Bool) (t : Int) : Bool := decide (t < minInt w sg ∨ maxInt w sg < t)

/-- A true result clamped to its range. -/
def clampInt (w : Nat) (sg : Bool) (t : Int) : Int :=
  if t < minInt w sg then minInt w sg else if maxInt w sg < t then maxInt w sg else t

/-- The low `w` bits of an integer, extended to 64 bits with sign or zero fill (R199). -/
def extend (w : Nat) (sg : Bool) (t : Int) : DWord :=
  let n := (t % (2 ^ w : Int)).toNat
  if sg ∧ n ≥ 2 ^ (w - 1) then BitVec.ofNat 64 (n + (2 ^ 64 - 2 ^ w)) else BitVec.ofNat 64 n

/-- A result register value and the FLAGS after an integer instruction. -/
structure IntRes where
  val : DWord
  flags : Byte
  deriving DecidableEq, Repr

/-- An additive or multiplicative result (R209): clamped with SAT, or wrapped; V from the true result, C as given. -/
def arith (w : Nat) (sg sat : Bool) (f : Byte) (t : Int) (carry : Bool) : IntRes :=
  let v := outside w sg t
  let f1 := setFlag (setFlag f Fl.c carry) Fl.v v
  { val := extend w sg (if sat then clampInt w sg t else t)
    flags := stick f1 Fl.sat (sat && v) }

/-- The unsigned value of the low `w` bits. -/
def srcNat (w : Nat) (v : DWord) : Nat := v.toNat % 2 ^ w

/-- ADD and ADC (R193, R229). -/
def addOp (w : Nat) (sg sat : Bool) (f : Byte) (a b : DWord) (cin : Bool) : IntRes :=
  arith w sg sat f (srcInt w sg a + srcInt w sg b + b2n cin)
    (decide (srcNat w a + srcNat w b + b2n cin ≥ 2 ^ w))

/-- SUB and SBB. -/
def subOp (w : Nat) (sg sat : Bool) (f : Byte) (a b : DWord) (cin : Bool) : IntRes :=
  arith w sg sat f (srcInt w sg a - srcInt w sg b - b2n cin)
    (decide (srcNat w a < srcNat w b + b2n cin))

/-- NEG: clears C (R193, R210). -/
def negOp (w : Nat) (sg sat : Bool) (f : Byte) (a : DWord) : IntRes := arith w sg sat f (-(srcInt w sg a)) false

/-- MUL: clears C. -/
def mulOp (w : Nat) (sg sat : Bool) (f : Byte) (a b : DWord) : IntRes :=
  arith w sg sat f (srcInt w sg a * srcInt w sg b) false

/-- MULH: the high W bits of the 2W-bit product; no flag. -/
def mulhOp (w : Nat) (sg : Bool) (a b : DWord) : DWord := extend w sg (srcInt w sg a * srcInt w sg b / 2 ^ w)

/-- Quotient, remainder and FLAGS of DIV and REM (R210): rounded toward zero; a zero divisor gives all ones and the
dividend and sets DZ; MIN divided by -1 sets V, and SAT with .S. V is overwritten, so every other division clears it
(R193, R229; notes/assumptions/20). -/
def divOp (w : Nat) (sg sat : Bool) (f : Byte) (a b : DWord) : DWord × DWord × Byte :=
  let x := srcInt w sg a
  let y := srcInt w sg b
  if y = 0 then (extend w sg (if sg then -1 else maxInt w sg), extend w sg x, setFlag (setFlag f Fl.v false) Fl.dz true)
  else
    let q := x.tdiv y
    let r := x.tmod y
    let v := outside w sg q
    (extend w sg (if sat then clampInt w sg q else q), extend w sg r,
      stick (setFlag f Fl.v v) Fl.sat (sat && v))

/-- Bitwise operations on the low W bits. -/
def bitOp (w : Nat) (sg : Bool) (op : Nat → Nat → Nat) (a b : DWord) : DWord :=
  extend w sg (op (srcNat w a) (srcNat w b) : Nat)

/-- Shifts (R213): the amount is the whole 64-bit value. -/
def shlOp (w : Nat) (sg : Bool) (a b : DWord) : DWord :=
  extend w sg (if b.toNat ≥ w then 0 else (srcNat w a * 2 ^ b.toNat : Nat))

def shrOp (w : Nat) (sg : Bool) (a b : DWord) : DWord :=
  extend w sg (if b.toNat ≥ w then 0 else (srcNat w a / 2 ^ b.toNat : Nat))

def sarOp (w : Nat) (sg : Bool) (a b : DWord) : DWord :=
  extend w sg (srcInt w true a / 2 ^ (min b.toNat w))

def rolOp (w : Nat) (sg : Bool) (a b : DWord) : DWord :=
  let k := b.toNat % w
  extend w sg (srcNat w a * 2 ^ k % 2 ^ w + srcNat w a / 2 ^ (w - k) : Nat)

def rorOp (w : Nat) (sg : Bool) (a b : DWord) : DWord :=
  let k := b.toNat % w
  extend w sg (srcNat w a / 2 ^ k + srcNat w a * 2 ^ (w - k) % 2 ^ w : Nat)

/-- MIN and MAX compared as SG selects. -/
def minOp (w : Nat) (sg : Bool) (a b : DWord) : DWord :=
  extend w sg (if srcInt w sg b < srcInt w sg a then srcInt w sg b else srcInt w sg a)

def maxOp (w : Nat) (sg : Bool) (a b : DWord) : DWord :=
  extend w sg (if srcInt w sg a < srcInt w sg b then srcInt w sg b else srcInt w sg a)

/-- Number of 1 bits among the low n bits. -/
def popCount (v : Nat) : Nat → Nat
  | 0 => 0
  | n + 1 => b2n (v.testBit n) + popCount v n

/-- Leading zero bits of the low n bits. -/
def leadZeros (v : Nat) : Nat → Nat
  | 0 => 0
  | n + 1 => if v.testBit n then 0 else 1 + leadZeros v n

def popcOp (w : Nat) (a : DWord) : DWord := BitVec.ofNat 64 (popCount (srcNat w a) w)
def clzOp (w : Nat) (a : DWord) : DWord := BitVec.ofNat 64 (leadZeros (srcNat w a) w)

/-- Relations of CMP and WAIT.MEM (R230). -/
def relHolds (r : Nat) (x y : Int) : Bool :=
  match r with
  | 0 => decide (x = y)
  | 1 => decide (x ≠ y)
  | 2 => decide (x < y)
  | 3 => decide (x ≤ y)
  | 4 => decide (y < x)
  | 5 => decide (y ≤ x)
  | _ => false

/-- The operation of ATOM (R236): the new word from the old one. -/
def atomOp (op : Nat) (w : Nat) (sg : Bool) (old b cmp : DWord) : DWord :=
  let m := srcNat w
  match op with
  | 0 => BitVec.ofNat 64 (m b)
  | 1 => BitVec.ofNat 64 ((m old + m b) % 2 ^ w)
  | 2 => BitVec.ofNat 64 (m old &&& m b)
  | 3 => BitVec.ofNat 64 (m old ||| m b)
  | 4 => BitVec.ofNat 64 (m old ^^^ m b)
  | 5 => BitVec.ofNat 64 (if srcInt w sg b < srcInt w sg old then m b else m old)
  | 6 => BitVec.ofNat 64 (if srcInt w sg old < srcInt w sg b then m b else m old)
  | _ => BitVec.ofNat 64 (if m old = m cmp then m b else m old)

end Sys2Proof.Machine
end

