-- ==== Sys2Proof/Machine/Numfmt.lean ====
section
/-! DEFINITION. Number formats and conversion (R269 to R288): exact decoding, one rounding into the target, microscaled
blocks, packing and the stochastic generator. Codes of elements are numbers. -/

namespace Sys2Proof.Machine

/-! ## Formats (R269, R270) -/

/-- How a float format encodes infinity and NaN: not at all, as FP64 does, or E4M3's single NaN. -/
inductive NanKind where
  | none | ieee | single
  deriving DecidableEq, Repr

/-- A binary float format: exponent bits, fraction bits, bias, special encodings. -/
structure FFmt where
  ebits : Nat
  fbits : Nat
  bias  : Nat
  kind  : NanKind
  deriving DecidableEq, Repr

/-- Width of an element. -/
def FFmt.width (f : FFmt) : Nat := 1 + f.ebits + f.fbits

/-- Code of the largest finite magnitude. -/
def FFmt.maxCode (f : FFmt) : Nat :=
  match f.kind with
  | .none => 2 ^ (f.ebits + f.fbits) - 1
  | .ieee => (2 ^ f.ebits - 1) * 2 ^ f.fbits - 1
  | .single => 2 ^ (f.ebits + f.fbits) - 2

/-- The kinds of element. -/
inductive Fmt where
  | float (f : FFmt)
  | int (n : Nat)
  | mxFloat (f : FFmt)
  | mxInt
  | lane (n : Nat)
  deriving DecidableEq, Repr

def fp64 : FFmt := ⟨11, 52, 1023, .ieee⟩
def fp32 : FFmt := ⟨8, 23, 127, .ieee⟩
def bf16 : FFmt := ⟨8, 7, 127, .ieee⟩
def fp16 : FFmt := ⟨5, 10, 15, .ieee⟩
def e4m3 : FFmt := ⟨4, 3, 7, .single⟩
def e5m2 : FFmt := ⟨5, 2, 15, .ieee⟩
def e3m2 : FFmt := ⟨3, 2, 3, .none⟩
def e2m3 : FFmt := ⟨2, 3, 1, .none⟩
def e2m1 : FFmt := ⟨2, 1, 1, .none⟩

/-- The format of a code and subtype bit (R269). -/
def fmtOf (code : Nat) (sub : Bool) : Fmt :=
  match code with
  | 0x00 => .float fp64
  | 0x01 => .float fp32
  | 0x02 => .float bf16
  | 0x03 => .float fp16
  | 0x04 => .float e4m3
  | 0x05 => .float e5m2
  | 0x06 => .float e3m2
  | 0x07 => .float e2m3
  | 0x08 => .float e2m1
  | 0x09 => .mxFloat (if sub then e5m2 else e4m3)
  | 0x0A => .mxFloat (if sub then e2m3 else e3m2)
  | 0x0B => .mxFloat e2m1
  | 0x0C => .mxInt
  | 0x0D => .int 32
  | 0x0E => .int 16
  | 0x0F => .int 8
  | 0x10 => .int 4
  | 0x11 => .lane 32
  | _ => .lane 64

/-- Bits of an element. -/
def Fmt.bits : Fmt → Nat
  | .float f => f.width
  | .int n => n
  | .mxFloat f => f.width
  | .mxInt => 8
  | .lane n => n

/-- Whether a format is microscaled. -/
def Fmt.mx : Fmt → Bool
  | .mxFloat _ => true
  | .mxInt => true
  | _ => false

/-- Bytes of an MX block (R274). -/
def Fmt.blockBytes (f : Fmt) : Nat := 1 + 4 * f.bits

/-- Bytes of a span of elements (R242, R274, R275). -/
def Fmt.spanBytes (f : Fmt) (n : Nat) : Nat :=
  if f.mx then (n + 31) / 32 * f.blockBytes else (n * f.bits + 7) / 8

/-! ## Exact values -/

/-- A decoded element: ±m × 2^e, an infinity, or a NaN with its fraction bits. -/
inductive Num where
  | fin (neg : Bool) (m : Nat) (e : Int)
  | inf (neg : Bool)
  | nan (neg signalling : Bool) (frac fbits : Nat)
  deriving DecidableEq, Repr

/-- A float decoded (R270, R271). -/
def FFmt.decode (f : FFmt) (c : Nat) : Num :=
  let neg := c.testBit (f.ebits + f.fbits)
  let ex := fld c (f.ebits + f.fbits - 1) f.fbits
  let fr := c % 2 ^ f.fbits
  let mag := c % 2 ^ (f.ebits + f.fbits)
  if f.kind = .ieee ∧ mag > f.maxCode then
    if fr = 0 then .inf neg else .nan neg (!fr.testBit (f.fbits - 1)) fr f.fbits
  else if f.kind = .single ∧ mag > f.maxCode then .nan neg false fr f.fbits
  else if ex = 0 then .fin neg fr (1 - (f.bias : Int) - f.fbits)
  else .fin neg (2 ^ f.fbits + fr) ((ex : Int) - f.bias - f.fbits)

/-- A two's-complement integer decoded, times 2^e. -/
def decodeInt (n c : Nat) (e : Int) : Num :=
  let v := c % 2 ^ n
  if v ≥ 2 ^ (n - 1) then .fin true (2 ^ n - v) e else .fin false v e

/-- A value times a power of two. -/
def Num.scale (x : Num) (k : Int) : Num :=
  match x with
  | .fin n m e => .fin n m (e + k)
  | y => y

/-- An element decoded with its block's scale byte (R273, R282). -/
def Fmt.decode (f : Fmt) (scale c : Nat) : Num :=
  match f with
  | .float g => g.decode c
  | .int n => decodeInt n c 0
  | .lane n => decodeInt n c 0
  | .mxFloat g => if scale = 255 then .nan false false 0 0 else (g.decode c).scale ((scale : Int) - 127)
  | .mxInt => if scale = 255 then .nan false false 0 0 else decodeInt 8 c ((scale : Int) - 127 - 6)

/-! ## Rounding (R277, R284) -/

/-- Flags that one element raises. -/
structure CvFlags where
  ovf : Bool := false
  unf : Bool := false
  inv : Bool := false
  deriving DecidableEq, Repr

/-- m × 2^e in units of 2^q: the whole part, whether bits are discarded, the first 16 discarded bits, and how the
discarded part compares with one half (0 below, 1 equal, 2 above). -/
def quantize (m : Nat) (e q : Int) : Nat × Bool × Nat × Nat :=
  if q ≤ e then (m * 2 ^ (e - q).toNat, false, 0, 0)
  else
    let d := (q - e).toNat
    let rest := m % 2 ^ d
    let half := if 2 * rest < 2 ^ d then 0 else if 2 * rest = 2 ^ d then 1 else 2
    (m / 2 ^ d, decide (rest ≠ 0), rest * 65536 / 2 ^ d, half)

/-- The rounded magnitude in units of 2^q, and whether it is inexact. `r` is the random value. -/
def roundMag (rnd : Nat) (neg : Bool) (r m : Nat) (e q : Int) : Nat × Bool :=
  let x := quantize m e q
  let k := x.1
  let up := match rnd with
    | 0 => x.2.2.2 = 2 || (x.2.2.2 = 1 && k % 2 = 1)
    | 1 => false
    | 2 => x.2.1 && !neg
    | 3 => x.2.1 && neg
    | _ => x.2.2.1 ≠ 0 && x.2.2.1 + r ≥ 65536
  (if up then k + 1 else k, x.2.1)

/-- The unit in the last place that a float format has for a magnitude. -/
def FFmt.quantum (f : FFmt) (m : Nat) (e : Int) : Int :=
  max ((Nat.log2 m : Int) + e) (1 - (f.bias : Int)) - f.fbits

/-- Code of k × 2^q, k at most 2^(fbits + 1). -/
def FFmt.codeOf (f : FFmt) (k : Nat) (q : Int) : Nat :=
  if k < 2 ^ f.fbits then k
  else if k ≥ 2 ^ (f.fbits + 1) then (q + f.fbits + 1 + f.bias).toNat * 2 ^ f.fbits
  else (q + f.fbits + f.bias).toNat * 2 ^ f.fbits + (k - 2 ^ f.fbits)

/-- A sign bit of a code. -/
def signBit (neg : Bool) (w : Nat) : Nat := if neg then 2 ^ (w - 1) else 0

/-- Whether an overflow of a format with infinities gives an infinity (R279). -/
def ovfInf (rnd : Nat) (neg : Bool) : Bool :=
  match rnd with
  | 0 => true
  | 2 => !neg
  | 3 => neg
  | _ => false

/-- A NaN written to a format with NaNs (R271). -/
def FFmt.nanCode (f : FFmt) (neg : Bool) (frac fb : Nat) : Nat :=
  let s := signBit neg f.width
  match f.kind with
  | .single => s + 0x7F
  | _ =>
    if f = e5m2 then s + 0x7E
    else
      let fr := if fb ≥ f.fbits then frac / 2 ^ (fb - f.fbits) else frac * 2 ^ (f.fbits - fb)
      s + (2 ^ f.ebits - 1) * 2 ^ f.fbits + (fr ||| 2 ^ (f.fbits - 1))

/-- A value rounded into a float format (R277 to R280). -/
def FFmt.encode (f : FFmt) (rnd : Nat) (nanm : Bool) (r : Nat) (x : Num) : Nat × CvFlags :=
  let w := f.width
  match x with
  | .nan neg sig frac fb =>
    if f.kind = .none then (signBit neg w, { inv := true })
    else (f.nanCode neg frac fb, { inv := sig })
  | .inf neg =>
    match f.kind with
    | .ieee => (signBit neg w + (f.maxCode + 1), {})
    | .single => (signBit neg w + (if nanm then 0x7F else f.maxCode), { ovf := true })
    | .none => (signBit neg w + f.maxCode, { ovf := true })
  | .fin neg m e =>
    if m = 0 then (signBit neg w, {})
    else
      let q := f.quantum m e
      let k := roundMag rnd neg r m e q
      let c := f.codeOf k.1 q
      if c > f.maxCode then
        (signBit neg w + (if f.kind = .ieee ∧ ovfInf rnd neg then f.maxCode + 1 else f.maxCode), { ovf := true })
      else (signBit neg w + c, { unf := decide (c < 2 ^ f.fbits) && k.2 })

/-- A value rounded into an n-bit integer format (R277 to R280). -/
def encodeInt (n rnd r : Nat) (x : Num) : Nat × CvFlags :=
  let lo := 2 ^ (n - 1)
  match x with
  | .nan _ _ _ _ => (0, { inv := true })
  | .inf neg => (if neg then lo else lo - 1, { ovf := true })
  | .fin neg m e =>
    let k := (roundMag rnd neg r m e 0).1
    if neg then
      if k > lo then (lo, { ovf := true }) else ((2 ^ n - k) % 2 ^ n, {})
    else if k ≥ lo then (lo - 1, { ovf := true })
    else (k, {})

/-- Whether a stochastic rounding of a value into a format draws a random value (R284): its first 16 discarded bits
are not 0. -/
def drawsIn (q : Int) (m : Nat) (e : Int) : Bool := (quantize m e q).2.2.1 ≠ 0

def Fmt.draws (f : Fmt) (x : Num) : Bool :=
  match f, x with
  | .float g, .fin _ m e => decide (m ≠ 0) && drawsIn (g.quantum m e) m e
  | .int _, .fin _ m e => drawsIn 0 m e
  | _, _ => false

/-- A value rounded into an element that is not microscaled. -/
def Fmt.encode (f : Fmt) (rnd : Nat) (nanm : Bool) (r : Nat) (x : Num) : Nat × CvFlags :=
  match f with
  | .float g => g.encode rnd nanm r x
  | .int n => encodeInt n rnd r x
  | _ => (0, {})

/-! ## The generator (R285) -/

/-- `fmix`. -/
def fmix (z0 : Nat) : Nat :=
  let z1 := z0 % 2 ^ 64
  let z2 := (z1 ^^^ (z1 >>> 33)) * 0xFF51AFD7ED558CCD % 2 ^ 64
  let z3 := (z2 ^^^ (z2 >>> 33)) * 0xC4CEB9FE1A85EC53 % 2 ^ 64
  z3 ^^^ (z3 >>> 33)

/-- The key of an instruction's random values. -/
def srndKey (seed : Nat) (c : CtxId) (q : QIdx) (seq : Word) : Nat :=
  fmix ((seed * 2 ^ 49) ^^^ (c.toNat * 2 ^ 35) ^^^ (q.toNat * 2 ^ 32) ^^^ seq.toNat)

/-- A source of random values: the key of keyed mode, or the model's free-value counter in free-running mode. -/
structure Rng where
  key  : Option Nat
  free : Nat
  deriving DecidableEq, Repr

/-- The value for an element, and the source after it; drawn only where it is used (R284). -/
def Rng.next (g : Rng) (elem : Nat) (use : Bool) : Nat × Rng :=
  if !use then (0, g)
  else match g.key with
    | some k => (fmix (k ^^^ elem) % 65536, g)
    | none => ((Config.freeWord g.free).toNat % 65536, { g with free := g.free + 1 })

/-! ## Packing (R275) and streams -/

/-- Element i of packed bytes. -/
def getElem' (w i : Nat) (bs : List Byte) : Nat :=
  let lo := w * i
  let n := (w * (i + 1) + 7) / 8 - lo / 8
  leVal ((bs.drop (lo / 8)).take n) / 2 ^ (lo % 8) % 2 ^ w

/-- Packed bytes of elements, the last byte padded with zeros. -/
def packElems (w : Nat) (es : List Nat) : List Byte :=
  let v := (es.zipIdx.map (fun p => p.1 % 2 ^ w * 2 ^ (w * p.2))).sum
  leBytes ((w * es.length + 7) / 8) v

/-- Whether one of n bytes from an offset is poisoned. -/
def anyPoison (ps : List Bool) (off n : Nat) : Bool := ((ps.drop off).take n).any id

/-- Element i of a source span: its value and whether its bytes are poisoned (R282, R288). -/
def Fmt.fetch (f : Fmt) (src : List Byte) (ps : List Bool) (i : Nat) : Num × Bool :=
  let w := f.bits
  if f.mx then
    let b := i / 32 * f.blockBytes
    let j := i % 32
    let off := b + 1 + w * j / 8
    let n := (w * (j + 1) + 7) / 8 - w * j / 8
    (f.decode ((src.getD b 0).toNat) (getElem' w j (src.drop (b + 1))), anyPoison ps b 1 || anyPoison ps off n)
  else
    let off := w * i / 8
    let n := (w * (i + 1) + 7) / 8 - off
    (f.decode 0 (getElem' w i src), anyPoison ps off n)

/-- Raw code of element i of a source that is not microscaled, for a copy between equal formats (R276). -/
def Fmt.raw (f : Fmt) (src : List Byte) (i : Nat) : Nat := getElem' f.bits i src

/-- The conversion field of MOVE, CONVERT and CVT (R232). -/
structure Cv where
  src  : Fmt
  dst  : Fmt
  same : Bool
  rnd  : Nat
  nanm : Bool
  deriving DecidableEq, Repr

/-- The field IMM2[55:40]. -/
def cvOf (x : Nat) : Cv :=
  { src := fmtOf (fld x 4 0) (x.testBit 5)
    dst := fmtOf (fld x 10 6) (x.testBit 11)
    same := decide (fld x 4 0 = fld x 10 6) && (x.testBit 5 == x.testBit 11)
    rnd := fld x 14 12
    nanm := x.testBit 15 }

/-- What a part of a stream becomes: its bytes, which of them are poisoned, how many elements raised each flag, and the
random source afterwards. -/
structure CvOut where
  bytes  : List Byte := []
  poison : List Bool := []
  ovf    : Nat := 0
  unf    : Nat := 0
  inv    : Nat := 0
  rng    : Rng
  deriving DecidableEq, Repr

/-- Counts of flags. -/
def countFlags (fs : List CvFlags) : Nat × Nat × Nat :=
  ((fs.filter CvFlags.ovf).length, (fs.filter CvFlags.unf).length, (fs.filter CvFlags.inv).length)

/-- Elements converted one by one: codes, flags and poison of each. -/
def convElems (cv : Cv) (src : List Byte) (ps : List Bool) (e0 : Nat) :
    Nat → Nat → Rng → List (Nat × CvFlags × Bool) × Rng
  | 0, _, g => ([], g)
  | n + 1, i, g =>
    let x := cv.src.fetch src ps i
    if x.2 then
      let rest := convElems cv src ps e0 n (i + 1) g
      ((0, {}, true) :: rest.1, rest.2)
    else if cv.same then
      let rest := convElems cv src ps e0 n (i + 1) g
      ((cv.src.raw src i, {}, false) :: rest.1, rest.2)
    else
      let r := g.next (e0 + i) (cv.rnd = 4 && cv.dst.draws x.1)
      let y := cv.dst.encode cv.rnd cv.nanm r.1 x.1
      let rest := convElems cv src ps e0 n (i + 1) r.2
      ((y.1, y.2, false) :: rest.1, rest.2)

/-- Poison of packed bytes: a byte that holds a bit of a poisoned element. -/
def packPoison (w : Nat) (ps : List Bool) : List Bool :=
  (rangeFrom 0 ((w * ps.length + 7) / 8)).map (fun b =>
    ps.zipIdx.any (fun p => p.1 && decide (w * p.2 / 8 ≤ b) && decide (b ≤ (w * (p.2 + 1) - 1) / 8)))

/-! ## MX blocks (R281) -/

/-- floor(log2 |v|) of a finite value that is not 0. -/
def numLog (m : Nat) (e : Int) : Int := (Nat.log2 m : Int) + e

/-- emax of an MX element format. -/
def mxEmax : Fmt → Int
  | .mxFloat g => if g = e4m3 then 8 else if g = e5m2 then 15 else if g = e3m2 then 4 else 2
  | _ => 0

/-- The greatest exponent among finite values that are not 0. -/
def mxTop : List Num → Option Int
  | [] => none
  | .fin _ m e :: xs =>
    if m = 0 then mxTop xs
    else match mxTop xs with
      | none => some (numLog m e)
      | some t => some (max t (numLog m e))
  | _ :: xs => mxTop xs

/-- A scaled element rounded and saturated: its code, its flags, and whether it draws. -/
def mxElem (f : Fmt) (rnd r : Nat) (clamped neg : Bool) (m : Nat) (e : Int) : Nat × CvFlags :=
  match f with
  | .mxFloat g =>
    let w := g.width
    if m = 0 then (signBit neg w, {})
    else
      let q := g.quantum m e
      let k := roundMag rnd neg r m e q
      let c := g.codeOf k.1 q
      if c > g.maxCode then (signBit neg w + g.maxCode, { ovf := clamped })
      else (signBit neg w + c, { unf := decide (c < 2 ^ g.fbits) && k.2 })
  | _ =>
    let k := roundMag rnd neg r m e (-6)
    let v := min k.1 127
    ((if neg then (256 - v) % 256 else v), { ovf := clamped && decide (k.1 > 127), unf := decide (k.1 = 0) && k.2 })

/-- Whether a scaled MX element draws a random value. -/
def mxDraws (f : Fmt) (m : Nat) (e : Int) : Bool :=
  match f with
  | .mxFloat g => decide (m ≠ 0) && drawsIn (g.quantum m e) m e
  | _ => drawsIn (-6) m e

/-- Code of the largest magnitude of an MX element, with a sign. -/
def mxLargest (f : Fmt) (neg : Bool) : Nat :=
  match f with
  | .mxFloat g => signBit neg g.width + g.maxCode
  | _ => if neg then 129 else 127

/-- The elements of a block under a scale. -/
def mxElems (f : Fmt) (rnd : Nat) (clamped : Bool) (x : Int) : List Num → Nat → Rng → List (Nat × CvFlags) × Rng
  | [], _, g => ([], g)
  | v :: vs, elem, g =>
    match v with
    | .fin neg m e =>
      let r := g.next elem (rnd = 4 && mxDraws f m (e - x))
      let rest := mxElems f rnd clamped x vs (elem + 1) r.2
      (mxElem f rnd r.1 clamped neg m (e - x) :: rest.1, rest.2)
    | .inf neg =>
      let rest := mxElems f rnd clamped x vs (elem + 1) g
      ((mxLargest f neg, { ovf := true }) :: rest.1, rest.2)
    | .nan _ _ _ _ =>
      let rest := mxElems f rnd clamped x vs (elem + 1) g
      ((0, {}) :: rest.1, rest.2)

def Num.isNan : Num → Bool
  | .nan _ _ _ _ => true
  | _ => false
def Num.isInf : Num → Bool
  | .inf _ => true
  | _ => false

/-- `mx_encode` of R281: scale byte, element codes of the counted elements, flags. -/
def mxEncode (f : Fmt) (rnd : Nat) (nanm : Bool) (vs : List Num) (elem : Nat) (g : Rng) :
    Nat × List (Nat × CvFlags) × Rng :=
  if vs.any Num.isNan then (255, vs.map (fun v => (0, { inv := v.isNan })), g)
  else if nanm && vs.any Num.isInf then (255, vs.map (fun v => (0, { ovf := v.isInf })), g)
  else
    let x0 : Int := match mxTop vs with
      | none => 0
      | some t => t - mxEmax f
    let x := max (-127) (min 127 x0)
    let es := mxElems f rnd (decide (x0 > 127)) x vs elem g
    ((x + 127).toNat, es.1, es.2)

/-- Source element values and their poison. -/
def fetchAll (f : Fmt) (src : List Byte) (ps : List Bool) (i n : Nat) : List (Num × Bool) :=
  (rangeFrom i n).map (fun k => f.fetch src ps k)

/-- Whole MX blocks formed from a span of n source elements. -/
def convBlocks (cv : Cv) (src : List Byte) (ps : List Bool) (e0 : Nat) : Nat → Nat → Nat → Rng → CvOut
  | 0, _, _, g => { rng := g }
  | fuel + 1, i, n, g =>
    if n = 0 then { rng := g }
    else
      let k := min n 32
      let vs := fetchAll cv.src src ps i k
      let bad := vs.any Prod.snd
      let size := cv.dst.blockBytes
      let blk : Nat × List (Nat × CvFlags) × Rng :=
        if bad then (0, List.replicate k (0, {}), g) else mxEncode cv.dst cv.rnd cv.nanm (vs.map Prod.fst) (e0 + i) g
      let codes := blk.2.1.map Prod.fst ++ List.replicate (32 - k) 0
      let raw : List Byte :=
        if cv.same && !bad then
          -- equal formats copy every encoding; padding elements of the last block are 0 (R242, R276)
          let b := i / 32 * size
          let es := (rangeFrom 0 k).map (fun j => getElem' cv.dst.bits j (src.drop (b + 1)))
          src.getD b 0 :: packElems cv.dst.bits (es ++ List.replicate (32 - k) 0)
        else BitVec.ofNat 8 blk.1 :: packElems cv.dst.bits codes
      let g1 := if cv.same then g else blk.2.2
      let fl := if cv.same then (0, 0, 0) else countFlags (blk.2.1.map Prod.snd)
      let rest := convBlocks cv src ps e0 fuel (i + k) (n - k) g1
      { bytes := raw ++ rest.bytes
        poison := List.replicate size bad ++ rest.poison
        ovf := fl.1 + rest.ovf, unf := fl.2.1 + rest.unf, inv := fl.2.2 + rest.inv, rng := rest.rng }

/-- Elements of a span of `n` counted ones: whole 32-element blocks when either format is MX (R242). -/
def Cv.padded (cv : Cv) (n : Nat) : Nat := if cv.src.mx || cv.dst.mx then (n + 31) / 32 * 32 else n

/-- Bytes of the source and of the destination of `n` counted elements (R242). -/
def Cv.srcBytes (cv : Cv) (n : Nat) : Nat := cv.src.spanBytes (cv.padded n)
def Cv.dstBytes (cv : Cv) (n : Nat) : Nat := cv.dst.spanBytes (cv.padded n)

/-- A part of a stream converted: `n` elements whose first one has index `e0` in the instruction; padding elements of the
destination are 0. A part of an MX source or target begins at a block. -/
def convert (cv : Cv) (src : List Byte) (ps : List Bool) (e0 n : Nat) (g : Rng) : CvOut :=
  if cv.dst.mx then convBlocks cv src ps e0 (n / 32 + 1) 0 n g
  else
    let es := convElems cv src ps e0 n 0 g
    let c := countFlags (es.1.map (fun x => x.2.1))
    let pad := cv.padded n - n
    { bytes := packElems cv.dst.bits (es.1.map Prod.fst ++ List.replicate pad 0)
      poison := packPoison cv.dst.bits (es.1.map (fun x => x.2.2) ++ List.replicate pad false)
      ovf := c.1, unf := c.2.1, inv := c.2.2, rng := es.2 }

/-- One scalar converted by CVT (R232, R233): the code of the low bits of a register, and the flags. -/
def cvtScalar (cv : Cv) (v r : Nat) : Nat × CvFlags :=
  if cv.same then (v % 2 ^ cv.src.bits, {}) else cv.dst.encode cv.rnd cv.nanm r (cv.src.decode 0 (v % 2 ^ cv.src.bits))

end Sys2Proof.Machine
end

