-- ==== Sys2Proof/Machine/AggMath.lean ====
section
/-! DEFINITION. The arithmetic of aggregation rounds (R298 to R305, R311): quantization, pair masks, the blind, the
masked words of a stripe, and the released elements. -/

namespace Sys2Proof.Machine

/-- What the lanes of a party need of a round (R299, R300, R303). -/
structure AggPar where
  mode    : Bool
  p       : Nat
  deg     : Nat
  scale   : Int
  n       : Nat
  lstripe : Nat
  secret  : BitVec 256
  deriving DecidableEq, Repr

/-- W of a mode. -/
def aggW (mode : Bool) : Nat := if mode then 64 else 32

/-- The bound of a quantized element (R299). -/
def aggBound (mode : Bool) (p : Nat) : Nat := (2 ^ (aggW mode - 1) - 1) / p

/-- Elements of stripe k (R298). -/
def stripeLen (n lstripe k : Nat) : Nat := min (2 ^ lstripe) (n - k * 2 ^ lstripe)

/-- One element quantized (R299): the integer, whether it was clamped, whether it was a NaN. `r` is the random value. -/
def quantElem (mode : Bool) (p rnd r : Nat) (scale : Int) (x : Num) : Int × Bool × Bool :=
  let bnd := aggBound mode p
  let signed (neg : Bool) (k : Nat) : Int := if neg then -(k : Int) else k
  match x with
  | .nan _ _ _ _ => (0, false, true)
  | .inf neg => (signed neg bnd, true, false)
  | .fin neg m e =>
    let k := (roundMag rnd neg r m (e - scale) 0).1
    if k > bnd then (signed neg bnd, true, false) else (signed neg k, false, false)

/-- Whether rounding an element to an integer draws a random value. -/
def quantDraws (scale : Int) : Num → Bool
  | .fin _ m e => drawsIn 0 m (e - scale)
  | _ => false

/-- Word e of a generator under a key (R305): the block is read as little-endian words. -/
def maskWord (mode : Bool) (key : BitVec 256) (e : Nat) : Nat :=
  let w := aggW mode
  let per := 128 / w
  (aes256 key (BitVec.ofNat 128 (e / per))).toNat / 2 ^ (w * (e % per)) % 2 ^ w

/-- Pair keys and the blind's key (R527). -/
def pairKey (secret : BitVec 256) (i j : Nat) : BitVec 256 := kdf256 (beBytes 32 secret.toNat) "ZHT1-PAIR" (beBytes 2 (i * 256 + j))
def blindKey (secret : BitVec 256) : BitVec 256 := kdf256 (beBytes 32 secret.toNat) "ZHT1-BLIND" []

/-- Partners of a party (R304). -/
def partners (p deg i : Nat) : List Nat :=
  (rangeFrom 1 deg).map (fun k => (i + k) % p) ++ (rangeFrom 1 deg).map (fun k => (i + p - k) % p)

/-- The mask word of a pair of indices, lower index first. -/
def pairWord (mode : Bool) (secret : BitVec 256) (i j e : Nat) : Nat :=
  maskWord mode (pairKey secret (min i j) (max i j)) e

/-- M_i[e] (R305). -/
def AggPar.mask (a : AggPar) (i e : Nat) : Int :=
  ((partners a.p a.deg i).map (fun j =>
    let m : Int := pairWord a.mode a.secret i j e
    if j > i then m else -m)).sum

/-- The blind of an element. -/
def blindWord (mode : Bool) (secret : BitVec 256) (e : Nat) : Nat := maskWord mode (blindKey secret) e

/-- The words of a stripe, with the counts of clamped and NaN elements, and the random source afterwards (R299, R300):
`e0` is the index of the first element in the instruction, `r0` in the round. -/
def AggPar.stripe (a : AggPar) (party : Nat) (f : Fmt) (rnd : Nat) (src : List Byte) (e0 r0 : Nat) :
    Nat → Nat → Rng → List DWord × Nat × Nat × Rng
  | 0, _, g => ([], 0, 0, g)
  | n + 1, i, g =>
    let x := (f.fetch src [] i).1
    let r := g.next (e0 + i) (rnd = 4 && quantDraws a.scale x)
    let q := quantElem a.mode a.p rnd r.1 a.scale x
    let w := ((q.1 + a.mask party (r0 + i)) % (2 ^ aggW a.mode : Int)).toNat
    let rest := AggPar.stripe a party f rnd src e0 r0 n (i + 1) r.2
    (BitVec.ofNat 64 w :: rest.1, b2n q.2.1 + rest.2.1, b2n q.2.2 + rest.2.2.1, rest.2.2.2)

/-- Words as accumulator bytes, and back. -/
def wordBytes (mode : Bool) (ws : List DWord) : List Byte := (ws.map (fun w => leBytes (aggW mode / 8) w.toNat)).flatten

def bytesWords (mode : Bool) : Nat → List Byte → List Nat
  | 0, _ => []
  | n + 1, bs => leVal (bs.take (aggW mode / 8)) :: bytesWords mode n (bs.drop (aggW mode / 8))

/-- The round of an AGG instruction as the lanes know it. -/
def Round.par (r : Round) : AggPar :=
  { mode := r.mode, p := r.parties.length, deg := r.deg, scale := r.scale, n := r.n, lstripe := r.lstripe, secret := r.key }

def Joined.par (j : Joined) : AggPar :=
  { mode := j.mode, p := j.p, deg := j.deg, scale := j.scale, n := j.n, lstripe := j.lstripe, secret := j.secret }

/-- A round of this HTU by its handle (R292): its slot is open and of the handle's generation. -/
def State.roundOf (s : State) (h : Word) : Option (Nat × Round) :=
  let slot := fld h.toNat 3 0
  if fld h.toNat 31 16 ≠ s.ownPkg.toNat ∨ fld h.toNat 15 4 ≠ ((s.map.gens.look slot).getD 0).toNat then none
  else (s.map.rounds.look slot).map (fun r => (slot, r))

/-- The parameters of a CONTRIB's round. -/
def State.aggPar (s : State) (a : AggTo) : Option AggPar :=
  if a.home then (s.roundOf a.handle).map (fun x => x.2.par)
  else (s.map.joined.find? (fun j => j.handle == a.handle && j.party == a.party && !j.dropped)).map Joined.par

end Sys2Proof.Machine
end

