-- ==== Sys2Proof/Machine/Icu.lean ====
section
/-! DEFINITION. Interrupt sources (R504, R505, R568): raising a pulse source, the cause of a level source, and the level
sources that FLC drives. -/

namespace Sys2Proof.Machine

/-- Number of sources. -/
def icuSources : Nat := 1024

/-- Whether a source is assigned (R504, R568). -/
def icuAssigned (n : Nat) : Bool := n < 47 || (64 ≤ n && n < icuSources)

/-- Whether a source is of pulse kind (R504). -/
def icuPulseKind (n : Nat) : Bool := n < 32 || (64 ≤ n && n < 80) || (128 ≤ n && n < icuSources)

/-- Whether a source is active on some core. -/
def Icu.isActive (x : Icu) (n : Nat) : Bool := x.cores.any (fun c => c.active.contains n)

/-- A level source's cause appears or goes (R505): it is pending while its cause is present and it is not active. -/
def Icu.level (x : Icu) (n : Nat) (on : Bool) : Icu :=
  if on then
    { x with
      causes := addTo x.causes n
      pend := if x.isActive n then x.pend else addTo x.pend n }
  else { x with causes := dropFrom x.causes n, pend := dropFrom x.pend n }

/-- A pulse source is raised (R505): raising a pending source changes nothing. -/
def State.icuPulse (s : State) (n : Nat) : State :=
  if icuPulseKind n then { s with icu := { s.icu with pend := addTo s.icu.pend n } } else s

/-- The level sources that FLC drives, with whether their cause is present (R568). -/
def State.flcSources (s : State) : List (Nat × Bool) :=
  let u := s.flc.unclr
  [ (32, u.any (fun x => x.2.1 == 0)), (33, u.any (fun x => x.2.1 == 1)),
    (34, u.any (fun x => x.2.1 == 2)), (35, u.any (fun x => x.2.1 == 3)),
    (36, u.any (fun x => x.2.2)),
    (37, decide ((s.flc.prod - s.flc.cons).toNat > s.ce .flcCtrl 19 8 * 256)),
    (38, s.flc.lastgasp), (39, s.flc.spillStop),
    (40, s.regionFrozen 0), (41, s.regionFrozen 1), (42, s.regionFrozen 2), (43, s.regionFrozen 3),
    (44, !s.flc.blocks.isEmpty),
    (45, u.any (fun x => x.1 == Src.rcTakeover.toNat)), (46, u.any (fun x => x.1 == Src.rcStandbyLost.toNat)) ]

/-- Priority of a source (R519). -/
def State.icuPrio (s : State) (src : Nat) : Nat := s.rf .icuSrcCfg 23 16 [src]

/-- RPR of a core (R506): the most urgent priority among its active sources, or 256. -/
def State.corePrio (s : State) (c : Core) : Nat := c.active.foldl (fun m x => min m (s.icuPrio x)) 256

/-- CUR of a core (R506). -/
def State.coreCur (s : State) (c : Core) : Nat := min c.tpr (min (s.corePrio c) c.mth)

/-- Active sources that a core can hold. -/
def activeMax : Nat := 16

/-- Whether a core is eligible for a source (R506). -/
def State.eligible (s : State) (src n : Nat) : Bool :=
  let c := s.core n
  (if src < 16 then n == src else (s.rf .icuSrcCfg 15 0 [src]).testBit n) &&
  s.rf .icuCoreCtrl 0 0 [n] == 1 && s.islandOn (54 + n) && !s.regionFrozen (coreRegion n) &&
  decide (s.icuPrio src < s.coreCur c) && decide (c.active.length < activeMax)

/-- The sixteen cores. -/
def allCores : List Nat := rangeFrom 0 16

/-- Pending sources that may be offered. -/
def State.icuReady (s : State) : List Nat := s.icu.pend.filter (fun n => s.rf .icuSrcCfg 31 31 [n] == 1)

/-- Since when each source that may be offered has had no eligible core (R511). -/
def State.icuWaits (s : State) : Map (DWord × Bool) :=
  (s.icuReady.filter (fun n => !allCores.any (fun c => s.eligible n c))).foldl
    (fun m n => m.put n ((s.icu.noTarget.look n).getD (s.now, false))) []

/-- The level sources of FLC follow their causes, and sources without an eligible core are known. -/
def State.icuFollow (s : State) : State :=
  let t : State := { s with icu := s.flcSources.foldl (fun x e => x.level e.1 e.2) s.icu }
  { t with icu := { t.icu with noTarget := t.icuWaits } }

end Sys2Proof.Machine
end

