-- ==== Sys2Proof/Machine/Queue.lean ====
section
/-! DEFINITION. Event words, completion queues and records, the first pending event of a queue, breaking a queue, and
the removal of a context from its slot (R18, R28, R145, R161, R172, R173, R217, R218, R340, R341). -/

namespace Sys2Proof.Machine

/-! ## Rings (R11, R158) -/

/-- SMS address of byte `off` of a range held as 4 KiB pages. -/
def pageAddr (pages : List Nat) (off : Nat) : Option Nat := (pages[off / 4096]?).map (fun p => p + off % 4096)

/-- SMS address of the ring word of a word count. -/
def Queue.wordAddr (q : Queue) (n : Word) : Option Nat := pageAddr q.ring (n.toNat % 2 ^ q.lsize * 32)

/-- A ring word as it stands, without a checked access: zeros where the line is poisoned or of another tag. -/
def State.peekWord (s : State) (c : CtxId) (q : Queue) (n : Word) : Nat :=
  match q.wordAddr n with
  | none => 0
  | some a =>
    let m := s.line a
    if m.poison || !m.owned || m.tag ≠ c then 0 else leVal (s.mem.bytes.readN a 32)

/-- Words that the search for a SIGNAL passes for one instruction: an XC of 7 is a reserved encoding, whose word stands alone. -/
def scanWords (w : Nat) : Nat := if J.xc w = 7 then 1 else J.words w

/-- SIGNALs found in ring words from a word count, with their events and sequence numbers (R28). The event of a SIGNAL
that takes it from a register is the one that the register holds now. -/
def State.scanSignals (s : State) (c : CtxId) (q : Queue) (limit : Nat) : Nat → Word → Nat → List (Nat × Word)
  | 0, _, _ => []
  | fuel + 1, n, left =>
    if left = 0 then []
    else
      let w := s.peekWord c q n
      let k := scanWords w
      let e := if (J.md w).testBit 0 then fld (q.gr (J.rc w)).toNat 15 0 else fld (J.imm2 w) 15 0
      let rest := State.scanSignals s c q limit fuel (n + BitVec.ofNat 32 k) (left - k)
      if J.opc w = 0x61 ∧ e < limit then (e, n) :: rest else rest

/-- Words between HEAD and TAIL. -/
def Queue.ahead (q : Queue) : Nat := (q.tail - q.head).toNat

/-! ## Event words (R172) -/

/-- SMS address of an event word. -/
def Ctx.evAddr (x : Ctx) (e : Nat) : Option Nat := pageAddr x.evPages (x.evdva.toNat % 4096 + 8 * e)

/-- Fields of an event word. -/
def Ev.state (w : Nat) : Nat := fld w 1 0
def Ev.late (w : Nat) : Bool := w.testBit 2
def Ev.code (w : Nat) : Nat := fld w 15 8
def Ev.value (w : Nat) : Nat := fld w 63 32

/-- An event word. -/
def Ev.mk (value : Nat) (q : QIdx) (code : Nat) (late : Bool) (st : Nat) : Nat :=
  value * 2 ^ 32 + q.toNat * 2 ^ 16 + code * 2 ^ 8 + b2n late * 4 + st

/-- A waiting instruction at HEAD of a queue retires with a value (R168, R255): HEAD passes it. -/
def State.retireWait (s : State) (c : CtxId) (q : QIdx) (rd : BitVec 5) (v : DWord) : State :=
  s.updQ c q (fun r =>
    { (r.setG rd.toNat v) with head := r.head + BitVec.ofNat 32 r.wlen, wait := none, rwait := false, wlen := 1 })

/-- Whether an event word ends a WAIT.EV (R251): SIGNALED with VALUE at or above the threshold, or ERRORED. -/
def evEnds (w : Nat) (thr : Word) : Bool := (decide (Ev.state w = 1) && decide (thr.toNat ≤ Ev.value w)) || decide (Ev.state w = 2)

/-- Whether a context is resident and its restore has ended. -/
def State.resident (s : State) (c : CtxId) : Bool :=
  match s.ctx? c with
  | some x => x.slot.isSome && !x.restoring
  | none => false

/-- Queues of a context that wait on an event retire with its word where it ends their wait (R251). -/
def State.evWake (s : State) (c : CtxId) (e w : Nat) : State :=
  if !s.resident c then s
  else forAll allQ s (fun t q =>
    match (t.queue c q).wait with
    | some (.event k thr rd _) => if k = e ∧ evEnds w thr then t.retireWait c q rd (BitVec.ofNat 64 w) else t
    | _ => t)

/-- An event word read, and the state after the read. -/
def State.evRead (s : State) (c : CtxId) (e : Nat) : Nat × State :=
  match (s.ctx? c).bind (fun x => x.evAddr e) with
  | some a => let r := s.smsRead a 8 (some c) (s.threadOf c); (leVal r.1, r.2.2)
  | none => (0, s)

/-- An event word written by the HTU; queues that wait on it look at it. -/
def State.evWrite (s : State) (c : CtxId) (e w : Nat) : State :=
  match (s.ctx? c).bind (fun x => x.evAddr e) with
  | some a => (s.smsWrite a (leBytes 8 w) (some c) false).evWake c e w
  | none => s

/-! ## Completion queues (R140, R173) -/

/-- Bytes 0x00 to 0x1F of a record, written at a time. -/
def CqRec.bytes (r : CqRec) (time : DWord) : List Byte :=
  leBytes 4 (r.event.toNat + r.st.toNat * 2 ^ 16 + b2n r.late * 2 ^ 18 + b2n r.kind * 2 ^ 19 + r.code.toNat * 2 ^ 24)
  ++ leBytes 4 r.queue.toNat ++ leBytes 4 r.seq.toNat ++ leBytes 4 r.value.toNat ++ leBytes 8 time.toNat
  ++ leBytes 4 r.lateness.toNat ++ leBytes 4 0

/-- Whether records of a context go to its host completion queue (R173). -/
def Ctx.hostCq (x : Ctx) : Bool := x.cqen && !x.orph

/-- A page of a completion queue as a translation: class, index, byte offset. -/
def Ctx.cqPage (x : Ctx) (host : Bool) (off : Nat) : Option (Byte × BitVec 24 × Nat) :=
  let o := (if host then x.cqdva else x.dcqdva).toNat % 4096 + off
  if host then (x.cqPages[o / 4096]?).map (fun p => (p.1, p.2.1, p.2.2 + o % 4096))
  else (pageAddr x.dcqPages o).map (fun a => (1, 0, a - stagingBase))

/-- Host address of a PRA of a host class (R46). -/
def hostAddr (cls : Byte) (idx : BitVec 24) (off : Nat) : DWord :=
  if cls = 4 then BitVec.ofNat 64 (fld idx.toNat 15 0 * 2 ^ 48 + off) else BitVec.ofNat 64 off

/-- Whether a class is reached through a host port. -/
def isHostCls (cls : Byte) : Bool := cls = 4 || cls = 5 || cls = 8

/-- A record or index of a context written to where its queue lies. -/
def State.cqPut (s : State) (c : CtxId) (f : FnId) (q : Option QIdx) (p : Byte × BitVec 24 × Nat) (bs : List Byte)
    (index : Bool) : State :=
  if p.1 = 1 then s.smsWrite (stagingBase + p.2.2) bs (some c) false
  else if p.1 = 2 then s.smsWrite (tierBase + p.2.2) bs (some c) false
  else if p.1 = 3 then s.hbmWrite p.2.1 p.2.2 c ((s.lapOf c true).toNat.testBit 0) bs
  else if p.1 = 0x0A then s.tileWrite p.2.1 p.2.2 bs
  else if isHostCls p.1 then
    s.hostPush f (if index then .index f (hostAddr p.1 p.2.1 p.2.2) (BitVec.ofNat 32 (leVal bs))
                  else .record f (some c) q (hostAddr p.1 p.2.1 p.2.2) bs)
  else s.emit (.extWrite p.1 p.2.1 (BitVec.ofNat 64 p.2.2) bs)

/-- log2 of the record count of a context's completion queue. -/
def Ctx.cqLog (x : Ctx) (host : Bool) : Nat := if host then x.lcq else x.ldcq

/-- The consumer index as the HTU reads it: from SMS where the header lies there, else the value last read. -/
def State.cqCons (s : State) (c : CtxId) (x : Ctx) (host : Bool) : Nat :=
  match x.cqPage host 0 with
  | some (cls, _, off) =>
    if cls = 1 then
      let m := s.line (stagingBase + off)
      if m.poison || !m.owned || m.tag ≠ c then 0 else leVal (s.mem.bytes.readN (stagingBase + off + 4) 4)
    else (if host then x.cqCons else x.dcqCons).toNat
  | none => 0

/-- Producer index of a context's completion queue. -/
def Ctx.cqProdOf (x : Ctx) (host : Bool) : Nat := (if host then x.cqProd else x.dcqProd).toNat

/-- Whether a record can be written to the completion queue in force now: the queue is not full (R140) and, toward a
frozen or held port, the hold has room for the record, its index write and the vector (R424). -/
def State.cqSpace (s : State) (c : CtxId) : Bool :=
  match s.ctx? c with
  | none => false
  | some x =>
    let host := x.hostCq
    let n := 2 ^ x.cqLog host
    decide ((x.cqProdOf host + 1) % n ≠ s.cqCons c x host % n) && (!host || s.hostRoom x.func 3)

/-- A record written to the completion queue in force: record, producer index, vector (R173). -/
def State.cqWrite (s : State) (c : CtxId) (r : CqRec) : State :=
  match s.ctx? c with
  | none => s
  | some x =>
    let host := x.hostCq
    let n := 2 ^ x.cqLog host
    let i := x.cqProdOf host
    let i' := (i + 1) % n
    let q := if r.kind then none else some r.queue
    match x.cqPage host (64 + 32 * (i % n)), x.cqPage host 0 with
    | some p, some h =>
      let s1 := s.cqPut c x.func q p (r.bytes s.now) false
      let s2 := s1.cqPut c x.func q h (leBytes 4 i') true
      let s3 := s2.updCtx c (fun y =>
        if host then { y with cqProd := BitVec.ofNat 32 i' } else { y with dcqProd := BitVec.ofNat 32 i' })
      if host then s3.msixRaise x.func x.vec.toNat else s3
    | _, _ => s

/-- An ERRORED or context-end record: written, or waiting behind others for space (R173). -/
def State.cqPost (s : State) (c : CtxId) (r : CqRec) : State :=
  match s.ctx? c with
  | none => s
  | some x =>
    if x.recWait.isEmpty && s.cqSpace c then s.cqWrite c r
    else s.updCtx c (fun y => { y with recWait := y.recWait ++ [r] })

/-- Waiting records of a context are written while there is space, oldest first. -/
def State.cqDrain (s : State) (c : CtxId) : Nat → State
  | 0 => s
  | fuel + 1 =>
    match s.ctx? c with
    | some x =>
      match x.recWait with
      | r :: rs =>
        if s.cqSpace c then State.cqDrain ((s.updCtx c (fun y => { y with recWait := rs })).cqWrite c r) c fuel else s
      | [] => s
    | none => s

/-! ## Errors and events (R28, R172, R218) -/

/-- An error attaches to an event: the word becomes ERRORED with VALUE and LATE kept, and one record is written; an
event that is already ERRORED keeps its first code (R172, R218). -/
def State.attachEvent (s : State) (c : CtxId) (q : QIdx) (e : Nat) (code : Byte) (seq : Word) : State :=
  let r := s.evRead c e
  let w := r.1
  if Ev.state w = 2 then r.2
  else
    let s1 := r.2.evWrite c e (Ev.mk (Ev.value w) q code.toNat (Ev.late w) 2)
    let l := if Ev.late w then s1.draw else (0, s1)
    l.2.cqPost c { event := BitVec.ofNat 16 e, st := 2, late := Ev.late w, code := code, queue := q, seq := seq,
                   value := BitVec.ofNat 32 (Ev.value w), lateness := BitVec.ofNat 32 l.1.toNat }

/-- Events of a context. -/
def Ctx.events (x : Ctx) : Nat := 2 ^ x.lev

/-- SIGNALs of a queue that have issued and not yet written their event word, in program order. -/
def State.heldOf (s : State) (c : CtxId) (q : QIdx) : List Held := s.helds.filter (fun h => h.ctx == c && h.queue == q)

/-- The queue's first pending event for a failure at program place `fid` (R28): the first SIGNAL at or after it that has
not written its event word. -/
def State.firstPending (s : State) (c : CtxId) (q : QIdx) (fid : Nat) : Option Nat :=
  match s.ctx? c with
  | none => none
  | some x =>
    let r := x.q q
    match (s.heldOf c q).find? (fun h => decide (fid ≤ h.id)) with
    | some h => some h.event
    | none => ((s.scanSignals c r x.events r.ahead r.head r.ahead).head?).map Prod.fst

/-- The event of a program fault (R217): the first SIGNAL between the faulting instruction at HEAD and TAIL. -/
def State.pendingBehind (s : State) (c : CtxId) (q : QIdx) : Option Nat :=
  match s.ctx? c with
  | none => none
  | some x =>
    let r := x.q q
    let k := scanWords (s.peekWord c r r.head)
    ((s.scanSignals c r x.events r.ahead (r.head + BitVec.ofNat 32 k) (r.ahead - k)).head?).map Prod.fst

/-- The event to which a write failure attaches: the first that a SIGNAL after the failed instruction has written or
will write (R340 step 4, R341). -/
def State.firstAfter (s : State) (c : CtxId) (q : QIdx) (fid : Nat) : Option Nat :=
  match (s.queue c q).sigs.find? (fun g => decide (fid ≤ g.1)) with
  | some g => some g.2.1
  | none => s.firstPending c q fid

/-- A code attaches to an event, or waits for the first SIGNAL that a later doorbell brings (R28). -/
def State.attachOrWait (s : State) (c : CtxId) (q : QIdx) (e : Option Nat) (code : Byte) (seq : Word) : State :=
  match e with
  | some e => s.attachEvent c q e code seq
  | none => s.updQ c q (fun r => { r with pendErr := some (code, seq) })

/-- Flag writes of a queue that are not yet accepted, held SIGNALs among them, are discarded and never sent; the SIGNALs
are kept as not executed (R340 step 3, R582). -/
def State.discardFlags (s : State) (c : CtxId) (q : QIdx) : State :=
  let hs := s.heldOf c q
  let s1 := ({ s with helds := s.helds.filter (fun h => !(h.ctx == c && h.queue == q)) } : State).dropReqs
    (fun r => r.ctx == c && r.queue == some q && r.flag && r.phase != .accepted)
  s1.updQ c q (fun r => { r with discarded := r.discarded ++ hs.map (fun h => (h.id, h.event, h.seq)) })

/-- What ends with a queue that breaks: its open items (R361), and a descriptor of the instruction at HEAD that has not
been placed on a channel. -/
def State.endWaiting (s : State) (c : CtxId) (q : QIdx) : State :=
  let s1 : State := { s with pcr := { s.pcr with items := s.pcr.items.filter (fun i => !(i.ctx == c && i.queue == q)) } }
  match (s.queue c q).wait with
  | some (.channel d) =>
    { s1 with map := { s1.map with
        descs := s1.map.descs.filter (fun x => decide (x.id ≠ d))
        chanWait := s1.map.chanWait.filter (fun k => decide (k ≠ d)) } }
  | _ => s1

/-- A queue becomes BROKEN at a sequence number; the code attaches to the event given. A queue that is not ACTIVE or
STALLED keeps what it has (R161, R218). -/
def State.breakAt (s : State) (c : CtxId) (q : QIdx) (e : Option Nat) (seq : Word) (code : Byte) : State :=
  let r := s.queue c q
  if r.state = .active ∨ r.state = .stalled then
    let s1 := (s.endWaiting c q).updQ c q (fun x =>
      { x with state := .broken, bseq := seq, wait := none, rwait := false, wlen := 1 })
    let s2 := s1.attachOrWait c q e code seq
    (s2.discardFlags c q).dropParties (fun x y => x == c && y == q)
  else s

/-- A failure of an access breaks its queue (R145, R225, R340): `fid` is the instruction's place in program order. -/
def State.breakQueue (s : State) (c : CtxId) (q : QIdx) (fid : Nat) (seq : Word) (code : Byte) : State :=
  s.breakAt c q (s.firstAfter c q fid) seq code

/-- Whether a request belongs to an instruction that has not retired: it returns a value, or is a flag write that is
not accepted. -/
def Req.unretired (r : Req) : Bool :=
  match r.purpose with
  | .load _ _ => true
  | .atom _ _ _ _ _ => true
  | .wait => false
  | _ => r.flag && r.phase != .accepted

/-- The oldest unretired instruction of a queue: its place in program order and its sequence number (R18, R586). -/
def State.oldest (s : State) (c : CtxId) (q : QIdx) : Nat × Word :=
  let a := (s.reqs.filter (fun r => r.ctx == c && r.queue == some q && r.unretired)).map (fun r => (r.id, r.seq))
  let b := (s.heldOf c q).map (fun h => (h.id, h.seq))
  match leastBy Prod.fst (a ++ b) with
  | some x => x
  | none => (s.nextId, (s.queue c q).head)

/-- A queue breaks at its oldest unretired instruction (R18, R555, R586). -/
def State.breakOldest (s : State) (c : CtxId) (q : QIdx) (code : Byte) : State :=
  let o := s.oldest c q
  s.breakAt c q (s.firstPending c q o.1) o.2 code

/-- Every queue of a context breaks at its oldest unretired instruction. -/
def State.breakAll (s : State) (c : CtxId) (code : Byte) : State :=
  forAll allQ s (fun t q => t.breakOldest c q code)

/-- A pending code attaches to the first SIGNAL that an accepted doorbell brings (R28, R217). -/
def State.attachLate (s : State) (c : CtxId) (q : QIdx) : State :=
  match (s.queue c q).pendErr with
  | none => s
  | some (code, seq) =>
    match (if code = Code.programFault then s.pendingBehind c q else s.firstPending c q s.nextId) with
    | none => s
    | some e => (s.updQ c q (fun r => { r with pendErr := none })).attachEvent c q e code seq

/-! ## Waiting room and slots (R165) -/

/-- Entries of the waiting room. -/
def roomMax : Nat := 4096

/-- A context joins the tail of the waiting room, or the pending bitmap when the room is full; WAIT is set. -/
def State.roomTail (s : State) (c : CtxId) : State :=
  let d := s.dqe
  let s1 := s.updCtx c (fun x => { x with wait := true })
  if d.room.length < roomMax then { s1 with dqe := { s1.dqe with room := d.room ++ [c.toNat] } }
  else { s1 with dqe := { s1.dqe with bitmap := addTo d.bitmap c.toNat } }

/-- A room that holds more than its entries loses its tail to the pending bitmap. -/
def Dqe.spillTail (d : Dqe) : Dqe :=
  if d.room.length ≤ roomMax then d
  else match d.room.getLast? with
    | some t => { d with room := d.room.dropLast, bitmap := addTo d.bitmap t }
    | none => d

/-- A context is placed ahead of every non-pinned entry of the room, behind pinned ones; `head` puts it at the head
(R170, R171). It leaves the bitmap. -/
def State.roomAhead (s : State) (c : CtxId) (head : Bool) : State :=
  let s1 := s.updCtx c (fun x => { x with wait := true })
  let room := s.dqe.room.filter (fun k => decide (k ≠ c.toNat))
  let pinned (k : Nat) : Bool := match s.ctxs.look k with
    | some x => x.pin || x.pinWait
    | none => false
  let front := if head then [] else room.takeWhile pinned
  let back := if head then room else room.dropWhile pinned
  { s1 with dqe := ({ s1.dqe with
      room := front ++ c.toNat :: back
      bitmap := s.dqe.bitmap.filter (fun k => decide (k ≠ c.toNat)) }).spillTail }

/-- While the room has a free entry, the first bit of the bitmap at or after the pointer moves into it (R165). -/
def State.roomRefill (s : State) : Nat → State
  | 0 => s
  | fuel + 1 =>
    let d := s.dqe
    if d.room.length < roomMax then
      match leastBy (fun k => (k + 16384 - d.pointer) % 16384) d.bitmap with
      | some k =>
        State.roomRefill { s with dqe := { d with
          room := d.room ++ [k]
          bitmap := d.bitmap.filter (fun j => decide (j ≠ k))
          pointer := (k + 1) % 16384 } } fuel
      | none => s
    else s

/-- A context leaves the waiting room and the bitmap. -/
def State.roomLeave (s : State) (c : CtxId) : State :=
  let s1 := s.updCtx c (fun x => { x with wait := false })
  ({ s1 with dqe := { s1.dqe with
      room := s1.dqe.room.filter (fun k => decide (k ≠ c.toNat))
      bitmap := s1.dqe.bitmap.filter (fun k => decide (k ≠ c.toNat)) } }).roomRefill 1

/-- A context's grants of relaxed and HIGH queues are freed (R164, R353). -/
def State.dropGrants (s : State) (c : CtxId) : State :=
  let s1 := s.updCtx c (fun x => { x with queues := x.queues.map (fun q => { q with rlxGrant := false, highGrant := false }) })
  { s1 with dqe := { s1.dqe with
      rlxWait := s1.dqe.rlxWait.filter (fun p => decide (p.1 ≠ c.toNat))
      highWait := s1.dqe.highWait.filter (fun p => decide (p.1 ≠ c.toNat)) } }

/-- A context becomes non-resident at once, without a spill of work in progress (region freeze, stride-engine reset,
teardown). -/
def State.leaveSlot (s : State) (c : CtxId) : State :=
  let s1 := (s.dropGrants c).updCtx c (fun x => { x with slot := none, evict := false, restoring := false })
  { s1 with dqe := { s1.dqe with victim := if s1.dqe.victim = some c.toNat then none else s1.dqe.victim } }

end Sys2Proof.Machine
end

