-- ==== Sys2Proof/Machine/Access.lean ====
section
/-! DEFINITION. Requests that end in failure: fault-queue records, the failure of a request by its issuer's kind, of a
descriptor and of its queue; and the placement of descriptors on channels (R140 to R145, R225, R323, R324, R463). -/

namespace Sys2Proof.Machine

/-! ## Fault-queue records (R140 to R142) -/

/-- The 64 bytes of a record, written with the lost count (R141). -/
def FqRec.bytes (r : FqRec) (lost : Word) : List Byte :=
  leBytes 4 (r.kind.toNat + r.ts.toNat * 2 ^ 8 + r.code.toNat * 2 ^ 16 + r.reason.toNat * 2 ^ 24)
  ++ leBytes 4 (r.ctx.toNat + r.queue.toNat * 2 ^ 14)
  ++ leBytes 8 (r.dva.toNat % 2 ^ 57)
  ++ leBytes 8 (r.ca % 2 ^ 56)
  ++ leBytes 4 (r.init.toNat + r.acc.toNat * 2 ^ 16 + r.vdix.toNat * 2 ^ 18)
  ++ leBytes 4 r.seq.toNat
  ++ leBytes 8 r.time.toNat
  ++ leBytes 4 (r.entry % 2 ^ 12)
  ++ leBytes 4 lost.toNat
  ++ List.replicate 16 0

/-- A function's fault queue changed. -/
def State.updFq (s : State) (f : FnId) (g : FaultQ → FaultQ) : State :=
  { s with xlt := { s.xlt with faultQs := s.xlt.faultQs.upd f.toNat g } }

/-- The consumer index of a fault queue, as it stands in SMS. -/
def State.fqCons (s : State) (q : FaultQ) : Nat :=
  match pageAddr q.pages 0 with
  | some a =>
    let m := s.line a
    if m.poison || !m.owned || m.tag ≠ q.ctx then 0 else leVal (s.mem.bytes.readN (a + 4) 4)
  | none => 0

/-- Whether a fault queue has space. -/
def State.fqSpace (s : State) (q : FaultQ) : Bool :=
  decide ((q.prod.toNat + 1) % 2 ^ q.lrec ≠ s.fqCons q % 2 ^ q.lrec)

/-- A record written: the record, then the producer index, then the vector (R142). -/
def State.fqWrite (s : State) (f : FnId) (r : FqRec) : State :=
  match s.xlt.faultQs.look f.toNat with
  | none => s
  | some q =>
    let i := q.prod.toNat
    let i' := (i + 1) % 2 ^ q.lrec
    match pageAddr q.pages (64 + 64 * (i % 2 ^ q.lrec)), pageAddr q.pages 0 with
    | some a, some h =>
      let s1 := s.smsWrite a (r.bytes q.lost) (some q.ctx) false
      let s2 := s1.smsWrite h (leBytes 4 i') (some q.ctx) false
      (s2.updFq f (fun y => { y with prod := BitVec.ofNat 32 i', lost := 0 })).msixRaise f q.vec.toNat
    | _, _ => s

/-- A HOST_REQUEST record is written or waits; an UNRESOLVED record that finds no space is dropped and counted (R142). A
function without a fault queue receives none. -/
def State.fqPost (s : State) (f : FnId) (r : FqRec) : State :=
  match s.xlt.faultQs.look f.toNat with
  | none => s
  | some q =>
    if q.waiting.isEmpty && s.fqSpace q then s.fqWrite f r
    else if r.kind = 1 then s.updFq f (fun y => { y with waiting := y.waiting ++ [r] })
    else s.updFq f (fun y => { y with lost := y.lost + 1 })

/-- Waiting HOST_REQUEST records are written while there is space, oldest first. -/
def State.fqDrain (s : State) (f : FnId) : Nat → State
  | 0 => s
  | fuel + 1 =>
    match s.xlt.faultQs.look f.toNat with
    | none => s
    | some q =>
      match q.waiting with
      | r :: rs =>
        if s.fqSpace q then State.fqDrain ((s.updFq f (fun y => { y with waiting := rs })).fqWrite f r) f fuel else s
      | [] => s

/-- The owning function of a context. -/
def State.ctxFn (s : State) (c : CtxId) : Option FnId := (s.ctx? c).map Ctx.func

/-- The function in whose name a request leaves: its context's, or the one that the virtual device of a stage-2-only
request is bound to (R46, R67). -/
def State.reqFn (s : State) (r : Req) : Option FnId :=
  match r.s2only with
  | some v => some (s.vdev v).grant.func
  | none => s.ctxFn r.ctx

/-- The virtual device of a context. -/
def State.ctxVdix (s : State) (c : CtxId) : Vdix := match s.ctx? c with
  | some x => x.vdix
  | none => 0

/-! ## Channels (R322 to R324) -/

/-- Whether a delivery class is promised (R352). -/
def promisedCls (d : BitVec 3) : Bool := d = 2 || d = 3

/-- Whether a channel holds a descriptor. -/
def State.chanBusy (s : State) (u k : Nat) : Bool := s.map.descs.any (fun d => d.chan == some (u, k))

/-- Whether a channel can take a new descriptor: in service, enabled, idle, and outside a frozen region. -/
def State.chanFree (s : State) (u k : Nat) : Bool :=
  !s.chanBusy u k && !(s.map.chFail.contains (u, k)) && !(bitOf (s.reg .mapChdis [u]) k) && !s.regionFrozen (unitRegion u)

/-- Free channels of a unit among those numbered from `lo`. -/
def State.freeChans (s : State) (u lo n : Nat) : List Nat := (rangeFrom lo n).filter (fun k => s.chanFree u k)

/-- Paced descriptors that a unit holds. -/
def State.pacedOn (s : State) (u : Nat) : Nat :=
  (s.map.descs.filter (fun d => d.paced.isSome && (match d.chan with | some p => p.1 == u | none => false))).length

/-- Whether a unit can take one more descriptor, paced or not (R324). -/
def State.unitTakes (s : State) (u : Nat) (paced : Bool) : Bool :=
  !(s.freeChans u 0 28).isEmpty && (!paced || decide (s.pacedOn u < s.ce .mapCtrl 3 0))

/-- Free queue channels of a unit, 0 where it cannot take the descriptor. -/
def State.unitScore (s : State) (paced : Bool) (u : Nat) : Nat :=
  if s.unitTakes u paced then (s.freeChans u 0 28).length else 0

/-- The unit of a region that R323 chooses: more free channels, the even one on a tie. -/
def State.regionUnit (s : State) (paced : Bool) (r : Nat) : Option Nat :=
  let a := s.unitScore paced (2 * r)
  let b := s.unitScore paced (2 * r + 1)
  if a = 0 ∧ b = 0 then none else if a ≥ b then some (2 * r) else some (2 * r + 1)

/-- Free queue channels of a region. -/
def State.regionScore (s : State) (paced : Bool) (r : Nat) : Nat :=
  s.unitScore paced (2 * r) + s.unitScore paced (2 * r + 1)

/-- The unit for a queue descriptor of a home region (R323): that region, else the region with the most free channels,
the lowest-numbered on a tie. -/
def State.chooseUnit (s : State) (home : Nat) (paced : Bool) : Option Nat :=
  match s.regionUnit paced home with
  | some u => some u
  | none =>
    match leastBy (fun r => 1000 - s.regionScore paced r) [0, 1, 2, 3] with
    | some r => s.regionUnit paced r
    | none => none

/-- The region of a descriptor's issuing thread; region 0 where its context has no slot. -/
def State.descRegion (s : State) (d : Desc) : Nat :=
  match d.owner with
  | .queue c _ _ => match s.slotOf c with
    | some n => slotRegion n
    | none => 0
  | _ => 0

/-- A ring descriptor's channel: 30 or 31 of the lowest-numbered unit that has one free (R347). -/
def State.ringChan (s : State) : Option (Nat × Nat) :=
  (((rangeFrom 0 8).map (fun u => (u, 30)) ++ (rangeFrom 0 8).map (fun u => (u, 31))).filter
    (fun (p : Nat × Nat) => s.chanFree p.1 p.2)).head?

/-- The channel that a descriptor would take now. -/
def State.chooseChan (s : State) (d : Desc) : Option (Nat × Nat) :=
  if !s.runs Blk.map then none
  else
    match d.owner with
    | .queue _ _ _ =>
      match s.chooseUnit (s.descRegion d) d.paced.isSome with
      | some u => (s.freeChans u 0 28).head?.map (fun k => (u, k))
      | none => none
    | _ => s.ringChan

/-- Whether a waiting descriptor is of a promised class. -/
def State.descPromised (s : State) (d : Desc) : Bool :=
  match d.owner with
  | .queue c q _ => promisedCls (s.queue c q).dcls
  | _ => false

/-- A descriptor waits for a channel. -/
def State.chanQueue (s : State) (id : Nat) : State :=
  { s with map := { s.map with chanWait := addTo s.map.chanWait id } }

/-- The descriptors that wait, in the order in which they take channels: promised classes first (R324). -/
def State.chanOrder (s : State) : List Nat :=
  let p (id : Nat) : Bool := match s.desc? id with
    | some d => s.descPromised d
    | none => false
  s.map.chanWait.filter p ++ s.map.chanWait.filter (fun id => !p id)

/-- A descriptor takes a channel. -/
def State.takeChan (s : State) (id : Nat) (ch : Nat × Nat) : State :=
  let s1 := s.updDesc id (fun d => { d with chan := some ch })
  { s1 with map := { s1.map with chanWait := s1.map.chanWait.filter (fun k => decide (k ≠ id)) } }

/-- The next bytes of a descriptor start again from the first one whose write had not been accepted (R327); a stripe starts
again from its first element (R302). -/
def Desc.restart (d : Desc) : Desc :=
  { d with chan := none, rpos := d.pos, reading := false, rdOff := 0, buf := [], bufPoison := [], segs := [], outn := 0
           outb := [], outPoison := [], writing := false, pool := 0, poolWait := false }

/-- A descriptor leaves its channel and is placed on another, or waits for one (R327). -/
def State.restartDesc (s : State) (id : Nat) : State :=
  let s1 := s.updDesc id Desc.restart
  let s2 := s1.dropReqs (fun r => match r.purpose with
    | .descRead d => d == id
    | .descWrite d _ _ => d == id && r.phase != .accepted
    | .aggSend d => d == id
    | _ => false)
  match s2.desc? id with
  | none => s2
  | some d =>
    match s2.chooseChan d with
    | some ch => s2.takeChan id ch
    | none => s2.chanQueue id

/-! ## Failures -/

/-- A descriptor fails: a queue's descriptor ends and breaks its queue (R225, R340); a ring descriptor ends with the
code in its completion record (R349). -/
def State.failDesc (s : State) (id : Nat) (code : Byte) : State :=
  match s.desc? id with
  | none => s
  | some d =>
    let s1 := s.dropReqs (fun r => match r.purpose with
      | .descRead k => k == id
      | .statusRec k _ => k == id
      | .aggSend k => k == id
      | _ => false)
    match d.owner with
    | .queue c q seq => (s1.delDesc id).breakQueue c q id seq code
    | _ => s1.updDesc id (fun x => { x with failed := code, finished := true, chan := none, buf := [], segs := [], outb := [], pool := 0 })

/-- A write of a descriptor fails: the descriptor with it, or its queue alone where the descriptor has completed. -/
def State.failDescWrite (s : State) (r : Req) (id : Nat) (code : Byte) : State :=
  match s.desc? id with
  | some _ => s.failDesc id code
  | none =>
    match r.queue with
    | some q => s.breakQueue r.ctx q id r.seq code
    | none => s

/-- A refused remote request is answered by NACK, and its flow refuses later writes (R463). -/
def State.nackFlow (s : State) (k : FlowKey) (seq : Word) (code reason : Byte) : State :=
  let s1 : State := { s with ofp := { s.ofp with
    rx := s.ofp.rx.map (fun x => if x.key = k then { x with refusing := true, retried := none } else x) } }
  s1.emit (.relay 6 k k.pkg seq (BitVec.ofNat 64 (code.toNat + reason.toNat * 2 ^ 8)) [] false)

/-- A write that arrived over Relay waits for its page: RETRY, and the flow's later writes are refused until RESUME; those
that have not reached their target are forgotten, since the sender sends them again (R463). -/
def State.remoteRetry (s : State) (id : Nat) : State :=
  match s.req? id with
  | none => s
  | some r =>
    match r.purpose, r.phase with
    | .remoteWrite k seq _ _, .fault _ =>
      let later (o : Req) : Bool := match o.purpose with
        | .remoteWrite j n _ _ => j == k && n != seq && decide ((n - seq).toNat < 2 ^ 31) && o.phase != .sent && o.phase != .accepted
        | _ => false
      let s1 := s.dropReqs later
      let f (x : RxFlow) : RxFlow := if x.key = k then { x with next := seq, retried := some seq } else x
      ({ s1 with ofp := { s1.ofp with rx := s1.ofp.rx.map f } } : State).emit (.relay 7 k k.pkg seq 0 [] false)
    | _, _ => s

/-- The page of a write that arrived over Relay has been served: RESUME, and the write comes again (R463). -/
def State.remoteResume (s : State) (id : Nat) : State :=
  match s.req? id with
  | none => s
  | some r =>
    match r.purpose with
    | .remoteWrite k seq _ _ =>
      let s1 := s.delReq id
      if s.ofp.rx.any (fun x => x.key == k && x.retried == some seq) then
        let f (x : RxFlow) : RxFlow := if x.key = k then { x with retried := none, idleAt := s.now } else x
        ({ s1 with ofp := { s1.ofp with rx := s1.ofp.rx.map f } } : State).emit (.relay 8 k k.pkg seq 0 [] false)
      else s1
    | _ => s

/-- A request ends in failure with an event error code; who issued it decides what follows (R144, R145, R225, R463). -/
def State.failReq (s : State) (id : Nat) (code reason : Byte) : State :=
  match s.req? id with
  | none => s
  | some r =>
    let s1 := s.delReq id
    match r.purpose with
    | .descRead d => s1.failDesc d code
    | .descWrite d _ _ => s1.failDescWrite r d code
    | .statusRec d _ => s1.failDescWrite r d code
    | .aggSend d => s1.failDesc d code
    | .ceLoad die => s1.emit (.ceError die code)
    | .ceStore die _ => s1.emit (.ceError die code)
    | .ceAtom die _ _ _ _ => s1.emit (.ceError die code)
    | .remoteWrite k q _ _ => s1.nackFlow k q code reason
    | .remoteRead k q => s1.nackFlow k q code reason
    | .remoteAtom k q _ _ _ _ => s1.nackFlow k q code reason
    | _ =>
      match r.queue with
      | some q => s1.breakQueue r.ctx q r.id r.seq code
      | none => s1

/-- ACC of R563 for a request, and the access field of R141. -/
def Req.acc (r : Req) : Acc := if r.rd ∧ r.wr then .atomic else if r.wr then .write else .read
def Req.accBits (r : Req) : BitVec 2 := if r.rd ∧ r.wr then 2 else if r.wr then 1 else 0

/-- A request fails by R119 to R139: FLC records XLT_FAULT_UNRES (TST_UE alone for a poisoned table line), the owning
function's fault queue gets an UNRESOLVED record, and the request ends in failure (R141, R144, R145, R559). -/
def State.failXlate (s : State) (id : Nat) (code reason : Byte) (ts : Byte) (ca entry : Nat) : State :=
  match s.req? id with
  | none => s
  | some r =>
    let f : FaultIn := {
      src := if reason = Rsn.tablePoison then Src.tstUe else Src.xltFaultUnres
      who := r.who, addr := r.addr, acc := r.acc, akind := if r.s2only.isSome then .ca else .dva
      reason := reason, code := code
      ctx := if r.s2only.isSome then none else some r.ctx
      queue := r.queue, iseq := r.seq }
    let s1 := s.failReq id code reason
    let s2 := s1.raise f
    match s.ctxFn r.ctx with
    | some fn =>
      if r.s2only.isSome then s2
      else s2.fqPost fn { kind := 2, ts := ts, code := code, reason := reason, ctx := r.ctx, queue := r.queue.getD 0,
                          dva := r.addr, ca := ca, init := initId r.who, acc := r.accBits,
                          vdix := s.ctxVdix r.ctx, seq := r.seq, time := r.started, entry := entry }
    | none => s2

end Sys2Proof.Machine
end

