-- ==== Sys2Proof/Machine/Tables.lean ====
section
/-! DEFINITION. The Table Store's tables (R50 to R60): entry fields, descents, root cache, and the end of a pending fault
(R120, R121, R132, R139). Addresses, frames and keys are numbers; an entry's key is frame × 512 + index. -/

namespace Sys2Proof.Machine

/-! ## Entry fields (R56 to R58) -/

def Pte.v (e : PTE) : Bool := e.toNat.testBit 0
def Pte.t (e : PTE) : Bool := e.toNat.testBit 1
def Pte.g (e : PTE) : Bool := e.toNat.testBit 2
def Pte.frame (e : PTE) : Nat := fld e.toNat 22 4
def Pte.size (e : PTE) : Nat := fld e.toNat 4 2
def Pte.r (e : PTE) : Bool := e.toNat.testBit 5
def Pte.w (e : PTE) : Bool := e.toNat.testBit 6
/-- Stage-1 fields (R57). -/
def Pte.cBit (e : PTE) : Bool := e.toNat.testBit 8
def Pte.qBit (e : PTE) : Bool := e.toNat.testBit 9
def Pte.capn (e : PTE) : Nat := fld e.toNat 59 16
def Pte.obj (e : PTE) : Nat := fld e.toNat 83 64
/-- Stage-2 fields (R58). -/
def Pte.shared (e : PTE) : Bool := e.toNat.testBit 7
def Pte.pin (e : PTE) : Bool := e.toNat.testBit 8
def Pte.lp (e : PTE) : Bool := e.toNat.testBit 9
def Pte.ts (e : PTE) : Nat := fld e.toNat 12 10
def Pte.owner (e : PTE) : CtxId := BitVec.ofNat 14 (fld e.toNat 29 16)
def Pte.cls (e : PTE) : Byte := BitVec.ofNat 8 (fld e.toNat 39 32)
def Pte.index (e : PTE) : BitVec 24 := BitVec.ofNat 24 (fld e.toNat 63 40)
def Pte.offpn (e : PTE) : Nat := fld e.toNat 99 64

/-- Tier states (R63). -/
def Ts.mapped : Nat := 0
def Ts.zero : Nat := 1
def Ts.flashed : Nat := 2
def Ts.host : Nat := 3
def Ts.relay : Nat := 4
def Ts.busy : Nat := 5

/-- Bits [hi:lo] of an entry replaced. -/
def Pte.set (e : PTE) (hi lo v : Nat) : PTE :=
  let n := e.toNat
  BitVec.ofNat 128 (n - fld n hi lo * 2 ^ lo + v % 2 ^ (hi + 1 - lo) * 2 ^ lo)

/-- A stage-2 leaf with its tier state replaced. -/
def Pte.setTs (e : PTE) (ts : Nat) : PTE := Pte.set e 12 10 ts

/-- A stage-2 leaf with its PRA replaced; `off` is a byte offset. -/
def Pte.setPra (e : PTE) (cls idx off : Nat) : PTE :=
  Pte.set (Pte.set (Pte.set e 39 32 cls) 63 40 idx) 99 64 (off / 4096)

/-- Whether an entry is a valid leaf. -/
def Pte.leaf (e : PTE) : Bool := Pte.v e && Pte.t e

/-- log2 of the page size that SIZE names (R57). -/
def sizeLog (n : Nat) : Nat :=
  match n with
  | 0 => 12
  | 1 => 16
  | 2 => 21
  | 3 => 25
  | _ => 30

/-- Page size of a leaf, log2. -/
def Pte.lsize (e : PTE) : Nat := sizeLog (Pte.size e)

/-- The level at which a SIZE stands and the granule of its table (R55). -/
def sizeLevel (n : Nat) : Nat := if n ≤ 1 then 0 else if n ≤ 3 then 1 else 2
def sizeGran (n : Nat) : Bool := n = 1 || n = 3

/-- Index of an address in a table (R55). -/
def levelIndex (level : Nat) (gran stage2 : Bool) (a : Nat) : Nat :=
  match level with
  | 4 => if stage2 then fld a 55 48 else fld a 56 48
  | 3 => fld a 47 39
  | 2 => fld a 38 30
  | 1 => if gran then fld a 29 25 else fld a 29 21
  | _ => if gran then fld a 20 16 else fld a 20 12

/-- log2 of the span that one entry of a table covers. -/
def levelLog (level : Nat) (gran : Bool) : Nat :=
  match level with
  | 4 => 48
  | 3 => 39
  | 2 => 30
  | 1 => if gran then 25 else 21
  | _ => if gran then 16 else 12

/-- Entries of a table (R55). -/
def levelEntries (level : Nat) (gran stage2 : Bool) : Nat :=
  if level = 4 ∧ stage2 then 256 else if level ≤ 1 ∧ gran then 32 else 512

/-! ## Reading the tables -/

/-- Key of an entry. -/
def pteKey (frame index : Nat) : Nat := frame * 512 + index

/-- An entry as it stands; an unwritten entry is invalid. -/
def State.pte (s : State) (key : Nat) : PTE := (s.xlt.entries.look key).getD 0

/-- An entry written. -/
def State.putPte (s : State) (key : Nat) (e : PTE) : State :=
  { s with xlt := { s.xlt with entries := if e = 0 then s.xlt.entries.del key else s.xlt.entries.put key e } }

/-- Whether the Table Store line that holds an entry is poisoned (R31). -/
def State.ptePoison (s : State) (key : Nat) : Bool := (s.line (key * 16)).poison

/-- What a descent of one stage finds. -/
inductive Found where
  | leaf (key : Nat) (e : PTE)
  | none (key : Nat) (level : Nat)
  | poison
  deriving DecidableEq, Repr

/-- A descent from a table (R87): at most five entries. -/
def State.descend (s : State) (stage2 : Bool) (a : Nat) : Nat → Nat → Nat → Bool → Found
  | 0, frame, level, _ => .none (pteKey frame 0) level
  | fuel + 1, frame, level, gran =>
    let key := pteKey frame (levelIndex level gran stage2 a)
    if s.ptePoison key then .poison
    else
      let e := s.pte key
      if !Pte.v e then .none key level
      else if Pte.t e then .leaf key e
      else State.descend s stage2 a fuel (Pte.frame e) (level - 1) (Pte.g e)

/-- Stage-1 leaf of a DVA, from a root. -/
def State.stage1 (s : State) (s1d : Bool) (root a : Nat) : Found :=
  s.descend false a 5 root (if s1d then 3 else 4) false

/-- Stage-2 leaf of a CA, from a root. -/
def State.stage2 (s : State) (s2d : Bool) (root a : Nat) : Found :=
  s.descend true a 5 root (if s2d then 3 else 4) false

/-- The stage-2 leaf of a virtual device's CA, as the tables stand. -/
def State.s2leaf (s : State) (v : Vdix) (ca : Nat) : Option (Nat × PTE) :=
  let d := s.vdev v
  if !d.vv then none
  else
    match s.stage2 d.grant.s2d d.s2root.toNat ca with
    | .leaf k e => some (k, e)
    | _ => none

/-- First address of the page that a leaf of a size covers. -/
def pageBase (a lsize : Nat) : Nat := a / 2 ^ lsize * 2 ^ lsize

/-! ## The end of a fault service (R121, R132, R134, R136, R139) -/

/-- A request walks again. -/
def Req.rewalk (r : Req) : Req := { r with phase := .lookup, tr := none }

/-- A pending-fault entry changed. -/
def State.updPf (s : State) (e : Nat) (g : PFault → PFault) : State :=
  { s with xlt := { s.xlt with faults := s.xlt.faults.upd e g } }

/-- The leaf that a service in progress stands on: the original leaf with TS BUSY. -/
def PFault.busyLeaf (p : PFault) : PTE := Pte.setTs p.leaf Ts.busy

/-- Whether the leaf is still the one that the service changed to BUSY. -/
def State.pfStands (s : State) (p : PFault) : Bool := decide (s.pte p.key = p.busyLeaf)

/-- The leaf of a service written by an atomic compare on BUSY; a service for one host page of a MAPPED leaf writes
nothing. -/
def State.pfWrite (s : State) (p : PFault) (new : PTE) : State :=
  if p.hostPage.isNone && s.pfStands p then s.putPte p.key new else s

/-- Whether a fault belongs to an open item or to a HIGH queue (R365). -/
def State.pfFirst (s : State) (p : PFault) : Bool :=
  p.waiters.any (fun i => match s.req? i with
    | some r => (match r.queue with
        | some q => (s.queue r.ctx q).dcls == 3 || s.pcr.items.any (fun x => x.ctx == r.ctx && x.queue == q && x.sig.isNone)
        | none => false)
    | none => false)

/-- Flash fills of a context in service or queued (R365). -/
def State.fillsOf (s : State) (c : CtxId) : Nat :=
  (s.xlt.faults.filter (fun e => e.2.svc == .flash && e.2.ctx == c && (e.2.active || s.xlt.fillWait.contains e.1))).length

/-- Flash faults enter the fill queue while their context is below its limit (R133, R365): those of open items and HIGH
queues first, each group in the order of its start. -/
def State.fillSettle (s : State) : Nat → State
  | 0 => s
  | fuel + 1 =>
    let cand := s.xlt.faults.filter (fun e =>
      e.2.svc == .flash && !e.2.active && !s.xlt.fillWait.contains e.1 && decide (s.fillsOf e.2.ctx < s.ce .pcrOt 7 0))
    match leastBy (fun (e : Nat × PFault) => e.2.start.toNat + (if s.pfFirst e.2 then 0 else 2 ^ 64)) cand with
    | none => s
    | some e => State.fillSettle { s with xlt := { s.xlt with fillWait := s.xlt.fillWait ++ [e.1] } } fuel

/-- A pending-fault entry ends: a place it took returns, a HOST_REQUEST record that still waits is dropped (R142), and a
Page Request without an answer stays outstanding (R139). -/
def State.pfRemove (s : State) (e : Nat) : State :=
  match s.xlt.faults.look e with
  | none => s
  | some p =>
    let x := s.xlt
    let stale := if p.prgSent then
        match p.prgIdx with
        | some i => x.prgStale.put p.func.toNat (addTo ((x.prgStale.look p.func.toNat).getD []) i.toNat)
        | none => x.prgStale
      else x.prgStale
    let fqs := x.faultQs.upd p.func.toNat (fun q => { q with
      waiting := q.waiting.filter (fun r => !(r.kind == 1 && r.entry == e)) })
    ({ s with xlt := { x with
        faults := x.faults.del e
        fillWait := x.fillWait.filter (fun k => decide (k ≠ e))
        prgStale := stale
        faultQs := fqs } }).fillSettle 1

/-- A service ends and its waiters walk again (R121). -/
def State.pfEnd (s : State) (e : Nat) : State :=
  match s.xlt.faults.look e with
  | none => s
  | some p => forAll p.waiters (s.pfRemove e) (fun t i => (t.remoteResume i).updReq i Req.rewalk)

/-- A service ends and its waiters fail (R129, R134, R136, R139): the leaf returns to its original state. -/
def State.pfFail (s : State) (e : Nat) (code reason : Byte) : State :=
  match s.xlt.faults.look e with
  | none => s
  | some p =>
    let s1 := (s.pfWrite p p.leaf).pfRemove e
    forAll p.waiters s1 (fun t i => t.failXlate i code reason (BitVec.ofNat 8 (Pte.ts p.leaf)) p.ca e)

/-- HOST faults that a test names end before their answer arrives (R139). -/
def State.pfHostEnd (s : State) (which : PFault → Bool) (code reason : Byte) : State :=
  forAll ((s.xlt.faults.filter (fun p => p.2.svc == .host && which p.2)).map Prod.fst) s
    (fun t e => t.pfFail e code reason)

end Sys2Proof.Machine
end

