-- ==== Sys2Proof/Machine/Ftc.lean ====
section
/-! DEFINITION. The flash medium (ch. 12): geometry, blocks, ranges, the log that units are written to, moves of a
block's valid units, spare capacity. A block is numbered ((channel × 8 + target) × 8 + LUN) × 2^20 + block. -/

namespace Sys2Proof.Machine

/-! ## Geometry (R372, R373, R378) -/

/-- The geometry that every ACTIVE target has. -/
def State.ftcGeom (s : State) : TargetInfo :=
  match s.ftc.targets.find? (fun e => e.2.st == .active || e.2.st == .failed) with
  | some e => e.2.info
  | none => { chan := 0, tgt := 0, answers := false, meets := false, rate := 0, luns := 0, blocks := 0, pages := 0, endurance := 0 }

/-- Channels that hold a target in use. -/
def State.ftcChans (s : State) : List Nat :=
  (rangeFrom 0 32).filter (fun c => s.ftc.targets.any (fun e => e.1 / 8 == c && e.2.st == .active))

/-- Targets in use. -/
def State.ftcTargets (s : State) : Nat :=
  (s.ftc.targets.filter (fun e => e.2.st == .active || e.2.st == .failed)).length

/-- Raw capacity in pages of 16 KiB. -/
def State.ftcRaw (s : State) : Nat := let g := s.ftcGeom; s.ftcTargets * g.luns * g.blocks * g.pages

/-- Logical capacity in units (R378). -/
def State.ftcCap (s : State) : Nat := 88 * s.ftcRaw / 100

/-- Parts of a block's number. -/
def blockLun (b : Nat) : Nat := b / 2 ^ 20
def blockTgt (b : Nat) : Nat := b / 2 ^ 23
def blockChan (b : Nat) : Nat := b / 2 ^ 26

/-- Whether a block exists. -/
def State.blockExists (s : State) (b : Nat) : Bool :=
  let g := s.ftcGeom
  (match s.ftc.targets.look (blockTgt b) with
   | some t => t.st == .active || t.st == .failed
   | none => false) && decide (blockLun b % 8 < g.luns) && decide (b % 2 ^ 20 < g.blocks)

/-- A block; one that the map does not list waits for its first erase since the mount (R395 step 4). -/
def State.block (s : State) (b : Nat) : Block :=
  (s.ftc.blocks.look b).getD
    { chan := blockChan b, tgt := blockTgt b % 8, lun := blockLun b % 8, dirty := true
      erases := (s.ftc.zone.erases.look b).getD 0, st := (s.ftc.zone.badBlocks.look b).getD .good }

/-- A block changed. -/
def State.updBlock (s : State) (b : Nat) (f : Block → Block) : State :=
  { s with ftc := { s.ftc with blocks := s.ftc.blocks.put b (f (s.block b)) } }

/-- Whether a block's state lets it hold units. -/
def Block.usable (x : Block) : Bool := x.st == .good || x.st == .suspect

/-! ## Spare capacity (R387) -/

/-- Spare capacity in per mille of raw: pages of usable blocks beyond the units of allocated ranges. -/
def State.ftcSpare (s : State) : Nat :=
  let g := s.ftcGeom
  let lost := (s.ftc.blocks.filter (fun e => !e.2.usable)).length * g.pages
  let used := (s.ftc.ranges.map (fun e => e.2.units)).sum
  if s.ftcRaw = 0 then 0 else min 120 ((s.ftcRaw - lost - used) * 1000 / s.ftcRaw)

/-- Wrstop, and the sources that follow the spare capacity. -/
def State.ftcSpareCheck (s : State) : State :=
  if !s.ftc.mounted then s
  else
    let n := s.ftcSpare
    let stop := if n < 5 then true else if n ≥ 10 then false else s.ftc.wrstop
    (({ s with ftc := { s.ftc with wrstop := stop } }).condFault { src := Src.ftcWrstop } stop).condFault
      { src := Src.ftcSpareLow } (decide (n < 20))

/-! ## Ranges (R379, R380) -/

/-- Logical units of a flash page: a 4 KiB page occupies a whole unit (R131, R379). -/
def flashUnits (lsize : Nat) : Nat := if lsize ≤ 14 then 1 else 2 ^ (lsize - 14)

/-- A number rounded up to a multiple. -/
def roundUp (n k : Nat) : Nat := (n + k - 1) / k * k

/-- A free range for a page within a virtual device's grant: the lowest one that is aligned to its size. -/
def State.findRange (s : State) (v : Vdix) (lsize : Nat) : Option Nat :=
  let g := (s.vdev v).grant
  let u := flashUnits lsize
  let lo := g.flBase.toNat
  let hi := min (lo + g.flCount.toNat) s.ftcCap
  let going (c : Nat) : Bool := match (s.vdev v).removing with
    | some x => decide (x.flBase.toNat < c + u ∧ c < x.flBase.toNat + x.flCount.toNat)
    | none => false
  let free (c : Nat) : Bool :=
    decide (lo ≤ c ∧ c + u ≤ hi) && !going c && s.ftc.ranges.all (fun e => decide (c + u ≤ e.1 ∨ e.1 + e.2.units ≤ c))
  let past := match (s.vdev v).removing with
    | some x => [roundUp (x.flBase.toNat + x.flCount.toNat) u]
    | none => []
  leastBy id ((roundUp lo u :: past ++ s.ftc.ranges.map (fun e => roundUp (e.1 + e.2.units) u)).filter free)

/-- A range allocated, named by one leaf. -/
def State.allocRange (s : State) (v : Vdix) (lsize : Nat) : Option (Nat × State) :=
  if s.ftc.wrstop || !s.ftc.mounted then none
  else
    match s.findRange v lsize with
    | none => none
    | some a =>
      some (a, ({ s with ftc := { s.ftc with
        ranges := s.ftc.ranges.put a { units := flashUnits lsize, vdix := v, count := 1 } } }).ftcSpareCheck)

/-- A page of a block no longer holds a valid unit. -/
def State.clearPage (s : State) (b i : Nat) : State := s.updBlock b (fun x => { x with pages := x.pages.set i none })

/-- A unit becomes unmapped. -/
def State.unmapUnit (s : State) (u : Nat) : State :=
  match s.ftc.units.look u with
  | none => s
  | some x =>
    let s1 := match x.loc with
      | some p => s.clearPage p.1 p.2
      | none => s
    { s1 with ftc := { s1.ftc with units := s1.ftc.units.del u } }

/-- A range that no leaf names is freed: its units are unmapped, and no retained copy stands for it. -/
def State.freeRange (s : State) (a : Nat) : State :=
  match s.ftc.ranges.look a with
  | none => s
  | some r =>
    let s1 := forAll (rangeFrom a r.units) s State.unmapUnit
    ({ s1 with
      ftc := { s1.ftc with ranges := s1.ftc.ranges.del a }
      xlt := { s1.xlt with dir := s1.xlt.dir.filter (fun e => !(e.2.retained && e.2.flash == some (a * 16384))) } }).ftcSpareCheck

/-- One leaf fewer names the range at a flash logical address. -/
def State.rangeDec (s : State) (flash : Nat) : State :=
  let a := flash / 16384
  match s.ftc.ranges.look a with
  | none => s
  | some r =>
    if r.count ≤ 1 then s.freeRange a
    else { s with ftc := { s.ftc with ranges := s.ftc.ranges.put a { r with count := r.count - 1 } } }

/-- One leaf more names it. -/
def State.rangeInc (s : State) (flash : Nat) : State :=
  { s with ftc := { s.ftc with ranges := s.ftc.ranges.upd (flash / 16384) (fun r => { r with count := r.count + 1 }) } }

/-! ## The log (R383, R384) -/

/-- Pages of a block. -/
def State.blockPages (s : State) : Nat := s.ftcGeom.pages

/-- The block of a channel that takes the next page: one that is partly written, else the erased block with the lowest
erase count (R383, R390). -/
def State.writeBlock (s : State) (c : Nat) : Option Nat :=
  let ok (e : Nat × Block) : Bool :=
    e.2.chan == c && e.2.st == .good && !e.2.dirty && !e.2.moving && decide (e.2.pages.length < s.blockPages) &&
    (match s.ftc.targets.look (blockTgt e.1) with
     | some t => t.st == .active
     | none => false)
  match s.ftc.blocks.find? (fun e => ok e && !e.2.pages.isEmpty) with
  | some e => some e.1
  | none => (leastBy (fun (e : Nat × Block) => e.2.erases) (s.ftc.blocks.filter ok)).map Prod.fst

/-- Channel of the parity unit of the open stripe, and of its data place (R383). -/
def State.parityChan (s : State) : Option Nat := let cs := s.ftcChans; cs[s.ftc.stripe % cs.length]?
def State.dataChan (s : State) (i : Nat) : Option Nat :=
  let cs := s.ftcChans
  let ds := if cs.length ≤ 1 then cs else cs.eraseIdx (s.ftc.stripe % cs.length)
  ds[i % ds.length]?

/-- A page of a block is taken for a unit, or for a pad or parity unit. -/
def State.takePage (s : State) (b : Nat) (u : Option Nat) : State :=
  (s.updBlock b (fun x =>
    { x with pages := x.pages ++ [u], work := if u.isSome then .programming else x.work, progAt := if x.pages.isEmpty then s.now else x.progAt }))

/-- The stripe closes: its parity unit is written, and the next stripe opens. -/
def State.closeStripe (s : State) : State :=
  let s1 := match s.parityChan.bind s.writeBlock with
    | some b => s.takePage b none
    | none => s
  { s1 with ftc := { s1.ftc with stripe := s1.ftc.stripe + 1, stripeFill := [] } }

/-- Data units of a stripe. -/
def stripeUnits : Nat := 31

/-- A program changed. -/
def State.updProgram (s : State) (id : Nat) (f : Program → Program) : State :=
  { s with ftc := { s.ftc with programs := s.ftc.programs.map (fun p => if p.id = id then f p else p) } }

/-- A unit write takes the next data place, where its channel has a writable block. -/
def State.placeProgram (s : State) (p : Program) : State :=
  if !s.runs Blk.ftc || p.at_.isSome then s
  else
    match (s.dataChan s.ftc.stripeFill.length).bind s.writeBlock with
    | none => s
    | some b =>
      let i := (s.block b).pages.length
      let s1 := (s.takePage b (some p.unit)).updProgram p.id (fun x =>
        { x with at_ := some (b, i), val := { x.val with loc := some (b, i), stripe := s.ftc.stripe, wseq := s.ftc.wseq } })
      let s2 : State := { s1 with ftc := { s1.ftc with
        wseq := s1.ftc.wseq + 1
        stripeFill := s1.ftc.stripeFill ++ [p.unit]
        lastWrite := s.now } }
      if s2.ftc.stripeFill.length ≥ stripeUnits then s2.closeStripe else s2

/-- Unit writes that wait for a place try again, oldest first. -/
def State.placePrograms (s : State) : State :=
  forAll (s.ftc.programs.filter (fun p => p.at_.isNone)) s State.placeProgram

/-- A unit's write begins. -/
def State.ftcWrite (s : State) (u : Nat) (val : Unit) (why : WriteFor) : State :=
  let n := s.newId
  let p : Program := { id := n.1, unit := u, val := val, why := why }
  ({ n.2 with ftc := { n.2.ftc with programs := n.2.ftc.programs ++ [p] } }).placeProgram p

/-- Bytes cut into units. -/
def unitCut : Nat → List Byte → List (List Byte)
  | 0, _ => []
  | n + 1, bs => bs.take 16384 :: unitCut n (bs.drop 16384)

/-- A page's units are written to a range, under its owner's generation and a lap parity. -/
def State.ftcWritePage (s : State) (a lsize : Nat) (own : CtxId) (lp : Bool) (bs : List Byte) (why : WriteFor) : State :=
  let n := flashUnits lsize
  (((rangeFrom a n).zip (unitCut n bs))).foldl
    (fun t x => t.ftcWrite x.1
      { loc := none, owner := own, gen := t.genOf own, lp := lp, wseq := 0, stripe := 0, data := x.2 } why) s

/-! ## Moving a block's units (R385, R390 to R393) -/

/-- Valid units of a block, with their pages. -/
def State.validUnits (s : State) (b : Nat) : List (Nat × Nat) :=
  let x := s.block b
  ((rangeFrom 0 x.pages.length).zip x.pages).filterMap (fun p => match p.2 with
    | some u => (match s.ftc.units.look u with
        | some y => if y.loc = some (b, p.1) then some (u, p.1) else none
        | none => none)
    | none => none)

/-- A block whose valid units have all left is to be erased. -/
def State.emptyBlock (s : State) (b : Nat) : State :=
  if (s.block b).moving && (s.validUnits b).isEmpty then
    s.updBlock b (fun x => { x with moving := false, dirty := true, pages := [], work := .erasing })
  else s

/-- The valid units of a block begin to be moved, with their metadata unchanged. -/
def State.moveBlock (s : State) (b : Nat) : State :=
  if (s.block b).moving then s
  else
    let s1 := forAll (s.validUnits b) (s.updBlock b (fun x => { x with moving := true }))
      (fun t p => match t.ftc.units.look p.1 with
        | some y => t.ftcWrite p.1 y (.move b p.2)
        | none => t)
    s1.emptyBlock b

/-- Free blocks of a LUN: good ones that hold no written page. -/
def State.freeBlocks (s : State) (lun : Nat) : Nat :=
  s.ftcGeom.blocks - (s.ftc.blocks.filter (fun e => blockLun e.1 == lun && (e.2.st != .good || !e.2.pages.isEmpty || e.2.moving))).length

/-- Garbage collection on a LUN whose free blocks have fallen below the mark (R385): the full block with the fewest valid
units. -/
def State.collect (s : State) (lun : Nat) : State :=
  if s.freeBlocks lun ≥ s.ce .ftcCtrl 23 16 || !s.runs Blk.ftc || s.ftc.blocks.any (fun e => blockLun e.1 == lun && e.2.moving) then s
  else
    match leastBy (fun (e : Nat × Block) => (s.validUnits e.1).length)
      (s.ftc.blocks.filter (fun e => blockLun e.1 == lun && e.2.st == .good && decide (e.2.pages.length = s.blockPages))) with
    | some e => s.moveBlock e.1
    | none => s

/-- A block takes a state of R392, and its erase count is journalled with it (R394). -/
def State.setBState (s : State) (b : Nat) (st : BState) : State :=
  let s1 := s.updBlock b (fun x => { x with st := st })
  let z := s.ftc.zone
  let z1 : BootZone := { z with badBlocks := z.badBlocks.put b st, erases := z.erases.put b (s.block b).erases }
  ({ s1 with ftc := { s1.ftc with zone := z1 } }).ftcSpareCheck

/-- A block becomes SUSPECT, or GROWN_BAD at its second entry; its valid units are moved out (R389, R392). -/
def State.suspectBlock (s : State) (b : Nat) : State :=
  let x := s.block b
  if x.st ≠ BState.good then s
  else if x.suspects ≥ 1 then (s.setBState b .grownBad).moveBlock b
  else ((s.updBlock b (fun y => { y with suspects := y.suspects + 1 })).setBState b .suspect).moveBlock b

end Sys2Proof.Machine
end

