-- ==== Sys2Proof/Machine/Lkt.lean ====
section
/-! DEFINITION. The hardware lock table (R255, R512 to R518): results, grants in arrival order, release, abandonment. -/

namespace Sys2Proof.Machine

/-- Whether an owner is the same queue, core or function, whatever thread it ran on (R255). -/
def LockOwner.same : LockOwner → LockOwner → Bool
  | .queue c q _, .queue d r _ => c == d && q == r
  | .core m, .core n => m == n
  | .pf f, .pf g => f == g
  | _, _ => false

/-- The result of a waiting acquire reaches its owner: a queue retires LOCK.ACQ, a core gets its port's result. -/
def State.lkReply (s : State) (w : LockOwner) (code : DWord) : State :=
  match w with
  | .queue c q _ =>
    match (s.queue c q).wait with
    | some (.lock _ rd _) => s.retireWait c q rd code
    | _ => s
  | .core n => s.updCore n.toNat (fun x => { x with result := code })
  | .pf _ => s

/-- A lock's state; a lock that the map does not list is FREE. -/
def State.lock (s : State) (k : Nat) : Option LockSt := s.lkt.locks.look k

/-- A lock set. -/
def State.setLock (s : State) (k : Nat) (v : Option LockSt) : State :=
  { s with lkt := { s.lkt with locks := s.lkt.locks.set k v } }

/-- The first waiter of a lock is taken off the list. -/
def dropWaiter (k : Nat) : List LkWaiter → List LkWaiter
  | [] => []
  | w :: ws => if w.lk = k then ws else w :: dropWaiter k ws

/-- A lock that is not held goes to its first waiter: code 4 where it was ABANDONED, else 0 (R515, R516). -/
def State.lkGrant (s : State) (k : Nat) : State :=
  match s.lkt.waiters.find? (fun w => w.lk == k) with
  | none => s
  | some w =>
    let code : DWord := match s.lock k with
      | some .abandoned => 4
      | _ => 0
    let s1 := s.setLock k (some (.held w.who))
    ({ s1 with lkt := { s1.lkt with waiters := dropWaiter k s1.lkt.waiters } }).lkReply w.who code

/-- The result of an attempt to take a lock, without a wait (R255): the code, and the state where it is taken. Code 5
stands for a lock held by another. -/
def State.lkTry (s : State) (k : Nat) (w : LockOwner) : DWord × State :=
  match s.lock k with
  | none => (0, s.setLock k (some (.held w)))
  | some .abandoned => (4, s.setLock k (some (.held w)))
  | some (.held o) => if o.same w then (6, s) else (5, s)

/-- A release (R255): 0 and FREE for the owner, else 7. -/
def State.lkRel (s : State) (k : Nat) (w : LockOwner) : DWord × State :=
  match s.lock k with
  | some (.held o) => if o.same w then (0, (s.setLock k none).lkGrant k) else (7, s)
  | _ => (7, s)

/-- Waiter entries of LKT (R515). -/
def lkWaiterMax : Nat := 8192

/-- Every lock that an owner holds becomes ABANDONED and is granted on; the owner's own waiting acquires leave without a
grant (R515, R516). -/
def State.lkAbandon (s : State) (mine : LockOwner → Bool) : State :=
  let s0 : State := { s with lkt := { s.lkt with waiters := s.lkt.waiters.filter (fun w => !mine w.who) } }
  let held := (s0.lkt.locks.filter (fun e => match e.2 with
    | .held o => mine o
    | .abandoned => false)).map Prod.fst
  forAll held s0 (fun t k =>
    let t1 := t.setLock k (some .abandoned)
    ({ t1 with lkt := { t1.lkt with abandoned := satInc t1.lkt.abandoned } }).lkGrant k)

/-- What a control core loses when it is reset or its region freezes (R511, R516): its offer, its active sources, TPR, mask
window and locks. -/
def State.coreStop (s : State) (n : Nat) : State :=
  let back := (s.core n).active.filter (fun x => icuPulseKind x || s.icu.causes.contains x)
  let s1 : State := { s with icu := { s.icu with pend := back.foldl addTo s.icu.pend } }
  let s2 := s1.updCore n (fun x => { x with
    offer := none, withdrawing := false, active := [], tpr := 256, mth := 256, winOpen := false })
  s2.lkAbandon (fun o => o.same (.core (BitVec.ofNat 4 n)))

/-- A core reset (R503): the uncommitted operations of its starting block go too. -/
def State.coreReset (s : State) (n : Nat) : State := (s.coreStop n).updCore n (fun x => { x with block := [] })

/-- Whether a queue has a write or a descriptor that has neither completed nor failed. -/
def State.writesOut (s : State) (c : CtxId) (q : QIdx) : Bool :=
  s.reqs.any (fun r => r.ctx == c && r.queue == some q && r.wr) ||
  s.map.descs.any (fun d => match d.owner with
    | .queue x y _ => x == c && y == q
    | _ => false)

/-- Locks of a queue. -/
def ownerQueue (c : CtxId) (q : QIdx) (o : LockOwner) : Bool := o.same (.queue c q 0)

/-- Locks of the queues of reset threads become ABANDONED once their writes have ended (R516, R586). -/
def State.lockDrops (s : State) : State :=
  forAll s.lkt.dropWait s (fun t e =>
    if t.writesOut e.1 e.2 then t
    else ({ t with lkt := { t.lkt with dropWait := dropFrom t.lkt.dropWait e } }).lkAbandon (ownerQueue e.1 e.2))

end Sys2Proof.Machine
end

