-- ==== Sys2Proof/Machine/Ring.lean ====
section
/-! DEFINITION. The coherence ring (R430 to R455): coherent lines and their homes, requests in trackers, snoops, grants,
the line caches of the host ports and their snoop filters. A line is a number: a 64 B line of SMS, or a HOST_COH line.
Ring agents are numbered HCA 0 to 3, control cores 4 to 19, region access 20 to 23, movers 24 to 31, DDL 32 to 34,
OFP 35 to 38, die 39; 40 + p stands for the host of port p. -/

namespace Sys2Proof.Machine

/-- The number that names a HOST_COH line among ring lines: beyond every SMS line. -/
def hostLine (p off : Nat) : Nat := 2 ^ 60 + p * 2 ^ 48 + off / 64

/-- Lines that a span covers. -/
def linesOf (a n : Nat) : List Nat := (spanLines a n).map (fun p => p.1 / 64)

/-- Whether another holder may hold newer data than a line's home: a ring agent in M, O or E, or the host of a window. -/
def State.lineOut (s : State) (line : Nat) : Bool :=
  s.crg.lines.any (fun c => c.line == line && (c.st == .m || c.st == .o || c.st == .e)) ||
  s.crg.filter.any (fun f => f.line == line && (f.st == .m || f.st == .e))

/-- Whether any agent or host holds a copy of a line. -/
def State.lineHeld (s : State) (line : Nat) : Bool :=
  s.crg.lines.any (fun c => c.line == line && c.st != .i) || s.crg.filter.any (fun f => f.line == line && f.st != .i)

/-- A line of a port's line cache. -/
def State.hcaLine (s : State) (p line : Nat) : Option HLine :=
  s.crg.hca.find? (fun h => h.port == p && h.line == line && h.st != .i)


/-! ## Homes and agents (R430, R431) -/

/-- The home of a line: the HCA of its port, or 4 plus its SMS layer. -/
def crgHome (line : Nat) : Nat := if line ≥ 2 ^ 60 then (line - 2 ^ 60) / 2 ^ 48 else 4 + line % 8

/-- A HOST_COH line's number at its port. -/
def portLine (line : Nat) : Nat := line % 2 ^ 48

/-- Whether an agent is a control core's, which alone keeps lines. -/
def ctlAgent (a : Nat) : Bool := 4 ≤ a && a < 20

/-- The region of an agent, where it lies in one. -/
def agentRegion (a : Nat) : Option Nat :=
  if ctlAgent a then some ((a - 4) / 4)
  else if 20 ≤ a ∧ a < 24 then some (a - 20)
  else if 24 ≤ a ∧ a < 32 then some (unitRegion (a - 24))
  else none

/-- The valid CXL.mem window that holds an SMS line. -/
def State.winOf (s : State) (line : Nat) : Option MemWin :=
  (s.crg.wins.find? (fun e => e.2.valid && e.2.pages.contains (64 * line / 4096 * 4096))).map Prod.snd

/-- Whether a line is coherent (R431). -/
def State.lineCoherent (s : State) (line : Nat) : Bool :=
  (2 ^ 60 ≤ line && decide (crgHome line < 4)) ||
  (decide (fwBase ≤ 64 * line) && decide (64 * line < fwBase + fwSize)) || (s.winOf line).isSome

/-! ## Back-invalidate snoops (R450, R452) -/

/-- A back-invalidate snoop to the host of a port. -/
def State.bisnp (s : State) (p line : Nat) (req : CohReq) : State :=
  ({ s with crg := { s.crg with cntBisnp := satInc s.crg.cntBisnp } }).emit (.bisnp p line req)

/-- Filter entries of a port. -/
def State.filterOf (s : State) (p : Nat) : List SfEntry := s.crg.filter.filter (fun e => e.port == p)

/-- A filter entry takes a state, or goes. -/
def State.filterSet (s : State) (p line : Nat) (st : Moesi) : State :=
  let others := s.crg.filter.filter (fun e => !(e.port == p && e.line == line))
  let e : SfEntry := { port := p, line := line, st := st }
  { s with crg := { s.crg with filter := if st = Moesi.i then others else e :: others } }

/-- Entries of a port's filter. -/
def filterMax : Nat := 262144

/-- A window ends: every line that the filter records in it is back-invalidated (R452). -/
def State.winEnd (s : State) (k : Nat) : State :=
  match s.crg.wins.look k with
  | none => s
  | some w =>
    let mine := (s.filterOf (k / 2)).filter (fun e => w.pages.contains (64 * e.line / 4096 * 4096))
    let s1 := forAll mine s (fun t e => t.bisnp e.port e.line .rdx)
    ({ s1 with crg := { s1.crg with wins := s1.crg.wins.del k } }).putReg .crgMemwinCtrl [k / 2, k % 2]
      (s1.rf .crgMemwinCtrl 30 0 [k / 2, k % 2])

/-- The windows of a context end (R179, R181). -/
def State.winsEnd (s : State) (c : CtxId) : State :=
  forAll ((s.crg.wins.filter (fun e => e.2.ctx == c)).map Prod.fst) s State.winEnd

/-! ## The line caches (R445, R446) -/

/-- Lines and ways of a port's cache. -/
def hcaSets : Nat := 4096
def hcaWays : Nat := 16

/-- A line leaves a port's cache toward the host: DirtyEvict with its data, or CleanEvictNoData. -/
def State.hcaEvict (s : State) (h : HLine) : State :=
  ({ s with crg := { s.crg with hca := s.crg.hca.filter (fun k => !(k.port == h.port && k.line == h.line)) } }).emit
    (.cxlResp h.port h.line .i (if h.st = Moesi.m then some h.data else none))

/-- A line is allocated: the set's line longest unused leaves where the set is full. -/
def State.hcaFill (s : State) (h : HLine) : State :=
  let set := s.crg.hca.filter (fun k => k.port == h.port && k.line % hcaSets == h.line % hcaSets && k.line != h.line)
  let s1 := if set.length < hcaWays then s else match set.head? with
    | some v => s.hcaEvict v
    | none => s
  { s1 with crg := { s1.crg with hca := s1.crg.hca.filter (fun k => !(k.port == h.port && k.line == h.line)) ++ [h] } }

/-! ## Grants (R434 to R436, R445, R449) -/

/-- A control core's copy of a line set. -/
def State.setLineCopy (s : State) (a line : Nat) (st : Moesi) (data : List Byte) (hold : Bool) : State :=
  let others := s.crg.lines.filter (fun c => !(c.agent == a && c.line == line))
  let n : CLine := { agent := a, line := line, st := st, data := data, hold := hold }
  { s with crg := { s.crg with lines := if st = Moesi.i then others else others ++ [n] } }

/-- A line's bytes at its SMS home. -/
def State.lineBytes (s : State) (line : Nat) : List Byte := s.mem.bytes.readN (64 * line) 64

/-- A grant at an SMS home to a ring agent. -/
def State.grantSms (s : State) (t : Track) : State :=
  let data := t.supplied.getD (s.lineBytes t.line)
  match t.req with
  | .rds =>
    let others := s.crg.lines.any (fun c => c.line == t.line && c.agent != t.agent)
    if ctlAgent t.agent then s.setLineCopy t.agent t.line (if others then .s else .e) data (!others) else s
  | .rdx =>
    if ctlAgent t.agent then s.setLineCopy t.agent t.line .m data true
    else match t.supplied with
      | some d => s.smsWrite (64 * t.line) d none false
      | none => s
  | .upg =>
    match s.crg.lines.find? (fun c => c.agent == t.agent && c.line == t.line) with
    | some c => s.setLineCopy t.agent t.line .m c.data true
    | none => s.setLineCopy t.agent t.line .m data true
  | .rdna => s
  | .wrline => s.smsWrite (64 * t.line) t.data none t.poison
  | .wbm => (s.smsWrite (64 * t.line) t.data none t.poison).setLineCopy t.agent t.line .i [] false

/-- A host's CXL.mem request ends at its home (R449, R62). -/
def State.grantHost (s : State) (t : Track) (op : HostOp) : State :=
  let p := t.agent - 40
  match op with
  | .read st =>
    let r := s.smsRead (64 * t.line) 64 (some t.tag) (.host (BitVec.ofNat 10 (256 * p)))
    (r.2.2.filterSet p t.line st).emit (.cxlMem p r.1 r.2.1)
  | .write => (s.smsWrite (64 * t.line) t.data (some t.tag) t.poison).filterSet p t.line .i
  | .inv => s.filterSet p t.line .i
  | .snoop => s

/-- What a grant at an HCA comes to: the line's state and messages; none where the host is asked first. -/
def State.grantHca (s : State) (t : Track) : Option State :=
  let p := t.home
  let n := portLine t.line
  let h := s.hcaLine p n
  let put (st : Moesi) : State := match h with
    | some x => s.hcaFill { x with st := st }
    | none => s
  match t.op with
  | some _ =>
    let dirty := match h with
      | some x => if x.st = Moesi.m then some x.data else none
      | none => none
    let st : Moesi := match h, t.req with
      | none, _ => .i
      | some _, .rds => .s
      | some x, .rdna => x.st
      | some _, _ => .i
    let s1 : State := if st = Moesi.i then
        { s with crg := { s.crg with hca := s.crg.hca.filter (fun k => !(k.port == p && k.line == n)) } }
      else put st
    some (s1.emit (.cxlResp p n st dirty))
  | none =>
    match t.req, h with
    | .rdna, some _ => some s
    | .rds, some _ => some s
    | .rdx, some x => if x.st = Moesi.s then none else some (put .m)
    | .upg, some x => if x.st = Moesi.s then none else some (put .m)
    | .wrline, some x =>
      if x.st = Moesi.s then
        some (({ s with crg := { s.crg with hca := s.crg.hca.filter (fun k => !(k.port == p && k.line == n)) } }).emit
          (.cxlResp p n .m (some t.data)))
      else some (s.hcaFill { x with st := .m, data := t.data, poison := t.poison })
    | .wrline, none => some (s.emit (.cxlResp p n .m (some t.data)))
    | .wbm, _ => some (s.hcaFill { port := p, line := n, st := .m, data := t.data, poison := t.poison })
    | _, none => none

/-- The request that an HCA sends to its host for a track: what `grantHca` asks. -/
def State.hcaAsks (s : State) (t : Track) : CohReq :=
  match s.hcaLine t.home (portLine t.line) with
  | some _ => .upg
  | none => if t.req = .upg then .rdx else t.req

/-- A track changed. -/
def State.updTrack (s : State) (line agent : Nat) (f : Track → Track) : State :=
  { s with crg := { s.crg with tracks := s.crg.tracks.map (fun t => if t.line = line ∧ t.agent = agent then f t else t) } }

/-- The active request of a line. -/
def State.activeTrack (s : State) (line : Nat) : Option Track := s.crg.tracks.find? (fun t => t.line == line && t.active)

/-- Whether a filter records a line, for another host than the requester's own. -/
def State.filterHit (s : State) (t : Track) : Option SfEntry :=
  s.crg.filter.find? (fun e => e.line == t.line && decide (40 + e.port ≠ t.agent))

/-- The first request of a line that is not active becomes active: its snoop goes to every holder, and to the host that the
filter records (R435, R438, R450). -/
def State.trackStart (s : State) (line : Nat) : State :=
  if (s.activeTrack line).isSome then s
  else
    match s.crg.tracks.find? (fun t => t.line == line) with
    | none => s
    | some t =>
      let holders := (s.crg.lines.filter (fun c => c.line == line && c.agent != t.agent && c.st != .i)).map CLine.agent
      let quiet := t.req == .wbm
      let hit := if quiet then none else s.filterHit t
      let s1 := s.updTrack line t.agent (fun x =>
        { x with active := true, pending := if quiet then [] else holders, bisnp := hit.map SfEntry.port })
      match hit with
      | some e => s1.bisnp e.port line t.req
      | none => s1

/-- An entry that frees goes to the head of its home's retry list, with a credit (R441). -/
def State.trackFree (s : State) (home : Nat) : State :=
  match s.crg.retry.find? (fun t => t.home == home) with
  | none => s
  | some r =>
    { s with crg := { s.crg with
        retry := s.crg.retry.filter (fun t => !(t.line == r.line && t.agent == r.agent))
        credits := s.crg.credits ++ [r] } }

/-- A request ends; the next one of its line becomes active. -/
def State.trackEnd (s : State) (t : Track) : State :=
  let s1 : State := { s with crg := { s.crg with
    tracks := s.crg.tracks.filter (fun x => !(x.line == t.line && x.agent == t.agent)) } }
  (s1.trackFree t.home).trackStart t.line

/-- Whether every answer that a request waits for has come. -/
def Track.ready (t : Track) : Bool :=
  t.active && t.pending.isEmpty && t.answered.isEmpty && t.bisnp.isNone && !t.room && !t.hostWait

/-- The host read of a line that the filter does not record waits for an entry where the filter is full (R450). -/
def State.needsRoom (s : State) (t : Track) : Bool :=
  match t.op with
  | some (.read st) =>
    let p := t.agent - 40
    st != .i && !(s.filterOf p).any (fun e => e.line == t.line) && decide ((s.filterOf p).length ≥ filterMax)
  | _ => false

/-- A request whose answers have come is granted. -/
def State.trackGrant (s : State) (line : Nat) : State :=
  match s.activeTrack line with
  | none => s
  | some t =>
    if !t.ready then s
    else if t.home ≥ 4 then
      match t.op with
      | some op =>
        if s.needsRoom t then
          let p := t.agent - 40
          let s1 := s.updTrack line t.agent (fun x => { x with room := true })
          match (s.filterOf p).getLast? with
          | some v => s1.bisnp p v.line .rdx
          | none => s1
        else (s.grantHost t op).trackEnd t
      | none => (s.grantSms t).trackEnd t
    else
      match s.grantHca t with
      | some s1 => s1.trackEnd t
      | none =>
        (s.updTrack line t.agent (fun x => { x with hostWait := true })).emit (.cxlReq t.home (portLine line) (s.hcaAsks t))

/-- Requests of lines that stand first are started and granted, as often as one command can make room. -/
def State.trackRun (s : State) (line : Nat) : Nat → State
  | 0 => s
  | fuel + 1 =>
    let s1 := s.trackStart line
    match s1.activeTrack line with
    | some t => if t.ready then State.trackRun (s1.trackGrant line) line fuel else s1
    | none => s1

/-- Requests that one line can have waiting. -/
def trackMax : Nat := 640

/-- A port's host is lost (R447, R450, R452): what waited for it goes on without it, and its own requests end. -/
def State.portLost (s : State) (p : Nat) : State :=
  let gone (t : Track) : Bool := t.home == p || t.agent == 40 + p || t.agent == 44 + p
  let s1 : State := { s with crg := { s.crg with
    tracks := (s.crg.tracks.filter (fun t => !gone t)).map (fun t => if t.bisnp = some p then { t with bisnp := none } else t)
    retry := s.crg.retry.filter (fun t => !gone t)
    credits := s.crg.credits.filter (fun t => !gone t) } }
  forAll (s1.crg.tracks.map Track.line) s1 (fun u l => u.trackRun l trackMax)

/-! ## Disabling -/

/-- CRG's enable becomes 0 (R453): line caches are written back and dropped, and filters are emptied. Windows stay valid;
while enable is 0 they give no state. -/
def State.crgDisable (s : State) : State :=
  let s1 := forAll s.crg.hca s State.hcaEvict
  forAll s1.crg.filter s1 (fun t e => t.bisnp e.port e.line .rdx)

/-- Whether CRG's caches and filters are empty, as ready asks (R453). -/
def State.crgEmpty (s : State) : Bool := s.crg.hca.isEmpty && s.crg.filter.isEmpty

end Sys2Proof.Machine
end

