-- ==== Sys2Proof/Machine/React.lean ====
section
/-! DEFINITION. The reactions of faults at levels 2 to 4 (R18, R424, R447, R555, R556, R620), performed at the end of
the command that raised them. -/

namespace Sys2Proof.Machine

/-! ## Level 2 (R555) -/

/-- The first pending event for a failure at a sequence number (R28). -/
def State.pendingFrom (s : State) (c : CtxId) (q : QIdx) (seq : Word) : Option Nat :=
  match s.ctx? c with
  | none => none
  | some x =>
    let r := x.q q
    match (s.heldOf c q).find? (fun h => decide ((h.seq - seq).toNat < 2 ^ 31)) with
    | some h => some h.event
    | none => ((s.scanSignals c r x.events r.ahead r.head r.ahead).head?).map Prod.fst

/-- The abort of level 2: the named queue at ISEQ, or every queue of the named context. -/
def State.abortFor (s : State) (f : FaultIn) : State :=
  match f.ctx, f.queue with
  | some c, some q =>
    (s.breakAt c q (s.pendingFrom c q f.iseq) f.iseq (if f.code = 0 then Code.queueBroken else f.code)).rstCause 0 5 c.toNat
  | some c, none => (s.breakAll c Code.contextAborted).rstCause 0 5 c.toNat
  | none, _ => s

/-! ## Freezes (R18, R424, R556) -/

/-- The target of a freeze. -/
inductive FreezeTarget where
  | region (r : Nat)
  | link (l : Nat)
  | block (b : Nat)
  deriving DecidableEq, Repr

/-- The block whose window holds an address of a record (R603). -/
def addrBlock (f : FaultIn) : Nat :=
  match f.akind with
  | .bar0 => f.addr.toNat / 0x10000
  | .bar2 => Blk.dqe
  | .ccpa => (f.addr.toNat - 0x100000000) / 0x10000
  | _ => Blk.glb

/-- The block that detects a source's faults (R620). -/
def srcBlock (f : FaultIn) : Nat :=
  let n := f.src.toNat
  if n ≤ 2 then
    match f.blk with
    | some b => b.toNat
    | none => addrBlock f
  else if n ≤ 6 then Blk.flc
  else if n = 7 then Blk.flc
  else if n = 9 ∨ n = 10 ∨ n = 8 then Blk.icu
  else if n = 16 ∨ n = 17 ∨ n = 19 ∨ n = 23 then Blk.xlt
  else if n = 18 then Blk.hpx
  else if n ≤ 22 then Blk.sms
  else if n = 24 then Blk.se
  else if n ≤ 27 then Blk.dqe
  else if n ≤ 37 then Blk.map
  else if n = 38 then Blk.pcr
  else if n = 39 then Blk.bnd
  else if n ≤ 57 then Blk.ftc
  else if n ≤ 111 then Blk.hpx
  else if n ≤ 115 then Blk.crg
  else if n ≤ 121 then Blk.ddl
  else if n ≤ 194 then Blk.ofp
  else if n ≤ 203 then Blk.sec
  else Blk.mgt

/-- The region of an initiator that lies in one (R556 rule 3). -/
def whoRegion : Who → Option Nat
  | .thread n => some (slotRegion n.toNat)
  | .mover ch => some (unitRegion (ch.toNat / 32))
  | .walker w => some (walkerRegion w.toNat)
  | .core n => some (coreRegion n.toNat)
  | _ => none

/-- The freeze target of a fault (R556). -/
def freezeTarget (f : FaultIn) : FreezeTarget :=
  let n := f.src.toNat
  if n ≥ 256 then .region ((n - 256) / 64)
  else if 64 ≤ n ∧ n < 112 then .link ((n - 64) / 6)
  else
    match whoRegion f.who with
    | some r => .region r
    | none => .block (srcBlock f)

/-- The contexts whose slots lie in a region. -/
def State.regionCtxs (s : State) (r : Nat) : List CtxId :=
  (s.ctxs.filter (fun e => match e.2.slot with
    | some n => slotRegion n == r
    | none => false)).map (fun e => BitVec.ofNat 14 e.1)

/-- A context loses its slot in a freezing region: its queues break (R18); one whose restore had not ended returns to
the head of the waiting room. -/
def State.evictFrozen (s : State) (c : CtxId) : State :=
  match s.ctx? c with
  | none => s
  | some x =>
    if x.restoring then (s.leaveSlot c).roomAhead c true
    else ((s.breakAll c Code.queueBroken).leaveSlot c).updCtx c (fun y => { y with pin := false })

/-- Walks of a freezing region end without a result; their requests return to the head of the walk queue (R94). -/
def State.requeueWalks (s : State) (r : Nat) : State :=
  let mine (q : Req) : Bool := match q.phase with
    | .walker w => walkerRegion w == r
    | _ => false
  let ids := (s.reqs.filter mine).map Req.id
  { s with
    reqs := s.reqs.map (fun q =>
      if mine q then { q with phase := .walkQ }
      else match q.phase with
        | .dirty w => if walkerRegion w = r then q.rewalk else q
        | .joined l => if ids.contains l then q.rewalk else q
        | _ => q)
    xlt := { s.xlt with walkQ := ids ++ s.xlt.walkQ } }

/-- A descriptor's channel fails and the descriptor restarts on another (R327). -/
def State.failChannels (s : State) (r : Nat) : State :=
  let ds := s.map.descs.filter (fun d => match d.chan with
    | some p => unitRegion p.1 == r
    | none => false)
  forAll ds s (fun t d =>
    match d.chan with
    | some p => ({ t with map := { t.map with chFail := addTo t.map.chFail p } }).restartDesc d.id
    | none => t)

/-- Rounds lose the accepted stripes that a unit of the region holds, and are marked failed with REASON 3 (R315). -/
def State.failStripes (s : State) (r : Nat) : State :=
  let holds (x : Stripe) : Bool := unitRegion x.unit == r
  { s with map := { s.map with rounds := s.map.rounds.map (fun e =>
      if e.2.parties.any (fun p => p.accepted.any holds) then
        (e.1, { e.2 with
          marked := if e.2.marked = 0 then 3 else e.2.marked
          parties := e.2.parties.map (fun p => { p with accepted := p.accepted.filter (fun x => !holds x) }) })
      else e) } }

/-- A region freezes (R18). -/
def State.freezeRegion (s : State) (r : Nat) : State :=
  if s.regionFrozen r then s
  else
    let s0 : State := { s with flc := { s.flc with regions := addTo s.flc.regions r } }
    let s1 := forAll (s.regionCtxs r) s0 State.evictFrozen
    let s2 := ((s1.requeueWalks r).failChannels r).failStripes r
    forAll (rangeFrom (4 * r) 4) s2 State.coreStop

/-- A block freezes: it behaves as if its enable were 0 (R453 for CRG). -/
def State.freezeBlock (s : State) (b : Nat) : State :=
  let s1 : State := { s with flc := { s.flc with blocks := addTo s.flc.blocks b } }
  if b = Blk.crg ∧ !s.flc.blocks.contains b then s1.crgDisable else s1

/-- The host link that a request has gone to or is about to go to. -/
def State.reqLink (s : State) (r : Req) : Option Nat :=
  match s.reqFn r with
  | none => none
  | some f =>
    match r.phase with
    | .ats => some (s.fnLink f)
    | _ =>
      match r.tr with
      | some t => if t.cls = 8 then some (2 * fld t.idx.toNat 23 22) else if isHostCls t.cls then some (s.fnLink f) else none
      | none => none

/-- Whether a request stands at a port: transmitted, waiting for its translation there, or held there. -/
def Req.atPort (r : Req) : Bool := r.phase == .sent || r.phase == .ats || r.phase == .held

/-- A link's port loses its coherent lines and its snoop filter (R447, R450). -/
def State.dropCoherent (s : State) (l : Nat) : State :=
  if l % 2 = 1 then s
  else
    let p := l / 2
    let lost := s.crg.hca.filter (fun h => h.port == p && h.st == .m)
    let held := (s.crg.filter.filter (fun e => e.port == p && e.st == .m)).length
    let s1 : State := { s with crg := { s.crg with
      hca := s.crg.hca.filter (fun h => h.port != p)
      filter := s.crg.filter.filter (fun e => e.port != p) } }
    let s2 := forAll lost s1 (fun t h =>
      t.raise { src := Src.cohLineLost, addr := BitVec.ofNat 64 (64 * h.line), akind := .host })
    let s3 := if held = 0 then s2 else s2.raise { src := Src.cohBiLost, synd := BitVec.ofNat 160 held }
    s3.portLost p

/-- Records of a hold without those of queues that break with the freeze, and without the producer-index write that
follows such a record (R424 step 5). -/
def dropRecords (broken : CtxId → QIdx → Bool) : Bool → List HostMsg → List HostMsg
  | _, [] => []
  | _, .record f c q a b :: ms =>
    let hit := match c, q with
      | some x, some y => broken x y
      | _, _ => false
    if hit then dropRecords broken true ms else .record f c q a b :: dropRecords broken false ms
  | skip, .index f a v :: ms => if skip then dropRecords broken false ms else .index f a v :: dropRecords broken false ms
  | _, m :: ms => m :: dropRecords broken false ms

/-- A host link freezes with a cause (R424, R447). A link that is frozen keeps its cause. -/
def State.freezeLink (s : State) (l : Nat) (cause : Byte) : State :=
  let k := s.link l
  if k.frozen then s
  else
    let hit := s.reqs.filter (fun r => r.atPort && s.reqLink r == some l)
    let broken (c : CtxId) (q : QIdx) : Bool := hit.any (fun r => r.ctx == c && r.queue == some q)
    let isReq (m : HostMsg) : Bool := match m with
      | .req _ _ => true
      | _ => false
    let s1 := s.updLink l (fun x => { x with
      frozen := true, drain := true, cause := cause
      hold := x.hold ++ dropRecords broken false (x.dheld.filter (fun m => !isReq m))
      dheld := [] })
    let s2 : State := { s1 with xlt := { s1.xlt with l0 := s1.xlt.l0.filter (fun e => s.fnLink e.func != l) } }
    let s3 := forAll (hit.map Req.id) s2 (fun t i => t.failReq i Code.portFrozen 0)
    let s4 := s3.pfHostEnd (fun p => s.fnLink p.func == l) Code.portFrozen 0
    s4.dropCoherent l

/-- Level 3 (R555, R556). -/
def State.freezeFor (s : State) (f : FaultIn) : State :=
  match freezeTarget f with
  | .region r => s.freezeRegion r
  | .link l => s.freezeLink l (f.aer.getD 0xFD)
  | .block b => s.freezeBlock b

/-! ## The end of a command -/

/-- The reaction of one fault above level 1: level 2's action, then level 3's. Level 4's die reset is RPC's, once the
record has left its capture register (R555). -/
def State.reactTo (s : State) (f : FaultIn) (level : Nat) : State :=
  let s1 := s.abortFor f
  if level ≥ 3 then s1.freezeFor f else s1

/-- Reactions that stand to be performed, oldest first; a reaction may raise further faults. -/
def State.reactions (s : State) : Nat → State
  | 0 => s
  | fuel + 1 =>
    match s.flc.todo with
    | [] => s
    | (f, lv) :: rest =>
      State.reactions (({ s with flc := { s.flc with todo := rest } }).reactTo f lv) fuel

/-- Reactions that one command can set off: each names a region, a link, a block or a context, and none acts twice. -/
def reactionMax : Nat := 64

/-- The end of a command: every reaction is performed (R557), and FLC's interrupt lines follow its state (R568). -/
def State.settle (s : State) : State :=
  let t := s.reactions reactionMax
  (({ t with flc := { t.flc with todo := [] } }).lockDrops).icuFollow

/-- The outcome of a command that leaves a state. -/
def done (s : State) : Host.Outcome State Fault Refusal := .next s.settle

end Sys2Proof.Machine
end

