-- ==== Sys2Proof/Machine/Launch.lean ====
section
/-! DEFINITION. What a request does once it is translated: the checks at its target's port, its departure, and the
conditions that hold flag writes and SIGNALs (R182, R183, R237, R249, R329 to R339, R424, R461 to R470). -/

namespace Sys2Proof.Machine

/-! ## Spans of a descriptor -/

/-- A descriptor's conversion field. -/
def Desc.cv (d : Desc) : Option Cv := d.conv.map (fun x => cvOf x.toNat)

/-- Source bytes of `n` elements from a segment boundary (R242). -/
def Desc.srcBytes (d : Desc) (n : Nat) : Nat :=
  match d.cv with
  | none => n
  | some c => if d.agg.isSome then c.src.spanBytes n else c.srcBytes n

/-- Destination bytes of `n` elements from a segment boundary. -/
def Desc.dstBytes (d : Desc) (n : Nat) : Nat :=
  match d.cv with
  | none => n
  | some c => c.dstBytes n

/-! ## Directions and targets -/

/-- Direction of a class (R27): 0 host, 1 package memory, 2 fabric. -/
def clsDir (c : Byte) : Nat := if isHostCls c then 0 else if c = 7 ∨ c = 9 then 2 else 1

/-- Classes whose accepted writes can still fail (R329). -/
def doneLater (c : Byte) : Bool := c = 3 || c = 7 || c = 0x0A

/-- The compute die of an HBM channel or of a tile's index (R46, DDL_HBM_CFG). -/
def State.dieOf (s : State) (cls : Byte) (idx : BitVec 24) : Nat :=
  if cls = 0x0A then fld idx.toNat 23 16
  else match s.ddl.hbmDie.look idx.toNat with
    | some d => d.toNat
    | none => 8

/-- Modules of a die that are in service. -/
def State.dieModules (s : State) (d : Nat) : List Nat :=
  (rangeFrom 0 24).filter (fun m =>
    let x := s.ddl.mods.getD m {}
    (x.st = 2 || x.st = 3) && x.die.toNat = d)

/-- Whether a compute die can be reached (R39). -/
def State.dieUp (s : State) (d : Nat) : Bool := !(s.dieModules d).isEmpty

/-- The DDL group that carries a die's traffic. -/
def State.dieGroup (s : State) (d : Nat) : Nat :=
  match s.dieModules d with
  | m :: _ => m / 8
  | [] => 3

/-- The ordering point of a class and index (R329, R334), as a number per kind. -/
def State.orderPoint (s : State) (r : Req) (t : Trans) : Nat × Nat :=
  if t.cls = 1 ∨ t.cls = 2 then (0, 0)
  else if t.cls = 3 ∨ t.cls = 0x0A then (1, s.dieGroup (s.dieOf t.cls t.idx))
  else if t.cls = 7 then (2, fld t.idx.toNat 15 0)
  else if t.cls = 9 then (3, t.idx.toNat)
  else if t.cls = 8 then (4, fld t.idx.toNat 23 22)
  else match s.reqFn r with
    | some f => (5, s.fnLink f)
    | none => (5, 8)

/-! ## Holds (R249, R333, R334) -/

/-- Whether a request writes. -/
def Req.writes (r : Req) : Bool :=
  match r.purpose with
  | .store _ => true
  | .descWrite _ _ _ => true
  | .statusRec _ _ => true
  | .aggSend _ => true
  | .atom _ _ _ _ _ => true
  | _ => false

/-- The class of the page that an address translates to now, if it does. -/
def State.pageCls (s : State) (c : CtxId) (a : Nat) : Option Byte :=
  match s.ctx? c with
  | none => none
  | some x =>
    match s.stage1 x.s1d x.s1root.toNat a with
    | .leaf _ e => (s.s2leaf x.vdix (Pte.capn e * 4096 + a % 2 ^ Pte.lsize e)).map (fun p => Pte.cls p.2)
    | _ => none

/-- Whether a descriptor may still write in a direction: a page of its destination lies in it, or translates to nothing. -/
def State.descMayWrite (s : State) (d : Desc) (dir : Nat) : Bool :=
  match d.owner, d.dst with
  | .queue c _ _, .dva a =>
    (rangeFrom 0 ((a.toNat % 4096 + d.dstBytes d.len + 4095) / 4096)).any (fun k =>
      match s.pageCls c (pageBase a.toNat 12 + 4096 * k) with
      | some x => clsDir x == dir
      | none => true)
  | _, _ => true

/-- Descriptors of a queue issued before a place. -/
def State.descsBefore (s : State) (c : CtxId) (q : QIdx) (id : Nat) : List Desc :=
  s.map.descs.filter (fun d => decide (d.id < id) && (match d.owner with
    | .queue x y _ => x == c && y == q
    | _ => false))

/-- A request's place in program order: its instruction's. -/
def Req.place (r : Req) : Nat :=
  match r.purpose with
  | .descRead d => d
  | .descWrite d _ _ => d
  | .statusRec d _ => d
  | .aggSend d => d
  | _ => r.id

/-- Requests of a queue issued before a place. -/
def State.reqsBefore (s : State) (c : CtxId) (q : QIdx) (id : Nat) : List Req :=
  s.reqs.filter (fun r => r.ctx == c && r.queue == some q && decide (r.place < id))

/-- Invalidations that a queue issued before a place (R99). -/
def State.invsBefore (s : State) (c : CtxId) (q : QIdx) (id : Nat) : Bool :=
  (s.xlt.invs ++ s.xlt.invWait).any (fun i => i.src == .queue c q && decide (i.id < id))

/-- Whether earlier flag writes of a queue, SIGNALs among them, are accepted (R333). -/
def State.flagsBefore (s : State) (c : CtxId) (q : QIdx) (id : Nat) : Bool :=
  !((s.reqsBefore c q id).any (fun r => r.flag && r.phase != .accepted)) &&
  !((s.heldOf c q).any (fun h => decide (h.id < id)))

/-- Whether an earlier data write lets a flag write toward a target go (R334). -/
def State.dataAhead (s : State) (f : Req) (t : Trans) (r : Req) : Bool :=
  if !r.writes || r.flag then true
  else match r.tr with
    | none => false
    | some u =>
      if clsDir u.cls ≠ clsDir t.cls then true
      else (r.phase == .sent || r.phase == .accepted) && decide (s.orderPoint r u = s.orderPoint f t)

/-- Whether a flag write may be issued to its target (R333, R334). -/
def State.flagReady (s : State) (f : Req) : Bool :=
  match f.queue, f.tr with
  | some q, some t =>
    s.flagsBefore f.ctx q f.id && !s.invsBefore f.ctx q f.id &&
    (s.reqsBefore f.ctx q f.id).all (fun r => s.dataAhead f t r) &&
    (s.descsBefore f.ctx q f.id).all (fun d => d.finished || !s.descMayWrite d (clsDir t.cls))
  | _, _ => true

/-- Whether a data write has left the HTU or been accepted on the die (R249). -/
def Req.left (r : Req) : Bool :=
  !r.writes ||
  (match r.tr with
   | none => false
   | some t => r.phase == .accepted || (r.phase == .sent && clsDir t.cls ≠ 1))

/-- Bytes of the segment being written that have been issued. -/
def State.descIssued (s : State) (d : Desc) : Nat :=
  d.wrOff + ((s.reqs.filter (fun r => r.phase != .accepted && (match r.purpose with
    | .descWrite k _ _ => k == d.id
    | _ => false))).map Req.len).sum

/-- Whether a descriptor's writes have all left the HTU. -/
def State.descLeft (s : State) (d : Desc) : Bool :=
  d.finished || (decide (d.pos + d.outn = d.len) && d.agg.isNone && decide (s.descIssued d = d.outb.length) && !d.status.isSome &&
    (s.reqs.filter (fun r => match r.purpose with
      | .descWrite k _ _ => k == d.id
      | _ => false)).all Req.left)

/-- Whether a queue runs as a relaxed queue: it holds a grant (R164, R336). -/
def State.relaxedQ (s : State) (c : CtxId) (q : QIdx) : Bool := (s.queue c q).rlx && (s.queue c q).rlxGrant

/-- Whether a held SIGNAL may write its event (R249, R333, R99). -/
def State.signalReady (s : State) (h : Held) : Bool :=
  s.flagsBefore h.ctx h.queue h.id && (s.relaxedQ h.ctx h.queue || !s.invsBefore h.ctx h.queue h.id) &&
  (s.reqsBefore h.ctx h.queue h.id).all Req.left && (s.descsBefore h.ctx h.queue h.id).all (fun d => s.descLeft d)

/-! ## Atomics (R237) -/

/-- Whether a class supports an operation of ATOM at a width. -/
def atomSupported (cls : Byte) (op : BitVec 3) (bytes : Nat) : Bool :=
  if cls = 4 ∨ cls = 5 then op = 0 || op = 1 || op = 7
  else if cls = 9 then (op = 1 || op = 7) && bytes = 8
  else true

/-- The operation of a request that is an atomic. -/
def Req.atomOp? (r : Req) : Option (BitVec 3) :=
  match r.purpose with
  | .atom _ op _ _ _ => some op
  | .ceAtom _ op _ _ _ => some op
  | .remoteAtom _ _ op _ _ _ => some op
  | _ => none

/-- The bytes that a request writes. -/
def Req.data (r : Req) : List Byte :=
  match r.purpose with
  | .store d => d
  | .descWrite _ d _ => d
  | .statusRec _ d => d
  | .ceStore _ d => d
  | .remoteWrite _ _ d _ => d
  | _ => []

/-! ## The host ports -/

/-- Bytes cut into TLPs (R331): at most `mps` bytes, each after the first from a 64 B boundary. -/
def tlpCut (mps : Nat) : Nat → DWord → List Byte → List (DWord × List Byte)
  | 0, _, _ => []
  | fuel + 1, a, bs =>
    if bs = [] then []
    else
      let n := mps - a.toNat % 64
      (a, bs.take n) :: tlpCut mps fuel (a + BitVec.ofNat 64 n) (bs.drop n)

/-- Max_Payload_Size of a function in bytes, at most 512 (R410). -/
def Fn.mpsBytes (x : Fn) : Nat := min 512 (128 * 2 ^ x.mps.toNat)

/-- Address of a translated access at its target. -/
def Req.targetAddr (r : Req) (t : Trans) : DWord :=
  hostAddr t.cls t.idx (t.off + r.addr.toNat % 2 ^ t.lsize)

/-- Byte offset of a translated access within its class. -/
def Req.targetOff (r : Req) (t : Trans) : Nat := t.off + r.addr.toNat % 2 ^ t.lsize

/-- The Relaxed Ordering attribute of a request (R338, R339). -/
def Req.relaxed (r : Req) (x : Fn) : Bool := x.ro && !r.flag

/-- Whether a context has as many non-posted requests toward HPX as its limit lets it have (R365). -/
def State.readsFull (s : State) (r : Req) : Bool :=
  r.s2only.isNone && decide ((s.reqs.filter (fun o => o.ctx == r.ctx && o.s2only.isNone && o.rd && o.phase == .sent &&
    (match o.tr with
     | some t => isHostCls t.cls
     | none => false))).length ≥ s.ce .pcrOt 23 16)

/-- A request leaves through a host link: its Memory Writes to an address, its Memory Read or its AtomicOp. -/
def State.hostSend (s : State) (id : Nat) (r : Req) (f : FnId) (a : DWord) : State :=
  let l := s.fnLink f
  let s1 := s.updReq id (fun x => { x with phase := .sent })
  if r.wr && !r.rd then
    forAll (tlpCut (s.fn f).mpsBytes (r.data.length + 1) a r.data) s1
      (fun u p => u.emit (.host l (.data p.1 p.2 (r.relaxed (s.fn f)) (s.fn f).ido r.poison)))
  else if s.readsFull r then s.updReq id (fun x => { x with phase := .held })
  else s1.emit (.hostRead l id (s.fn f).ro (s.fn f).ido)

/-- A request waits at its port (R419). -/
def State.hostHold (s : State) (id : Nat) (f : FnId) : State :=
  let l := s.fnLink f
  let s1 := s.updReq id (fun x => { x with phase := .held })
  if (s.link l).dheld.contains (.req f id) ∨ (s.link l).dheld.length ≥ d3Max then s1
  else (s1.updLink l (fun k => { k with dheld := k.dheld ++ [.req f id] })).wakeCheck f

/-- L0's entry for a function, PASID and host page (R80, R110). -/
def State.l0Hit (s : State) (f : FnId) (pasid : BitVec 20) (a : Nat) (wr : Bool) : Option L0Entry :=
  s.xlt.l0.find? (fun e => e.func == f && e.pasid == pasid && pageBase a e.lsize == e.page * 4096 &&
    (if wr then e.w else e.r))

/-- One ATS Translation Request goes to the host, and the request waits (R109). -/
def State.atsSend (s : State) (id : Nat) (f : FnId) (pasid : BitVec 20) (a : Nat) : State :=
  (s.updReq id (fun x => { x with phase := .ats })).emit (.atsReq f pasid (a / 4096) id)

/-- Whether a host address range lies in one valid CXL.cache window of its port (R444). -/
def State.cohWindow (s : State) (p off len : Nat) : Bool :=
  (rangeFrom 0 16).any (fun w =>
    s.ce .crgCcwinCtrl 0 0 [p, w] == 1 &&
    (let base := s.ce .crgCcwinBaseLo 31 21 [p, w] * 2 ^ 21 + s.ce .crgCcwinBaseHi 15 0 [p, w] * 2 ^ 32
     let size := s.ce .crgCcwinSize 26 0 [p, w] * 2 ^ 21
     decide (base ≤ off ∧ off + len ≤ base + size)))

/-- A request toward a host (R109, R113, R183, R413, R415, R419, R424, R444). -/
def State.hostLaunch (s : State) (id : Nat) (r : Req) (t : Trans) : State :=
  match s.reqFn r with
  | none => s.failReq id Code.hostPathFailed 0
  | some f =>
    let x := s.fn f
    let orphan := match s.ctx? r.ctx with
      | some c => c.orph && r.s2only.isNone
      | none => false
    if t.cls = 8 then
      let l := 2 * fld t.idx.toNat 23 22
      let k := s.link l
      if orphan then s.failReq id Code.hostPathFailed 0
      else if k.frozen then s.failReq id Code.portFrozen 0
      else if !k.cxl then s.failReq id Code.hostPathFailed 0
      else if !s.cohWindow (fld t.idx.toNat 23 22) (r.targetOff t) r.len then
        s.failXlate id Code.xlateUnresolved Rsn.cohWindow 0 t.ca 0
      else if !s.runs Blk.crg then s.updReq id (fun y => { y with phase := .held })
      else s.updReq id (fun y => { y with phase := .sent })
    else
      let l := s.fnLink f
      let k := s.link l
      if orphan || !x.present || !x.bme then s.failReq id Code.hostPathFailed 0
      else if k.frozen then s.failReq id Code.portFrozen 0
      else if x.d3hot || !s.runs Blk.hpx || !k.dlup then s.hostHold id f
      else if t.cls = 5 ∧ x.ats then
        let a := r.targetOff t
        let pasid := BitVec.ofNat 20 (fld t.idx.toNat 19 0)
        match s.l0Hit f pasid a r.wr with
        | some e => s.hostSend id r f (BitVec.ofNat 64 (e.pa * 4096 + a % 2 ^ e.lsize))
        | none => s.atsSend id f pasid a
      else s.hostSend id r f (r.targetAddr t)

/-! ## The fabric -/

/-- Links of a route that are up (R468). -/
def State.routeUp (s : State) (dst : PkgId) : List OLink :=
  match s.ofp.routes.look dst.toNat with
  | some (ls, _) => ls.filter (fun l => match s.ofp.links.look l.toNat with
      | some x => x.st == .up || x.st == .degraded
      | none => false)
  | none => []

/-- The links that a flow may take now: a queue's flow keeps to the links of its virtual device (R474, R489). -/
def State.linksFor (s : State) (k : FlowKey) : List OLink :=
  if k.dev then s.routeUp k.pkg
  else (s.routeUp k.pkg).filter (fun l => (s.vdev (s.ctxVdix k.ctx)).grant.links.toNat.testBit l.toNat)

/-- The link that a flow takes: a hash of its key among the links that it may take. -/
def State.chooseFrom (k : FlowKey) (ls : List OLink) : Option OLink :=
  if ls.isEmpty then none
  else ls[Config.routeHash k.pkg (k.ctx.toNat * 8 + k.queue.toNat + (if k.dev then 2 ^ 17 else 0)) % ls.length]?

def State.chooseLink (s : State) (k : FlowKey) : Option OLink := State.chooseFrom k (s.linksFor k)

/-- The key of the flow that carries a request toward a package (R462). -/
def State.flowOf (s : State) (r : Req) (dst : PkgId) : FlowKey :=
  match r.queue, r.who with
  | some q, _ => { pkg := dst, dev := false, ctx := r.ctx, gen := s.genOf r.ctx, queue := q }
  | none, .core _ => { pkg := dst, dev := true, ctx := 0, gen := 0, queue := 1 }
  | none, _ =>
    match r.purpose with
    | .descRead _ => { pkg := dst, dev := true, ctx := 0, gen := 0, queue := 1 }
    | .descWrite _ _ _ => { pkg := dst, dev := true, ctx := 0, gen := 0, queue := 1 }
    | _ => { pkg := dst, dev := true, ctx := r.ctx, gen := s.genOf r.ctx, queue := 0 }

/-- A sent flow's record. -/
def State.txFlow (s : State) (k : FlowKey) : TxFlow :=
  (s.ofp.tx.find? (fun f => f.key == k)).getD { key := k, link := s.chooseLink k }

/-- A sent flow's record replaced. -/
def State.putTx (s : State) (f : TxFlow) : State :=
  { s with ofp := { s.ofp with
    tx := if s.ofp.tx.any (fun g => g.key == f.key) then s.ofp.tx.map (fun g => if g.key = f.key then f else g)
          else s.ofp.tx ++ [f] } }

/-- TYPE of the Relay packet of a request (R461). -/
def Req.relayType (r : Req) : Byte := if r.rd ∧ r.wr then 3 else if r.wr then 0 else 1

/-- A request leaves over Relay: it takes the next SEQ of its flow; writes wait for a report (R462, R463, R465). A flow
that is being reset takes no request, and a member whose lease has lapsed is not reached (R479). -/
def State.relayLaunch (s : State) (id : Nat) (r : Req) (t : Trans) : State :=
  let dst : PkgId := BitVec.ofNat 16 (fld t.idx.toNat 15 0)
  let k := s.flowOf r dst
  let f := s.txFlow k
  let v := match r.s2only with
    | some v => v
    | none => s.ctxVdix r.ctx
  if (s.vdev v).lapsed.contains dst then s.failReq id Code.partitioned 0
  else if !s.runs Blk.ofp || f.resetting then s.updReq id (fun x => { x with phase := .held })
  else
    let link := match f.link with
      | some l => if (s.linksFor k).contains l then some l else s.chooseLink k
      | none => s.chooseLink k
    let un := f.unacked ++ [{ seq := f.next, req := id, sent := s.now }]
    let s1 := (s.updReq id (fun x => { x with phase := .sent })).putTx { f with next := f.next + 1, unacked := un, link := link }
    let s2 := match r.queue with
      | some q => s1.updQ r.ctx q (fun y => { y with wrote := addTo y.wrote dst })
      | none => s1
    if link.isSome && !f.paused then s2.emit (.relay r.relayType k dst f.next (BitVec.ofNat 64 (t.ca + r.addr.toNat % 2 ^ t.lsize)) r.data r.poison)
    else s2

/-- What a block tells FLC about a request that fails at its target's PRA. -/
def Req.praFault (r : Req) (t : Trans) (src : BitVec 9) (reason code : Byte) : FaultIn :=
  { src := src
    who := r.who
    addr := BitVec.ofNat 64 (r.targetOff t)
    acc := r.acc
    akind := .pra
    reason := reason
    code := code
    pcls := t.cls
    ctx := if r.s2only.isSome then none else some r.ctx
    queue := r.queue
    iseq := r.seq
    synd := BitVec.ofNat 160 t.idx.toNat }

/-- A request toward a RoCE connection (R332, R470). -/
def State.roceLaunch (s : State) (id : Nat) (r : Req) (t : Trans) : State :=
  let slot := fld t.idx.toNat 15 0
  let ok := match s.ofp.conns.look slot with
    | some c => decide (c.gen.toNat = fld t.idx.toNat 23 16)
    | none => false
  let paused := match s.ofp.conns.look slot with
    | some c => match s.ofp.links.look c.link.toNat with
      | some x => !s.reached x.pauseTill
      | none => false
    | none => false
  if !ok then (s.failReq id Code.remoteNack Rsn.roceHandle).raise (r.praFault t Src.roceFail Rsn.roceHandle Code.remoteNack)
  else if r.poison && r.wr then (s.failReq id Code.remoteNack Rsn.poisonNoCarrier).raise
      (r.praFault t Src.roceFail Rsn.poisonNoCarrier Code.remoteNack)
  else if !s.runs Blk.ofp || paused then s.updReq id (fun x => { x with phase := .held })
  else (s.updReq id (fun x => { x with phase := .sent })).emit (.roce slot id)

/-! ## Departure -/

/-- A request toward a compute die (R39); while DDL is disabled it waits (R41). -/
def State.ddlLaunch (s : State) (id : Nat) (r : Req) (t : Trans) : State :=
  if s.dieUp (s.dieOf t.cls t.idx) then
    s.updReq id (fun x => { x with phase := if s.runs Blk.ddl then .sent else .held })
  else (s.failReq id Code.remoteNack Rsn.ddlDown).raise (r.praFault t Src.ddlLinkDown Rsn.ddlDown Code.remoteNack)

/-- A translated request goes to its target. -/
def State.transmit (s : State) (id : Nat) : State :=
  match s.req? id with
  | none => s
  | some r =>
    match r.tr with
    | none => s
    | some t =>
      match t.cls with
      | 1 => s.updReq id (fun x => { x with phase := .sent })
      | 2 => s.updReq id (fun x => { x with phase := .sent })
      | 7 => s.relayLaunch id r t
      | 9 => s.roceLaunch id r t
      | 3 => s.ddlLaunch id r t
      | 0x0A => s.ddlLaunch id r t
      | _ => s.hostLaunch id r t

/-- A request has its translation (R87): an atomic that its class does not support fails, a flag write of a standard
queue waits for R334, and every other request departs. -/
def State.launch (s : State) (id : Nat) (t : Trans) : State :=
  match s.req? id with
  | none => s
  | some r =>
    let bad := match r.atomOp? with
      | some op => !atomSupported t.cls op r.len
      | none => false
    if bad then s.failXlate id Code.xlateUnresolved Rsn.atomClass 0 t.ca 0
    else
      let s1 := s.updReq id (fun x => { x with tr := some t })
      if r.flag then s1.updReq id (fun x => { x with phase := .held }) else s1.transmit id

/-- Requests that wait at their ports, flag writes apart, try again, in program order. -/
def State.relaunch (s : State) : State :=
  forAll ((s.reqs.filter (fun r => r.phase == .held && !r.flag)).map Req.id) s State.transmit

end Sys2Proof.Machine
end

