-- ==== Sys2Proof/Machine/Tier.lean ====
section
/-! DEFINITION. The tier cache: slabs, places and the directory (R123 to R131, R150, R621). A place is named by its byte
offset in the SMS_TIER area. -/

namespace Sys2Proof.Machine

/-- Slabs of 2 MiB (R123). -/
def slabCount : Nat := 2816
def slabBytes : Nat := 0x200000

/-- Places of a slab of a page size. -/
def slabPlaces (lsize : Nat) : Nat := 2 ^ (21 - lsize)

/-- Byte offset of a place. -/
def placeOff (slab lsize i : Nat) : Nat := slab * slabBytes + i * 2 ^ lsize

/-- Slabs that hold pinned pages (XLT_TIER_PINNED). -/
def State.tierPinned (s : State) : Nat :=
  (s.xlt.slabs.filter (fun e => e.2.pinned && !(e.2.used.isEmpty && e.2.waits.isEmpty))).length

/-- Slabs free or holding only retained copies (XLT_TIER_FREE). -/
def State.tierFree (s : State) : Nat :=
  slabCount - (s.xlt.slabs.filter (fun e => !(e.2.used.isEmpty && e.2.waits.isEmpty))).length

/-- A place of a slab that is neither in use nor awaiting an invalidation: one without a retained copy first. -/
def State.slabPlace (s : State) (n : Nat) (b : Slab) : Option Nat :=
  let open' := (rangeFrom 0 (slabPlaces b.lsize)).filter (fun i => !(b.used.contains i || b.waits.contains i))
  match open'.find? (fun i => (s.xlt.dir.look (placeOff n b.lsize i)).isNone) with
  | some i => some i
  | none => open'.head?

/-- Whether a slab is free or holds only retained copies. -/
def State.slabOpen (s : State) (n : Nat) : Bool :=
  match s.xlt.slabs.look n with
  | none => true
  | some b => b.used.isEmpty && b.waits.isEmpty

/-- A slab of a page size and kind that has room, and the place in it. -/
def State.roomIn (s : State) (lsize : Nat) (pinned : Bool) : Option (Nat × Nat) :=
  (s.xlt.slabs.filterMap (fun e =>
    if e.2.lsize = lsize ∧ e.2.pinned = pinned ∧ !(e.2.used.isEmpty && e.2.waits.isEmpty) then
      (s.slabPlace e.1 e.2).map (fun i => (e.1, i))
    else none)).head?

/-- The lowest-numbered slab that is free, else one that holds only retained copies. -/
def State.openSlab (s : State) : Option Nat :=
  match (rangeFrom 0 slabCount).find? (fun n => (s.xlt.slabs.look n).isNone) with
  | some n => some n
  | none => (rangeFrom 0 slabCount).find? (fun n => s.slabOpen n)

/-- Whether a fault of a pinned page finds neither room in a pinned slab nor a slab below the limit (R129). -/
def State.pinFull (s : State) (lsize : Nat) (pinned : Bool) : Bool :=
  pinned && (s.roomIn lsize true).isNone && decide (s.tierPinned ≥ s.rf .xltTierPinmax 11 0)

/-- Directory entries of a slab dropped. -/
def State.dropSlabDir (s : State) (n : Nat) : State :=
  { s with xlt := { s.xlt with dir := s.xlt.dir.filter (fun e => decide (e.1 / slabBytes ≠ n)) } }

/-- A place is taken for a page (R123, R130 step 1): a retained copy that lies there loses its directory entry. -/
def State.takePlace (s : State) (lsize : Nat) (pinned : Bool) : Option (Nat × State) :=
  match s.roomIn lsize pinned with
  | some (n, i) =>
    let off := placeOff n lsize i
    some (off, { s with xlt := { s.xlt with
      dir := s.xlt.dir.del off
      slabs := s.xlt.slabs.upd n (fun b => { b with used := addTo b.used i }) } })
  | none =>
    if pinned ∧ s.tierPinned ≥ s.rf .xltTierPinmax 11 0 then none
    else
      match s.openSlab with
      | none => none
      | some n =>
        let s1 := s.dropSlabDir n
        some (placeOff n lsize 0, { s1 with xlt := { s1.xlt with
          slabs := s1.xlt.slabs.put n { lsize := lsize, pinned := pinned, used := [0], waits := [] } } })

/-- A place's slab changed, with the place's index. -/
def State.updPlace (s : State) (off : Nat) (f : Nat → Slab → Slab) : State :=
  let n := off / slabBytes
  { s with xlt := { s.xlt with slabs := s.xlt.slabs.upd n (fun b => f (off % slabBytes / 2 ^ b.lsize) b) } }

/-- A place is free again. A slab without pages in use, awaiting or retained is free. -/
def State.freePlace (s : State) (off : Nat) : State :=
  let n := off / slabBytes
  let s1 := s.updPlace off (fun i b => { b with used := dropFrom b.used i, waits := dropFrom b.waits i })
  if s1.slabOpen n && !(s1.xlt.dir.any (fun e => e.1 / slabBytes == n)) then
    { s1 with xlt := { s1.xlt with slabs := s1.xlt.slabs.del n } }
  else s1

/-- A place's page leaves use, and the place waits for an invalidation that covers the old leaf (R621); a flash copy
that the page had is then named by one leaf fewer (R379). -/
def State.placeWaits (s : State) (off : Nat) (v : Vdix) (ca lsize : Nat) : State :=
  let s0 := match (s.xlt.dir.look off).bind DirEntry.flash with
    | some a => s.rangeDec a
    | none => s
  let s1 := s0.updPlace off (fun i b => { b with used := dropFrom b.used i, waits := addTo b.waits i })
  { s1 with xlt := { s1.xlt with dir := s1.xlt.dir.del off, placeWait := s1.xlt.placeWait ++ [(off, v, ca, lsize)] } }

/-- A place's page becomes a retained copy, or the page again. -/
def State.retainPlace (s : State) (off : Nat) (retained : Bool) : State :=
  let s1 := s.updPlace off (fun i b => { b with used := if retained then dropFrom b.used i else addTo b.used i })
  { s1 with xlt := { s1.xlt with dir := s1.xlt.dir.upd off (fun d => { d with retained := retained, ref := true }) } }

/-- The place of a retained copy of a flash address (R131). -/
def State.retainedAt (s : State) (flash : Nat) : Option Nat :=
  (s.xlt.dir.find? (fun e => e.2.retained && e.2.flash == some flash)).map Prod.fst

/-- The leaf that names a tier-cache place (R130 step 4): MAPPED, class SMS_TIER, DIRTY clear (R125). -/
def tierLeaf (leaf : PTE) (off : Nat) : PTE :=
  Pte.set (Pte.setTs (Pte.setPra (Pte.set leaf 9 9 0) 2 0 off) Ts.mapped) 14 14 0

/-- Whether space of the tier cache can be freed without a write to flash, for a page size: by pages that are clean. -/
def State.cleanRoom (s : State) (lsize : Nat) : Bool :=
  s.xlt.slabs.any (fun e =>
    let mine := s.xlt.dir.filter (fun d => decide (d.1 / slabBytes = e.1) && !d.2.retained)
    !e.2.pinned && !e.2.used.isEmpty &&
    (mine.all (fun d => !d.2.dirty) || (e.2.lsize == lsize && mine.any (fun d => !d.2.dirty))))

/-- A page of the tier cache filled with bytes under an owner's tag. -/
def State.tierFill (s : State) (off : Nat) (own : CtxId) (bs : List Byte) : State :=
  s.smsWrite (tierBase + off) bs (some own) false

end Sys2Proof.Machine
end

