-- ==== Sys2Proof/Machine/Xlt.lean ====
section
/-! DEFINITION. Translation: L1, L2 and the root cache, walks, ACC and DIRTY, the start of a fault service
(R43, R59 to R61, R80 to R94, R119 to R131, R136 to R138). -/

namespace Sys2Proof.Machine

/-! ## The caches (R80 to R84) -/

/-- `fold` of R83. -/
def foldSet (x : Nat) : Nat := (fld x 14 0) ^^^ (fld x 29 15) ^^^ (fld x 44 30)

/-- Key of a translation (R83). -/
def setKey (stage2 : Bool) (ctx : CtxId) (vdix : Vdix) : Nat := if stage2 then vdix.toNat * 128 else ctx.toNat * 2

/-- L2 set of an address for a page size (R83). -/
def l2Set (stage2 : Bool) (ctx : CtxId) (vdix : Vdix) (a lsize : Nat) : Nat :=
  let key := setKey stage2 ctx vdix
  let x := if lsize ≤ 16 then foldSet (fld a 56 16) ^^^ key
    else if lsize ≤ 25 then foldSet (fld a 56 25) ^^^ key ^^^ 0x2AAA
    else foldSet (fld a 56 30) ^^^ key ^^^ 0x5555
  x % 2 ^ 15

/-- Set in a cache: L1 takes the low 10 bits. -/
def cacheSet (l1 : Option (BitVec 4)) (t : Trans) : Nat :=
  let x := l2Set t.stage2 t.ctx t.vdix (t.page * 4096) t.lsize
  if l1.isSome then x % 1024 else x

/-- Ways of a cache. -/
def cacheWays (l1 : Option (BitVec 4)) : Nat := if l1.isSome then 8 else 16

/-- Translation epochs in force (R100). -/
def State.epochsOf (s : State) (stage2 : Bool) (ctx : CtxId) (vdix : Vdix) : Byte × Byte × Byte :=
  (if stage2 then 0 else (s.xlt.ctxEpoch.look ctx.toNat).getD 0, (s.xlt.vdevEpoch.look vdix.toNat).getD 0, s.xlt.dieEpoch)

/-- Whether a cached translation's epochs are current. -/
def State.freshT (s : State) (t : Trans) : Bool := decide (t.epochs = s.epochsOf t.stage2 t.ctx t.vdix)

/-- Whether a translation is the one of a request's address. -/
def Trans.covers (t : Trans) (stage2 : Bool) (ctx : CtxId) (vdix : Vdix) (a : Nat) : Bool :=
  t.stage2 == stage2 && (if stage2 then t.vdix == vdix else t.ctx == ctx) && decide (pageBase a t.lsize = t.page * 4096)

/-- The entry of a cache that an address hits. -/
def State.cacheHit (s : State) (l1 : Option (BitVec 4)) (stage2 : Bool) (ctx : CtxId) (vdix : Vdix) (a : Nat) :
    Option CacheEntry :=
  s.xlt.cache.find? (fun e => e.l1 == l1 && e.t.covers stage2 ctx vdix a && s.freshT e.t)

/-- Key of a set's replacement bits. -/
def plruKey (l1 : Option (BitVec 4)) (set : Nat) : Nat :=
  match l1 with
  | some c => c.toNat * 1024 + set
  | none => 16 * 1024 + set

/-- Replacement bits after a use of a way: each tree node points away from it. -/
def plruTouch (bits : Nat) (way : Nat) : Nat → Nat → Nat
  | 0, _ => bits
  | fuel + 1, size =>
    let half := size / 2
    if half = 0 then bits else
    let node := 16 / size + way / size
    let right := decide (way % size ≥ half)
    let b := if right then (bits ||| 2 ^ node) - 2 ^ node else bits ||| 2 ^ node
    plruTouch b way fuel half

/-- The way that the tree names among candidates. -/
def plruFind (bits : Nat) (cand : Nat → Bool) : Nat → Nat → Nat → Nat
  | 0, base, _ => base
  | fuel + 1, base, size =>
    let half := size / 2
    if half = 0 then base
    else
      let node := 16 / size + base / size
      let inLeft := (rangeFrom base half).any cand
      let inRight := (rangeFrom (base + half) half).any cand
      let goRight := if !inLeft then true else if !inRight then false else bits.testBit node
      if goRight then plruFind bits cand fuel (base + half) half else plruFind bits cand fuel base half

/-- A use of an entry recorded for replacement (R84). -/
def State.cacheTouch (s : State) (l1 : Option (BitVec 4)) (set way : Nat) : State :=
  let k := plruKey l1 set
  { s with xlt := { s.xlt with plru := s.xlt.plru.put k (plruTouch ((s.xlt.plru.look k).getD 0) way 4 (cacheWays l1)) } }

/-- The way that a fill replaces in a set (R84, R116): the one of the same translation, else one without an entry, else
by l2repl; L1 by tree pseudo-LRU. -/
def State.victimWay (s : State) (l1 : Option (BitVec 4)) (set : Nat) (t : Trans) : Nat × State :=
  let ways := cacheWays l1
  let inSet := s.xlt.cache.filter (fun e => e.l1 == l1 && e.set == set)
  match inSet.find? (fun e => e.t.stage2 == t.stage2 && e.t.ctx == t.ctx && e.t.vdix == t.vdix && e.t.page == t.page &&
      e.t.lsize == t.lsize) with
  | some e => (e.way, s)
  | none =>
    match (rangeFrom 0 ways).find? (fun w => !(inSet.any (fun e => e.way == w))) with
    | some w => (w, s)
    | none =>
      let bits := (s.xlt.plru.look (plruKey l1 set)).getD 0
      let mode := if l1.isSome then 0 else s.ce .xltCtrl 1 0
      if mode = 1 then
        let d := s.draw
        (d.1.toNat % ways, d.2)
      else
        let unpinned (w : Nat) : Bool := inSet.any (fun e => e.way == w && !e.t.pin)
        if mode = 2 ∧ (rangeFrom 0 ways).any unpinned then (plruFind bits unpinned 4 0 ways, s)
        else (plruFind bits (fun _ => true) 4 0 ways, s)

/-- A translation filled into a cache. -/
def State.cacheFill (s : State) (l1 : Option (BitVec 4)) (t : Trans) : State :=
  let set := cacheSet l1 t
  let v := s.victimWay l1 set t
  let kept := v.2.xlt.cache.filter (fun e => !(e.l1 == l1 && e.set == set && e.way == v.1))
  let new : CacheEntry := { l1 := l1, set := set, way := v.1, t := t }
  ({ v.2 with xlt := { v.2.xlt with cache := kept ++ [new] } }).cacheTouch l1 set v.1

/-- The fill of R87: L2, and the L1 that the request came through. -/
def State.fillFor (s : State) (cluster : Option (BitVec 4)) (t : Trans) : State :=
  let s1 := s.cacheFill none t
  match cluster with
  | some c => s1.cacheFill (some c) t
  | none => s1

/-! ## Walks (R87) -/

/-- Entries of the root cache of a quarter (R80). -/
def rootMax : Nat := 1024

/-- Flat SMS addresses of a context table entry and of a virtual-device table entry (R50). -/
def ctxEntryAddr (c : CtxId) : Nat := c.toNat * 256
def vdevEntryAddr (v : Vdix) : Nat := 0x2400000 + v.toNat * 256

/-- The root fields that a walk reads from the tables. -/
def State.readRoot (s : State) (quarter : Nat) (c : CtxId) : RootEntry :=
  match s.ctx? c with
  | some x =>
    let d := s.vdev x.vdix
    { quarter := quarter, ctx := c, tv := x.tv, s1d := x.s1d, vdix := x.vdix, s1root := x.s1root.toNat
      s2d := d.grant.s2d, s2root := d.s2root.toNat }
  | none =>
    { quarter := quarter, ctx := c, tv := false, s1d := false, vdix := 0, s1root := 0, s2d := false, s2root := 0 }

/-- The root step: from the root cache of the quarter, else from the tables, none where their line is poisoned. -/
def State.rootFor (s : State) (quarter : Nat) (c : CtxId) : Option RootEntry × State :=
  match s.xlt.roots.find? (fun e => e.quarter == quarter && e.ctx == c) with
  | some e => (some e, s)
  | none =>
    let e := s.readRoot quarter c
    if (s.line (ctxEntryAddr c)).poison || (s.line (vdevEntryAddr e.vdix)).poison then (none, s)
    else
      let others := s.xlt.roots.filter (fun x => x.quarter == quarter)
      let rest := if others.length < rootMax then s.xlt.roots
        else match others.head? with
          | some h => s.xlt.roots.filter (fun x => !(x.quarter == h.quarter && x.ctx == h.ctx))
          | none => s.xlt.roots
      (some e, { s with xlt := { s.xlt with roots := rest ++ [e] } })

/-- What the descents of a walk find: a failure with its reason and tier state, or the leaves. -/
inductive WalkRes where
  | fail (reason : Byte) (ca : Nat)
  | leaves (s1 : Option (Nat × PTE)) (k2 : Nat) (s2 : PTE) (ca : Nat) (vdix : Vdix)
  deriving DecidableEq, Repr

/-- Stage 2 of a walk. -/
def State.walk2 (s : State) (s1 : Option (Nat × PTE)) (vdix : Vdix) (s2d : Bool) (s2root ca : Nat) : WalkRes :=
  if s2d ∧ fld ca 55 48 ≠ 0 then .fail Rsn.addrRange ca
  else
    match s.stage2 s2d s2root ca with
    | .poison => .fail Rsn.tablePoison ca
    | .none _ _ => .fail 0 ca
    | .leaf k e => .leaves s1 k e ca vdix

/-- Both stages of a walk from a root. -/
def State.walk1 (s : State) (root : RootEntry) (a : Nat) : WalkRes :=
  if !root.tv then .fail 0 0
  else if root.s1d ∧ fld a 56 48 ≠ 0 then .fail Rsn.addrRange 0
  else
    match s.stage1 root.s1d root.s1root a with
    | .poison => .fail Rsn.tablePoison 0
    | .none _ _ => .fail 0 0
    | .leaf k e => s.walk2 (some (k, e)) root.vdix root.s2d root.s2root (Pte.capn e * 4096 + a % 2 ^ Pte.lsize e)

/-- The descents for a request, by a walker of a quarter. -/
def State.walkOf (s : State) (quarter : Nat) (r : Req) : WalkRes × State :=
  match r.s2only with
  | some v =>
    let d := s.vdev v
    if (s.line (vdevEntryAddr v)).poison then (.fail Rsn.tablePoison r.addr.toNat, s)
    else if !d.vv then (.fail 0 r.addr.toNat, s)
    else (s.walk2 none v d.grant.s2d d.s2root.toNat r.addr.toNat, s)
  | none =>
    let x := s.rootFor quarter r.ctx
    match x.1 with
    | none => (.fail Rsn.tablePoison 0, x.2)
    | some root => (x.2.walk1 root r.addr.toNat, x.2)

/-! ## Permission (R60) -/

/-- Whether a compute engine issued a request. -/
def Req.compute (r : Req) : Bool :=
  match r.purpose with
  | .ceLoad _ => true
  | .ceStore _ _ => true
  | .ceAtom _ _ _ _ _ => true
  | _ => false

/-- R60 over the leaves. -/
def permits (rd wr compute : Bool) (ctx : Option CtxId) (s1 : Option PTE) (s2 : PTE) : Bool :=
  (match s1 with
   | some e => (!rd || Pte.r e) && (!wr || Pte.w e) && (if compute then Pte.cBit e else Pte.qBit e)
   | none => true) &&
  (!rd || Pte.r s2) && (!wr || Pte.w s2) &&
  (Pte.shared s2 || (match ctx with
    | some c => Pte.owner s2 == c
    | none => false))

/-- R60 for a request; a request from the fabric meets step 4 only through a SHARED leaf (R464). -/
def Req.permitted (r : Req) (s1 : Option PTE) (s2 : PTE) : Bool :=
  permits r.rd r.wr r.compute (if r.s2only.isSome then none else some r.ctx) s1 s2

/-- The translation that two leaves give at an address (R49, R81). -/
def transOf (r : Req) (s1 : Option PTE) (s2 : PTE) (ca : Nat) (vdix : Vdix) (ep : Byte × Byte × Byte) : Trans :=
  let l1 := match s1 with
    | some e => Pte.lsize e
    | none => 64
  let l := min l1 (Pte.lsize s2)
  let base := pageBase ca l
  { stage2 := r.s2only.isSome
    ctx := if r.s2only.isSome then 0 else r.ctx
    vdix := vdix
    page := pageBase r.addr.toNat l / 4096
    ca := base
    lsize := l
    cls := Pte.cls s2
    idx := Pte.index s2
    off := Pte.offpn s2 * 4096 + base % 2 ^ Pte.lsize s2
    owner := Pte.owner s2
    lp := Pte.lp s2
    pin := Pte.pin s2
    shared := Pte.shared s2
    r := Pte.r s2 && (match s1 with | some e => Pte.r e | none => true)
    w := Pte.w s2 && (match s1 with | some e => Pte.w e | none => true)
    qok := match s1 with | some e => Pte.qBit e | none => true
    cok := match s1 with | some e => Pte.cBit e | none => true
    own := Pte.shared s2 || (r.s2only.isNone && Pte.owner s2 == r.ctx)
    dirty := (match s1 with | some e => e.toNat.testBit 13 | none => true) && s2.toNat.testBit 14
    epochs := ep }

/-- Whether a cached translation allows a request (R81). -/
def Trans.allows (t : Trans) (r : Req) : Bool :=
  (!r.rd || t.r) && (!r.wr || t.w) && (r.s2only.isSome || (if r.compute then t.cok else t.qok)) && t.own

/-! ## ACC and DIRTY (R59, R89, R125) -/

/-- A stage-1 leaf's ACC, and DIRTY for a write. -/
def touch1 (e : PTE) (wr : Bool) : PTE := Pte.set (if wr then Pte.set e 13 13 1 else e) 12 12 1
/-- A stage-2 leaf's ACC, and DIRTY for a write. -/
def touch2 (e : PTE) (wr : Bool) : PTE := Pte.set (if wr then Pte.set e 14 14 1 else e) 13 13 1

/-- A walk's marks on a tier-cache page: its reference bit, and its dirty bit with DIRTY. -/
def State.tierMark (s : State) (s2 : PTE) (wr : Bool) : State :=
  if Pte.cls s2 = 2 then
    { s with xlt := { s.xlt with
      dir := s.xlt.dir.upd (Pte.offpn s2 * 4096) (fun d => { d with ref := true, dirty := d.dirty || wr }) } }
  else s

/-- Both leaves marked. -/
def State.markLeaves (s : State) (s1 : Option (Nat × PTE)) (k2 : Nat) (s2 : PTE) (wr : Bool) : State :=
  let t := match s1 with
    | some (k, e) => s.putPte k (touch1 e wr)
    | none => s
  (t.putPte k2 (touch2 s2 wr)).tierMark s2 wr

/-! ## The start of a fault service (R120 to R138) -/

/-- Limits of R122. -/
def faultMax : Nat := 4096
def waiterMax : Nat := 16384

/-- Requests that wait in pending-fault entries. -/
def State.waiterCount (s : State) : Nat := (s.xlt.faults.map (fun e => e.2.waiters.length)).sum

/-- The lowest pending-fault entry that is free. -/
def State.freeFault (s : State) : Option Nat := (rangeFrom 0 faultMax).find? (fun e => (s.xlt.faults.look e).isNone)

/-- Whether a request belongs to a promised delivery class (R92, R133, R352). -/
def State.reqPromised (s : State) (r : Req) : Bool :=
  match r.queue with
  | some q => promisedCls (s.queue r.ctx q).dcls
  | none => false

/-- A request enters the walk queue behind its delivery group (R92). -/
def State.walkEnqueue (s : State) (id : Nat) : State :=
  { (s.updReq id (fun r => { r with phase := .walkQ })) with xlt := { s.xlt with walkQ := dropFrom s.xlt.walkQ id ++ [id] } }

/-- Page Requests outstanding of a function (R137). -/
def State.prgOut (s : State) (f : FnId) : List Nat :=
  (s.xlt.faults.filterMap (fun e => if e.2.func = f ∧ e.2.prgSent then e.2.prgIdx.map BitVec.toNat else none))
  ++ (s.xlt.prgStale.look f.toNat).getD []

/-- Whether a pending fault waits for a place among its function's Page Requests (R137). -/
def PFault.prgWaits (p : PFault) : Bool := p.svc == .host && !p.prgSent && !p.recSent && !p.atsWait

/-- Whether a function can send a Page Request now (R136, R137, R419). -/
def State.prgRoom (s : State) (f : FnId) : Bool :=
  let x := s.fn f
  let k := s.link (s.fnLink f)
  decide ((s.prgOut f).length < min 512 x.priAlloc) && !x.d3hot && !k.frozen && k.dlup

/-- A pending fault's Page Request goes to the host where there is room (R136 step 1, R137). -/
def State.prgSend (s : State) (e : Nat) : State :=
  match s.xlt.faults.look e with
  | none => s
  | some p =>
    if !p.prgWaits || !s.prgRoom p.func then s
    else
      let used := s.prgOut p.func
      match (rangeFrom 0 512).find? (fun i => !used.contains i) with
      | none => s
      | some i =>
        let wr := p.waiters.any (fun w => match s.req? w with
          | some r => r.wr
          | none => false)
        let page := match p.hostPage with
          | some h => h
          | none => Pte.offpn p.leaf + (match p.waiters.head?.bind s.req? with
              | some r => (r.addr.toNat % 2 ^ Pte.lsize p.leaf) / 4096
              | none => 0)
        (s.updPf e (fun x => { x with prgSent := true, prgIdx := some (BitVec.ofNat 9 i), write := wr })).emit
          (.pageReq p.func (BitVec.ofNat 20 (fld (Pte.index p.leaf).toNat 19 0)) page (BitVec.ofNat 9 i) wr)

/-- Whether a function's HOST faults take the PRI path (R136). -/
def Fn.priPath (x : Fn) : Bool := x.ats && x.pri

/-- A HOST fault is taken up (R136, R138, R139): it waits unanswered while its context is orphaned. -/
def State.hostFaultStart (s : State) (e : Nat) (orphan : Bool) : State :=
  match s.xlt.faults.look e with
  | none => s
  | some p =>
    let x := s.fn p.func
    if orphan then s.wakeCheck p.func
    else if (s.link (s.fnLink p.func)).frozen then s.pfFail e Code.portFrozen 0
    else if x.priPath then
      if x.priFail then s.pfFail e Code.hostPathFailed 0 else (s.prgSend e).wakeCheck p.func
    else
      let r := p.waiters.head?.bind s.req?
      let rc : FqRec :=
        { kind := 1, ts := BitVec.ofNat 8 Ts.host, code := 0, reason := 0, ctx := p.ctx
          queue := (r.bind Req.queue).getD 0
          dva := (r.map Req.addr).getD 0
          ca := p.ca
          init := match r with | some y => initId y.who | none => 0
          acc := match r with | some y => y.accBits | none => 0
          vdix := p.vdix
          seq := (r.map Req.seq).getD 0
          time := p.start
          entry := e }
      ((s.updPf e (fun y => { y with recSent := true })).fqPost p.func rc).wakeCheck p.func

/-- Page Requests of a function that wait are sent as places free, in arrival order (R137). -/
def State.prgNext (s : State) (f : FnId) : Nat → State
  | 0 => s
  | fuel + 1 =>
    if !(s.fn f).priPath || (s.fn f).priFail then s
    else
      let ws := s.xlt.faults.filter (fun e => e.2.func == f && e.2.prgWaits)
      match leastBy (fun e => e.2.start.toNat) ws with
      | some e => if s.prgRoom f then State.prgNext (s.prgSend e.1) f fuel else s
      | none => s

/-- Whether a flash page holds a unit marked LOST (R134, R381). -/
def State.flashLost (s : State) (flash lsize : Nat) : Bool :=
  (rangeFrom (flash / 16384) (flashUnits lsize)).any (fun u => match s.ftc.units.look u with
    | some x => x.lost
    | none => false)

/-- The service of a fault that has just been created (R129 to R133, R136): a retained copy is the page again at once. -/
def State.serveFault (s : State) (e : Nat) (orphan : Bool) : State :=
  match s.xlt.faults.look e with
  | none => s
  | some p =>
    let l := Pte.lsize p.leaf
    match p.svc with
    | .host => s.hostFaultStart e orphan
    | .zero => if s.pinFull l (Pte.pin p.leaf) then s.pfFail e Code.xlateUnresolved Rsn.tierPinFull else s
    | .flash =>
      let flash := Pte.offpn p.leaf * 4096
      match s.retainedAt flash with
      | some off => (((s.retainPlace off false).pfWrite p (tierLeaf p.leaf off)).pfEnd e)
      | none =>
        if s.flashLost flash l then s.pfFail e Code.flashUnrecoverable 0
        else if s.pinFull l (Pte.pin p.leaf) then s.pfFail e Code.xlateUnresolved Rsn.tierPinFull
        else s.fillSettle 64
    | _ => s

/-- A walk finds a non-present page (R119, R120, R122). -/
def State.startFault (s : State) (id : Nat) (r : Req) (k2 : Nat) (s2 : PTE) (ca : Nat) (vdix : Vdix) : State :=
  match s.freeFault with
  | none => s.walkEnqueue id
  | some e =>
    let svc := if Pte.ts s2 = Ts.zero then Service.zero else if Pte.ts s2 = Ts.flashed then .flash else .host
    let orphan := match s.ctx? r.ctx with
      | some c => c.orph && r.s2only.isNone
      | none => false
    let p : PFault :=
      { vdix := vdix, ca := pageBase ca (Pte.lsize s2), key := k2, leaf := s2, svc := svc, waiters := [id], start := s.now
        ctx := r.ctx, func := (s.reqFn r).getD 0, write := r.wr }
    let s1 := (s.putPte k2 (Pte.setTs s2 Ts.busy)).updReq id (fun x => { x with phase := .fault e, started := s.now })
    ({ s1 with xlt := { s1.xlt with faults := s1.xlt.faults.put e p } }).serveFault e orphan

/-- A request joins the service of a BUSY page (R121, R122). -/
def State.joinFault (s : State) (id : Nat) (k2 : Nat) : State :=
  if s.waiterCount ≥ waiterMax then s.updReq id Req.rewalk
  else
    match s.xlt.faults.find? (fun e => e.2.key == k2) with
    | some (e, _) =>
      (s.updPf e (fun p => { p with waiters := p.waiters ++ [id] })).updReq id
        (fun r => { r with phase := .fault e, started := s.now })
    | none => s.updReq id Req.rewalk

/-! ## The end of a walk (R87, R119) -/

/-- One request takes the outcome of a walk. -/
def State.walkEnd (s : State) (id quarter : Nat) : State :=
  match s.req? id with
  | none => s
  | some r =>
    let w := s.walkOf quarter r
    match w.1 with
    | .fail reason ca => w.2.failXlate id Code.xlateUnresolved reason 7 ca 0
    | .leaves s1 k2 e2 ca vdix =>
      if !r.permitted (s1.map Prod.snd) e2 then
        w.2.failXlate id Code.xlateUnresolved Rsn.permission (BitVec.ofNat 8 (Pte.ts e2)) (pageBase ca (Pte.lsize e2)) 0
      else if Pte.ts e2 = Ts.mapped then
        let t2 := w.2.markLeaves s1 k2 e2 r.wr
        let n1 := s1.map (fun p => t2.pte p.1)
        let tr := transOf r n1 (t2.pte k2) ca vdix (t2.epochsOf r.s2only.isSome r.ctx vdix)
        (t2.fillFor r.cluster tr).launch id tr
      else if Pte.ts e2 = Ts.relay then w.2.updReq id (fun x => { x with phase := .relay })
      else if Pte.ts e2 = Ts.busy then (w.2.joinFault id k2).remoteRetry id
      else (w.2.startFault id r k2 e2 ca vdix).remoteRetry id

/-- Requests that joined a walk. -/
def State.joinedTo (s : State) (id : Nat) : List Nat := (s.reqs.filter (fun r => r.phase == .joined id)).map Req.id

/-- Busy walkers. -/
def State.walkerBusy (s : State) (w : Nat) : Bool :=
  s.reqs.any (fun r => match r.phase with
    | .walker x => x == w
    | .dirty x => x == w
    | _ => false)

/-- Idle walkers of a region that is not frozen. -/
def State.idleWalkers (s : State) (region : Nat) : List Nat :=
  if s.regionFrozen region then [] else (rangeFrom (32 * region) 32).filter (fun w => !s.walkerBusy w)

/-- The walker that a miss takes (R91): of its cluster's region, else of the region with the most idle walkers. -/
def State.pickWalker (s : State) (home : Option Nat) : Option Nat :=
  let best := leastBy (fun r => 1000 - (s.idleWalkers r).length) [0, 1, 2, 3]
  match home.bind (fun r => (s.idleWalkers r).head?) with
  | some w => some w
  | none => best.bind (fun r => (s.idleWalkers r).head?)

/-- The region whose clusters a request comes from: a cluster holds four slots (R9). -/
def Req.homeRegion (r : Req) : Option Nat := r.cluster.map (fun c => c.toNat / 4)

/-- Whether two requests translate the same key and 4 KiB page (R90). -/
def sameWalk (a b : Req) : Bool :=
  (match a.s2only, b.s2only with
   | some v, some w => v == w
   | none, none => a.ctx == b.ctx
   | _, _ => false) && decide (a.addr.toNat / 4096 = b.addr.toNat / 4096)

/-- Whether a context has as many misses in the walk queue and in walkers as its limit lets it have (R365). -/
def State.walksFull (s : State) (r : Req) : Bool :=
  r.s2only.isNone && decide ((s.reqs.filter (fun o => o.ctx == r.ctx && o.s2only.isNone && (match o.phase with
    | .walker _ => true
    | .walkQ => true
    | _ => false))).length ≥ s.ce .pcrOt 31 24)

/-- A miss joins a walk in progress, takes an idle walker, or waits in the walk queue; a full queue leaves it at its
source, and so does the limit of R365 (R90 to R93). -/
def State.miss (s : State) (id : Nat) (r : Req) : State :=
  match s.reqs.find? (fun o => (match o.phase with
      | .walker _ => true
      | _ => false) && sameWalk o r) with
  | some o => s.updReq id (fun x => { x with phase := .joined o.id })
  | none =>
    if s.walksFull r then s
    else if s.xlt.walkQ.isEmpty then
      match s.pickWalker r.homeRegion with
      | some w => s.updReq id (fun x => { x with phase := .walker w })
      | none => s.walkEnqueue id
    else if s.xlt.walkQ.length < 512 then s.walkEnqueue id
    else s

/-- The next request of the walk queue takes a walker that has become idle: promised classes first (R92). -/
def State.walkNext (s : State) (w : Nat) : State :=
  if s.regionFrozen (walkerRegion w) then s
  else
    let prom (id : Nat) : Bool := match s.req? id with
      | some r => s.reqPromised r
      | none => false
    match (s.xlt.walkQ.filter prom ++ s.xlt.walkQ.filter (fun i => !prom i)).head? with
    | none => s
    | some id =>
      { (s.updReq id (fun r => { r with phase := .walker w })) with
        xlt := { s.xlt with walkQ := dropFrom s.xlt.walkQ id } }

/-- A lookup in L1 and L2 (R80, R82, R89): a hit that allows the access gives the translation, a write to a page not
known dirty waits for a walker, and everything else walks. -/
def State.lookup (s : State) (id : Nat) : State :=
  match s.req? id with
  | none => s
  | some r =>
    if r.s2only.isNone && decide (r.addr.toNat ≥ 2 ^ 57) then s.failXlate id Code.xlateUnresolved Rsn.addrRange 7 0 0
    else
      let v := match r.s2only with
        | some v => v
        | none => s.ctxVdix r.ctx
      let hit (l1 : Option (BitVec 4)) := s.cacheHit l1 r.s2only.isSome r.ctx v r.addr.toNat
      let e := match r.cluster with
        | some c => (match hit (some c) with
            | some x => some x
            | none => hit none)
        | none => hit none
      match e with
      | some x =>
        if !x.t.allows r then s.miss id r
        else
          let s1 := s.cacheTouch x.l1 x.set x.way
          if r.wr && !x.t.dirty then
            match s1.pickWalker r.homeRegion with
            | some w => s1.updReq id (fun y => { y with phase := .dirty w, tr := some x.t })
            | none => s1.walkEnqueue id
          else s1.launch id x.t
      | none => s.miss id r

/-! ## Queries (R239) -/

/-- What a translation of an address finds, changing nothing: the leaves, or none. -/
def State.peekWalk (s : State) (c : CtxId) (a : Nat) : WalkRes :=
  if a ≥ 2 ^ 57 then .fail Rsn.addrRange 0 else s.walk1 (s.readRoot 0 c) a

/-- Whether an access of a context would now need a host path (R183). -/
def State.needsHost (s : State) (c : CtxId) (a : Nat) : Bool :=
  match s.peekWalk c a with
  | .leaves _ _ e _ _ => (Pte.ts e = Ts.mapped && isHostCls (Pte.cls e)) || Pte.ts e = Ts.host
  | .fail _ _ => false

end Sys2Proof.Machine
end

