-- ==== Sys2Proof/Machine/Inv.lean ====
section
/-! DEFINITION. The invalidation engine (R95 to R102): entries, purge, epochs, scrubber, drain. -/

namespace Sys2Proof.Machine

/-- Entries of the engine's groups (R102). -/
def invQueueMax : Nat := 55
def invInternalMax : Nat := 8

/-- Whether an invalidation belongs to a queue, or to the internal port. -/
def Inv.ofQueue (i : Inv) : Bool := match i.src with
  | .queue _ _ => true
  | _ => false
def Inv.ofInternal (i : Inv) : Bool := match i.src with
  | .internal _ => true
  | _ => false

/-- Whether a queue's INV finds an entry. -/
def State.invRoom (s : State) : Bool := decide ((s.xlt.invs.filter Inv.ofQueue).length < invQueueMax)

/-- An invalidation enters the engine. -/
def State.invAdd (s : State) (i : Inv) : State :=
  let n := s.newId
  { n.2 with xlt := { n.2.xlt with invs := n.2.xlt.invs ++ [{ i with id := n.1 }] } }

/-- An internal invalidation enters, or waits at its requester (R102). -/
def State.invInternal (s : State) (op : InvOp) (scope : Nat) (addr : DWord) (after : InvThen) (len : Nat := 1) : State :=
  let i : Inv := { id := 0, src := .internal 0, op := op, scope := scope, addr := addr, len := len, after := after }
  if (s.xlt.invs.filter Inv.ofInternal).length < invInternalMax ∧ s.xlt.invWait.isEmpty then s.invAdd i
  else { s with xlt := { s.xlt with invWait := s.xlt.invWait ++ [i] } }

/-- Internal requests that wait enter, oldest first, as entries free. -/
def State.invRefill (s : State) : State :=
  match s.xlt.invWait with
  | [] => s
  | i :: rest =>
    if (s.xlt.invs.filter Inv.ofInternal).length < invInternalMax then
      ({ s with xlt := { s.xlt with invWait := rest } }).invAdd i
    else s

/-- Whether a span of 4 KiB units meets a page. -/
def spanMeets (a units base lsize : Nat) : Bool :=
  let lo := a / 4096 * 4096
  decide (lo < base + 2 ^ lsize ∧ base < lo + units * 4096)

/-- Units that an operation covers: one page, or its length. -/
def Inv.units (i : Inv) : Nat := match i.op with
  | .range => i.len
  | .s2range => i.len
  | _ => 1

/-- Whether an operation covers a translation (R95). -/
def Inv.covers (i : Inv) (t : Trans) : Bool :=
  match i.op with
  | .page => !t.stage2 && t.ctx.toNat == i.scope && spanMeets i.addr.toNat 1 (t.page * 4096) t.lsize
  | .range => !t.stage2 && t.ctx.toNat == i.scope && spanMeets i.addr.toNat i.len (t.page * 4096) t.lsize
  | .ctx => !t.stage2 && t.ctx.toNat == i.scope
  | .s2page => t.vdix.toNat == i.scope && spanMeets i.addr.toNat 1 t.ca t.lsize
  | .s2range => t.vdix.toNat == i.scope && spanMeets i.addr.toNat i.len t.ca t.lsize
  | .vdev => t.vdix.toNat == i.scope
  | .all => true
  | .l0fn => false

/-- Whether an operation covers a leaf's address: a DVA of a context, or a CA of a virtual device (R72, R621). -/
def Inv.coversLeaf (i : Inv) (s : State) (stage2 : Bool) (owner a lsize : Nat) : Bool :=
  match i.op with
  | .page => !stage2 && owner == i.scope && spanMeets i.addr.toNat 1 a lsize
  | .range => !stage2 && owner == i.scope && spanMeets i.addr.toNat i.len a lsize
  | .ctx => !stage2 && owner == i.scope
  | .s2page => stage2 && owner == i.scope && spanMeets i.addr.toNat 1 a lsize
  | .s2range => stage2 && owner == i.scope && spanMeets i.addr.toNat i.len a lsize
  | .vdev => if stage2 then owner == i.scope else (s.ctxVdix (BitVec.ofNat 14 owner)).toNat == i.scope
  | .all => true
  | .l0fn => false

/-- Whether an operation is carried out by an epoch step (R100). -/
def State.invEpoch (s : State) (i : Inv) : Bool :=
  match i.op with
  | .ctx => true
  | .vdev => true
  | .all => true
  | .range => decide (i.len > 2 ^ s.ce .xltCtrl 11 8)
  | .s2range => decide (i.len > 2 ^ s.ce .xltCtrl 11 8)
  | _ => false

/-- The scope of an epoch: the die, a virtual device or a context (R100), as a number. -/
def Inv.epochScope (i : Inv) : Nat :=
  match i.op with
  | .all => 0
  | .vdev => 1 + i.scope
  | .s2range => 1 + i.scope
  | _ => 1000 + i.scope

/-- The current epoch of a scope. -/
def State.epochAt (s : State) (sc : Nat) : Byte :=
  if sc = 0 then s.xlt.dieEpoch
  else if sc < 1000 then (s.xlt.vdevEpoch.look (sc - 1)).getD 0
  else (s.xlt.ctxEpoch.look (sc - 1000)).getD 0

/-- Whether the next epoch of a scope is usable (R101). -/
def State.epochUsable (s : State) (sc : Nat) : Bool :=
  !(s.xlt.retired.any (fun r => r.scope == sc && r.value == s.epochAt sc + 1))

/-- Sets of L2 (R80). -/
def l2Sets : Nat := 32768

/-- A scope's epoch advances, and the old value retires until the scrubber comes round (R100, R101). -/
def State.epochStep (s : State) (sc : Nat) : State :=
  let old := s.epochAt sc
  let x : Xlt := { s.xlt with retired := s.xlt.retired ++ [{ scope := sc, value := old, left := l2Sets }] }
  { s with xlt :=
      if sc = 0 then { x with dieEpoch := old + 1 }
      else if sc < 1000 then { x with vdevEpoch := x.vdevEpoch.put (sc - 1) (old + 1) }
      else { x with ctxEpoch := x.ctxEpoch.put (sc - 1000) (old + 1) } }

/-- Root-cache entries that an operation removes. -/
def Inv.coversRoot (i : Inv) (e : RootEntry) : Bool :=
  match i.op with
  | .ctx => e.ctx.toNat == i.scope
  | .vdev => e.vdix.toNat == i.scope
  | .all => true
  | _ => false

/-- Requests that used a covered translation and have not reached their ordering point (R97 step 2). -/
def State.drainOf (s : State) (i : Inv) : List Nat :=
  (s.reqs.filter (fun r => r.phase != .accepted && (match r.tr with
    | some t =>
      if i.op = .l0fn then t.cls == 5 && (s.reqFn r).map BitVec.toNat == some i.scope && r.phase == .sent
      else i.covers t
    | none => false))).map Req.id

/-- The purge of an invalidation (R97 step 1, R100, R103). A walk that has not ended reads the tables afterwards. -/
def State.invPurge (s : State) (i : Inv) : State :=
  let drain := s.drainOf i
  let places := (s.xlt.placeWait.filter (fun p => i.coversLeaf s true p.2.1.toNat p.2.2.1 p.2.2.2)).map Prod.fst
  let frames := (s.xlt.unlinks.filter (fun u => i.coversLeaf s u.stage2 u.owner u.addr.toNat u.lsize)).map Unlink.frame
  let s1 := if s.invEpoch i then s.epochStep i.epochScope else s
  let gone (e : CacheEntry) : Bool := i.covers e.t || (e.l1.isSome && !s1.freshT e.t)
  { s1 with xlt := { s1.xlt with
      cache := s1.xlt.cache.filter (fun e => !(if s1.invEpoch i then e.l1.isSome && gone e else gone e))
      roots := s1.xlt.roots.filter (fun e => !i.coversRoot e)
      l0 := if i.op = .l0fn then s1.xlt.l0.filter (fun e => e.func.toNat != i.scope) else s1.xlt.l0
      invs := s1.xlt.invs.map (fun j =>
        if j.id = i.id then { j with purged := true, drain := drain, places := places, frames := frames } else j) } }

/-- Whether every access that an invalidation waits for has reached its ordering point. -/
def State.invDrained (s : State) (i : Inv) : Bool :=
  i.purged && i.drain.all (fun id => match s.req? id with
    | some r => r.phase == .accepted || r.tr.isNone
    | none => true)

/-- The scrubber visits a number of L2 sets (R101). -/
def State.scrubL2 (s : State) (n : Nat) : State :=
  let pos := s.xlt.scrubPos
  let seen (set : Nat) : Bool := decide ((set + l2Sets - pos) % l2Sets < n)
  { s with xlt := { s.xlt with
      cache := s.xlt.cache.filter (fun e => e.l1.isSome || !seen e.set || s.freshT e.t)
      scrubPos := (pos + n) % l2Sets
      retired := (s.xlt.retired.map (fun r => { r with left := r.left - n })).filter (fun r => decide (0 < r.left)) } }

/-- L0 entries of a function removed (R113). -/
def State.l0Drop (s : State) (f : FnId) : State :=
  { s with xlt := { s.xlt with l0 := s.xlt.l0.filter (fun e => e.func != f) } }

end Sys2Proof.Machine
end

