-- ==== Sys2Proof/Machine/XltCmd.lean ====
section
/-! DEFINITION. Meanings of the translation commands: lookups, walks, purges, ATS, PRI and the host side of fault
service (ch. 03, 04). -/

namespace Sys2Proof.Machine

/-- XLATE_LOOKUP. -/
def State.xlateLookup (s : State) (id : Nat) : State :=
  match s.req? id with
  | none => s
  | some r => if r.phase = .lookup ∧ s.runs Blk.xlt then s.lookup id else s

def execXlateLookup (id : Nat) (s : State) : Host.Outcome State Fault Refusal := done (s.xlateLookup id)

/-- WALK: the walker's request and those that joined it take the walk's outcome; the walker takes the next request. -/
def State.walkCmd (s : State) (w : BitVec 7) : State :=
  match s.reqs.find? (fun r => r.phase == .walker w.toNat) with
  | none => if s.walkerBusy w.toNat then s else s.walkNext w.toNat
  | some r =>
    if s.regionFrozen (walkerRegion w.toNat) then s
    else
      let q := walkerRegion w.toNat
      let joined := s.joinedTo r.id
      (forAll joined (s.walkEnd r.id q) (fun t j => t.walkEnd j q)).walkNext w.toNat

def execWalk (w : BitVec 7) (s : State) : Host.Outcome State Fault Refusal := done (s.walkCmd w)

/-- DIRTY_UPDATE (R59, R89): DIRTY is set in leaves that still map the page, and the cached entry knows it. -/
def State.dirtyCmd (s : State) (id : Nat) : State :=
  match s.req? id with
  | none => s
  | some r =>
    match r.phase, r.tr with
    | .dirty w, some t =>
      let res := s.walkOf (walkerRegion w) r
      let s1 := match res.1 with
        | .leaves l1 k2 e2 ca _ =>
          if Pte.ts e2 = Ts.mapped ∧ Pte.cls e2 = t.cls ∧ Pte.index e2 = t.idx ∧
              Pte.offpn e2 * 4096 + ca % 2 ^ Pte.lsize e2 = t.off + r.addr.toNat % 2 ^ t.lsize then
            res.2.markLeaves l1 k2 e2 true
          else res.2
        | .fail _ _ => s
      let s2 : State := { s1 with xlt := { s1.xlt with cache := s1.xlt.cache.map (fun e =>
        if e.t = t then { e with t := { e.t with dirty := true } } else e) } }
      (s2.launch id { t with dirty := true }).walkNext w
    | _, _ => s

def execDirtyUpdate (id : Nat) (s : State) : Host.Outcome State Fault Refusal := done (s.dirtyCmd id)

/-- L2_EPOCH_SCRUB. -/
def execL2EpochScrub (sets : Nat) (s : State) : Host.Outcome State Fault Refusal := done (s.scrubL2 sets)

/-- INV_PURGE_DONE: an epoch step waits for a usable value (R101). -/
def State.invPurgeCmd (s : State) (i : Nat) : State :=
  match s.xlt.invs.find? (fun x => x.id == i) with
  | none => s
  | some x =>
    if x.purged then s
    else if s.invEpoch x && !s.epochUsable x.epochScope then s
    else s.invPurge x

def execInvPurgeDone (i : Nat) (s : State) : Host.Outcome State Fault Refusal := done (s.invPurgeCmd i)

/-! ## ATS (R109 to R114) -/

/-- The largest of the five page sizes that is at most a granted size (R110). -/
def grantLog (l : Nat) : Nat := if l ≥ 30 then 30 else if l ≥ 25 then 25 else if l ≥ 21 then 21 else if l ≥ 16 then 16 else 12

/-- Replacement bits of an L0 set. -/
def l0PlruKey (port set : Nat) : Nat := 0x100000 + port * 256 + set

/-- A grant fills L0 (R80, R84, R110). -/
def State.l0Fill (s : State) (f : FnId) (pasid : BitVec 20) (a : Nat) (pa : DWord) (lsize : Nat) (r w : Bool) : State :=
  let l := grantLog lsize
  let base := pageBase a l
  let p := pa.toNat / 2 ^ lsize * 2 ^ lsize + base % 2 ^ lsize
  let set := Config.l0Set f pasid (base / 4096) % 256
  let mine := s.xlt.l0.filter (fun e => fnPort e.func == fnPort f && e.set == set)
  let key := l0PlruKey (fnPort f) set
  let bits := (s.xlt.plru.look key).getD 0
  let way := match mine.find? (fun e => e.func == f && e.pasid == pasid && e.page == base / 4096) with
    | some e => e.way
    | none =>
      match (rangeFrom 0 8).find? (fun k => !(mine.any (fun e => e.way == k))) with
      | some k => k
      | none => plruFind bits (fun _ => true) 4 0 8
  let new : L0Entry :=
    { func := f, pasid := pasid, page := base / 4096, lsize := l, pa := p / 4096, r := r, w := w, set := set, way := way }
  { s with xlt := { s.xlt with
      l0 := s.xlt.l0.filter (fun e => !(fnPort e.func == fnPort f && e.set == set && e.way == way)) ++ [new]
      plru := s.xlt.plru.put key (plruTouch bits way 4 8) } }

/-- A denied host page of a MAPPED HOST_VA leaf goes to PRI, joining a service of the same page (R109, R136). -/
def State.hostPageFault (s : State) (id : Nat) (r : Req) (t : Trans) (f : FnId) : State :=
  let page := r.targetOff t / 4096
  match s.xlt.faults.find? (fun e => e.2.vdix == t.vdix && e.2.func == f && e.2.hostPage == some page) with
  | some (e, _) =>
    (s.updPf e (fun p => { p with waiters := p.waiters ++ [id] })).updReq id (fun x => { x with phase := .fault e })
  | none =>
    match s.freeFault, s.s2leaf t.vdix t.ca with
    | some e, some (k, leaf) =>
      let p : PFault :=
        { vdix := t.vdix, ca := t.ca, key := k, leaf := leaf, svc := .host, waiters := [id], start := s.now
          ctx := r.ctx, func := f, write := r.wr, hostPage := some page }
      let s1 := s.updReq id (fun x => { x with phase := .fault e, started := s.now })
      ({ s1 with xlt := { s1.xlt with faults := s1.xlt.faults.put e p } }).hostFaultStart e false
    | none, _ => s.walkEnqueue id
    | _, none => s.updReq id Req.rewalk

/-- An ATS completion for a request that waits at its port. -/
def State.atsForReq (s : State) (id : Nat) (r : Req) (t : Trans) (f : FnId) (grant : Option (DWord × Nat × Bool × Bool)) :
    State :=
  match grant with
  | some (pa, l, rd, wr) =>
    let s1 := s.l0Fill f (BitVec.ofNat 20 (fld t.idx.toNat 19 0)) (r.targetOff t) pa l rd wr
    s1.transmit id
  | none => s.hostPageFault id r t f

/-- An ATS completion for a HOST fault after a Success (R136 step 2): a grant writes the leaf MAPPED. -/
def State.atsForFault (s : State) (e : Nat) (p : PFault) (r : Req) (grant : Option (DWord × Nat × Bool × Bool)) : State :=
  match grant with
  | some (pa, l, rd, wr) =>
    let a := Pte.offpn p.leaf * 4096 + r.addr.toNat % 2 ^ Pte.lsize p.leaf
    let s1 := s.l0Fill p.func (BitVec.ofNat 20 (fld (Pte.index p.leaf).toNat 19 0)) a pa l rd wr
    (s1.pfWrite p (Pte.setTs p.leaf Ts.mapped)).pfEnd e
  | none => (s.updPf e (fun x => { x with atsWait := false, prgIdx := none })).prgSend e

/-- ATS_COMPLETION: a grant smaller than 4 KiB counts as denied and is recorded (R110), as does one that does not grant
the access. -/
def State.atsCmd (s : State) (id : Nat) (res : AtsResult) : State :=
  match s.req? id with
  | none => s
  | some r =>
    match s.reqFn r with
    | none => s
    | some f =>
      let small := match res with
        | .granted _ l _ _ => decide (l.toNat < 12)
        | .denied => false
      let grant : Option (DWord × Nat × Bool × Bool) := match res with
        | .granted pa l rd wr =>
          if l.toNat < 12 ∨ (r.wr ∧ !wr) ∨ (r.rd ∧ !rd) then none else some (pa, l.toNat, rd, wr)
        | .denied => none
      let rec1 (t : State) : State :=
        if small then t.raise { src := Src.atsSize, who := .host f, addr := r.addr, akind := .dva } else t
      match r.phase, r.tr with
      | .ats, some t => rec1 (s.atsForReq id r t f grant)
      | .fault e, _ =>
        match s.xlt.faults.look e with
        | some p => if p.atsWait ∧ p.waiters.head? = some id then rec1 (s.atsForFault e p r grant) else s
        | none => s
      | _, _ => s

def execAtsCompletion (id : Nat) (r : AtsResult) (s : State) : Host.Outcome State Fault Refusal := done (s.atsCmd id r)

/-- Invalidate Requests of a function in progress (R112). -/
def State.atsInvCount (s : State) (f : FnId) : Nat := (s.xlt.atsInv.filter (fun e => e.1 == f)).length

/-- ATS_INVALIDATE_REQUEST (R111, R112): a 33rd request waits in posted-credit flow control. -/
def State.atsInvCmd (s : State) (f : FnId) (pasid : BitVec 20) (a : DWord) (lsize : Nat) (glob : Bool) (itag : BitVec 5) :
    State :=
  if s.atsInvCount f ≥ 32 then s
  else
    let lo := pageBase a.toNat lsize
    let meets (e : L0Entry) : Bool :=
      e.func == f && (glob || e.pasid == pasid) &&
      decide (lo < e.page * 4096 + 2 ^ e.lsize ∧ e.page * 4096 < lo + 2 ^ lsize)
    let gone := s.xlt.l0.filter meets
    let used (r : Req) : Bool := match r.tr with
      | some t => t.cls == 5 && s.reqFn r == some f && r.phase == .sent && r.rd &&
          gone.any (fun e => BitVec.ofNat 20 (fld t.idx.toNat 19 0) == e.pasid &&
            decide (pageBase (r.targetOff t) e.lsize = e.page * 4096))
      | none => false
    { s with xlt := { s.xlt with
        l0 := s.xlt.l0.filter (fun e => !meets e)
        atsInv := s.xlt.atsInv ++ [(f, itag, (s.reqs.filter used).map Req.id)] } }

def execAtsInvalidateRequest (f : FnId) (pasid : BitVec 20) (addr : DWord) (lsize : BitVec 6) (glob : Bool)
    (itag : BitVec 5) (s : State) : Host.Outcome State Fault Refusal := done (s.atsInvCmd f pasid addr lsize.toNat glob itag)

/-- ATS_INVALIDATION_COMPLETION: sent once every read that used a removed entry has completed (R111). -/
def State.atsInvDoneCmd (s : State) (f : FnId) (itag : BitVec 5) : State :=
  match s.xlt.atsInv.find? (fun e => e.1 == f && e.2.1 == itag) with
  | none => s
  | some e =>
    if e.2.2.any (fun id => (s.req? id).isSome) || !s.hostRoom f 1 then s
    else
      ({ s with xlt := { s.xlt with atsInv := s.xlt.atsInv.filter (fun x => !(x.1 == f && x.2.1 == itag)) } }).hostPush f
        (.atsInvDone f itag)

def execAtsInvalidationCompletion (f : FnId) (itag : BitVec 5) (s : State) : Host.Outcome State Fault Refusal :=
  done (s.atsInvDoneCmd f itag)

/-- INBOUND_ATS_OR_TRANSLATED (R114, R408): an Unsupported Request; while the link is frozen nothing is recorded (R425). -/
def State.inboundAtsCmd (s : State) (f : FnId) (a : DWord) : State :=
  let l := s.fnLink f
  let s1 := s.emit (.unsupported f)
  if !(s.link l).dlup then s
  else if (s.link l).frozen then s1
  else s1.raise { src := Src.hpxUrIn l, who := .host f, addr := a, acc := .message, akind := .host }

def execInboundAtsOrTranslated (f : FnId) (addr : DWord) (s : State) : Host.Outcome State Fault Refusal :=
  done (s.inboundAtsCmd f addr)

/-- Requests of a function that wait for an ATS grant leave again under the new setting. -/
def State.atsRetry (s : State) (f : FnId) : State :=
  forAll ((s.reqs.filter (fun r => r.phase == .ats && s.reqFn r == some f)).map Req.id) s State.transmit

/-- A function's ATS Enable takes a value (R113, R139). -/
def State.atsEnable (s : State) (f : FnId) (en : Bool) : State :=
  if (s.fn f).ats = en then s
  else
    let s1 := (s.updFn f (fun x => { x with ats := en })).l0Drop f
    if en then s1 else (s1.pfHostEnd (fun p => p.func == f) Code.hostPathFailed 0).atsRetry f

def execAtsEnableChange (f : FnId) (en : Bool) (s : State) : Host.Outcome State Fault Refusal := done (s.atsEnable f en)

/-- A function's PASID Enable takes a value; VFs use their PF's (R113, R410). -/
def State.pasidEnable (s : State) (f : FnId) (en : Bool) : State :=
  if (s.fn f).pasid = en ∨ !s.isPf f then s
  else
    let l := s.fnLink f
    let s1 := s.updFn f (fun x => { x with pasid := en })
    { s1 with xlt := { s1.xlt with l0 := s1.xlt.l0.filter (fun e => s.fnLink e.func != l) } }

def execPasidEnableChange (f : FnId) (en : Bool) (s : State) : Host.Outcome State Fault Refusal := done (s.pasidEnable f en)

/-! ## Fault service toward hosts (R136 to R142) -/

/-- Stopped of PRI Status is set once no Page Request is outstanding while PRI Enable is 0 (R139). -/
def State.prgStopCheck (s : State) (f : FnId) : State :=
  if !(s.fn f).pri && (s.prgOut f).isEmpty then s.updFn f (fun x => { x with priStopped := true }) else s

/-- PRG_RESPONSE (R136, R137, R425). -/
def State.prgCmd (s : State) (f : FnId) (idx : BitVec 9) (code : PrgCode) : State :=
  if (s.link (s.fnLink f)).frozen then s
  else
    match s.xlt.faults.find? (fun e => e.2.func == f && e.2.prgSent && e.2.prgIdx == some idx) with
    | some (e, p) =>
      let s1 := s.updPf e (fun x => { x with prgSent := false, prgIdx := none })
      let s2 := match code with
        | .success =>
          let page := match p.hostPage with
            | some h => h
            | none => Pte.offpn p.leaf
          let id := (p.waiters.head?).getD 0
          (s1.updPf e (fun x => { x with atsWait := true })).emit
            (.atsReq f (BitVec.ofNat 20 (fld (Pte.index p.leaf).toNat 19 0)) page id)
        | .invalidRequest => s1.pfFail e Code.xlateUnresolved Rsn.hostRefused
        | .responseFailure => (s1.updFn f (fun x => { x with priFail := true })).pfFail e Code.hostPathFailed 0
      (s2.prgNext f 512).prgStopCheck f
    | none =>
      let stale := (s.xlt.prgStale.look f.toNat).getD []
      if stale.contains idx.toNat then
        (({ s with xlt := { s.xlt with prgStale := s.xlt.prgStale.put f.toNat (dropFrom stale idx.toNat) } }).prgNext f 512).prgStopCheck f
      else s.raise { src := Src.priStray, who := .host f, acc := .message }

def execPrgResponse (f : FnId) (idx : BitVec 9) (code : PrgCode) (s : State) : Host.Outcome State Fault Refusal :=
  done (s.prgCmd f idx code)

/-- HOST_FAULT_TIMEOUT (R139). -/
def State.hostTimeoutCmd (s : State) (e : Nat) : State :=
  match s.xlt.faults.look e with
  | none => s
  | some p =>
    let ms := s.rf .xltFltCtrl 23 8
    if p.svc = .host ∧ ms ≠ 0 ∧ s.since p.start ≥ ms * 1000000 then s.pfFail e Code.hostPathFailed Rsn.hostTimeout else s

def execHostFaultTimeout (e : BitVec 12) (s : State) : Host.Outcome State Fault Refusal := done (s.hostTimeoutCmd e.toNat)

/-- PRI_ENABLE_CLEAR (R139). -/
def State.priClear (s : State) (f : FnId) : State :=
  if !(s.fn f).pri then s
  else
    let s1 := s.updFn f (fun x => { x with pri := false })
    (s1.pfHostEnd (fun p => p.func == f) Code.hostPathFailed 0).prgStopCheck f

def execPriEnableClear (f : FnId) (s : State) : Host.Outcome State Fault Refusal := done (s.priClear f)

/-- QUEUE_CONSUMER_POLL (R140, R142, R173): the consumer index is read again, and waiting records are written. A queue
whose header lies in SMS is read there. -/
def State.pollCmd (s : State) (rq : RecQueue) (cons : Word) : State :=
  match rq with
  | .fault f => s.fqDrain f 65536
  | .hostCq c => (s.updCtx c (fun x => { x with cqCons := cons })).cqDrain c 65536
  | .devCq c => (s.updCtx c (fun x => { x with dcqCons := cons })).cqDrain c 65536

def execQueueConsumerPoll (rq : RecQueue) (cons : Word) (s : State) : Host.Outcome State Fault Refusal :=
  done (s.pollCmd rq cons)

/-! ## Zero-fill (R130, R132) -/

/-- A tier-cache page written with zeros under an owner's tag. -/
def State.tierZero (s : State) (off lsize : Nat) (own : CtxId) : State :=
  let a := tierBase + off
  let n := 2 ^ lsize
  let s1 : State := { s with mem := { s.mem with
    bytes := s.mem.bytes.filter (fun c => !(decide (a ≤ c.1) && decide (c.1 < a + n))) } }
  forAll (rangeFrom 0 (n / 64)) s1 (fun t k => t.putLine (a + 64 * k) { tag := own, owned := true, poison := false })

/-- A filled page becomes the page by a compare on BUSY, or is discarded (R130 step 4, R132); its waiters walk again. -/
def State.fillEnd (s : State) (e : Nat) (p : PFault) (off : Nat) (d : DirEntry) : State :=
  if s.pfStands p then
    let s1 : State := { s with xlt := { s.xlt with dir := s.xlt.dir.put off d } }
    (s1.pfWrite p (tierLeaf p.leaf off)).pfEnd e
  else ((s.freePlace off).pfEnd e)

/-- ZERO_FILL_COMPLETE. -/
def State.zeroFillCmd (s : State) (e : Nat) : State :=
  match s.xlt.faults.look e with
  | none => s
  | some p =>
    if p.svc ≠ .zero then s
    else
      let l := Pte.lsize p.leaf
      match s.takePlace l (Pte.pin p.leaf) with
      | none =>
        if s.ftc.wrstop && !s.cleanRoom l && !s.pinFull l (Pte.pin p.leaf) then s.pfFail e Code.xlateUnresolved Rsn.flashFull
        else s
      | some (off, s1) =>
        (s1.tierZero off l (Pte.owner p.leaf)).fillEnd e p off
          { vdix := p.vdix, ca := p.ca, lsize := l, flash := none, lp := false, dirty := true, ref := true
            owner := Pte.owner p.leaf }

def execZeroFillComplete (e : BitVec 12) (s : State) : Host.Outcome State Fault Refusal := done (s.zeroFillCmd e.toNat)

end Sys2Proof.Machine
end

