-- ==== Sys2Proof/Machine/Mover.lean ====
section
/-! DEFINITION. Mover channels (R322 to R327, R331, R332, R343, R344) and the descriptor rings of the control cores
(R347 to R350): how a placed descriptor reads, converts and writes its segments, one read and one write at a time. -/

namespace Sys2Proof.Machine

/-! ## Segments of a descriptor -/

/-- Elements of the segment that begins at an element: a stripe of a CONTRIB, else 2,048 elements or 4 KiB. -/
def State.segLen (s : State) (d : Desc) (e : Nat) : Nat :=
  match d.agg with
  | some a =>
    match s.aggPar a with
    | some p => min (2 ^ p.lstripe) (d.len - e)
    | none => d.len - e
  | none => min (if d.conv.isSome then 2048 else 4096) (d.len - e)

/-- Bytes of a descriptor's destination that are still to be written. -/
def Desc.dstLeft (d : Desc) : Nat := d.dstBytes d.len - (d.dstBytes d.pos + d.wrOff)

/-- Bytes or elements of a descriptor whose writes were accepted (R349). -/
def Desc.doneCount (d : Desc) : Nat :=
  match d.cv with
  | none => d.pos + d.wrOff
  | some c =>
    let part := if c.dst.mx then d.wrOff / c.dst.blockBytes * 32 else d.wrOff * 8 / c.dst.bits
    min d.len (d.pos + min part d.outn)

/-! ## Requests of a channel -/

/-- Initiator index of a channel (R558). -/
def chanWho (ch : Nat × Nat) : Who := .mover (BitVec.ofNat 8 (32 * ch.1 + ch.2))

/-- The translation that a PRA side stands for (R347): no table names it. -/
def praTrans (s : State) (cls : Byte) (idx : BitVec 24) (own : CtxId) : Trans :=
  { ctx := own
    lsize := 64
    cls := cls
    idx := idx
    owner := own
    lp := (s.lapOf own true).toNat.testBit 0
    r := true
    w := true
    own := true
    dirty := true }

/-- The cluster of a context's slot (R9). -/
def State.clusterOf (s : State) (c : CtxId) : Option (BitVec 4) := (s.slotOf c).map (fun n => BitVec.ofNat 4 (n / 4))

/-- An access of a descriptor begins: a DVA side is translated; a PRA side goes to its target at once. -/
def State.descReq (s : State) (d : Desc) (ch : Nat × Nat) (side : Side) (off n : Nat) (wr : Bool) (p : Purpose)
    (poison : Bool) : State :=
  let x := s.newId
  match side, d.owner with
  | .dva a, .queue c q seq =>
    x.2.addReq
      { id := x.1, who := chanWho ch, cluster := s.clusterOf c, ctx := c, queue := some q, seq := seq
        addr := a + BitVec.ofNat 64 off, len := n, rd := !wr, wr := wr, purpose := p, poison := poison, started := s.now }
  | .pra cls idx o own, _ =>
    (x.2.addReq
      { id := x.1, who := chanWho ch, ctx := own, addr := BitVec.ofNat 64 (o + off), len := n, rd := !wr, wr := wr
        purpose := p, tr := some (praTrans s cls idx own), poison := poison, started := s.now }).transmit x.1
  | _, _ => s

/-! ## The buffer of a channel (R325) -/

/-- Bytes that a channel's buffer holds. -/
def State.descHeld (s : State) (d : Desc) : Nat :=
  (d.segs.map (fun g => g.bytes.length)).sum + d.outb.length +
  (if d.reading ∨ 0 < d.rdOff then d.srcBytes (s.segLen d d.rpos) else 0)

/-- Whether the read engine may begin the next segment. -/
def State.descRoom (s : State) (d : Desc) : Bool :=
  let h := s.descHeld d
  let b := d.srcBytes (s.segLen d d.rpos)
  h = 0 || decide (0 < d.rdOff) || decide (h + b ≤ 65536 * (1 + d.pool))

/-- 64 KiB units of a unit's shared pool that are lent. -/
def State.poolUsed (s : State) (u : Nat) : Nat :=
  ((s.map.descs.filter (fun d => match d.chan with
    | some p => p.1 == u
    | none => false)).map Desc.pool).sum

/-- Units of a shared pool. -/
def poolUnits : Nat := 64

/-- Units that a descriptor's buffered bytes need beyond the channel's minimum. -/
def poolNeed (held : Nat) : Nat := (held + 65535) / 65536 - 1

/-- Whether a descriptor may wait for a unit of the pool: it lacks room and is below its limit. -/
def State.poolWants (s : State) (d : Desc) : Bool :=
  !d.reading && decide (d.rpos < d.len) && !s.descRoom d && decide (1 + d.pool < s.ce .mapCtrl 12 8)

/-! ## The steps of a channel -/

/-- The lines of a write piece that share the poison flag of its first line: their bytes, and the flag (R332). -/
def poisonRun (ps : List Bool) : List (Nat × Nat × Nat) → Nat × Bool
  | [] => (0, false)
  | p :: rest =>
    let flag := (ps.take p.2.2).any id
    let tail := poisonRun (ps.drop p.2.2) rest
    if tail.1 ≠ 0 ∧ tail.2 = flag then (p.2.2 + tail.1, flag) else (p.2.2, flag)

/-- The address that a side gives at an offset. -/
def Side.addrAt (x : Side) (off : Nat) : Nat :=
  match x with
  | .dva a => a.toNat + off
  | .pra _ _ o _ => o + off
  | .inline _ => off

/-- The next write of a channel (R331): consecutive bytes within 4 KiB, within the burst, of one poison flag. -/
def Desc.writePiece (d : Desc) : Nat × Bool :=
  let a := d.dst.addrAt (d.dstBytes d.pos + d.wrOff)
  let room := min (d.outb.length - d.wrOff) (4096 - a % 4096)
  let n := if d.paced.isSome then min room d.credit else room
  poisonRun (d.outPoison.drop d.wrOff) (spanLines a n)

/-- The source of random values of a descriptor's conversion (R285): keyed by its instruction; a ring's descriptor has
none, and draws free values. -/
def State.descRng (s : State) (d : Desc) : Rng :=
  match d.owner with
  | .queue c q seq =>
    if s.ce .mapSrndCtrl 16 16 = 1 then { key := some (srndKey (s.ce .mapSrndCtrl 14 0) c q seq), free := s.free }
    else { key := none, free := s.free }
  | _ => { key := none, free := s.free }

/-- The initiator of a descriptor's queue, or of its ring (R332, R558). -/
def State.descWho (s : State) (d : Desc) : Who :=
  match d.owner with
  | .queue c _ _ => s.threadOf c
  | .ring r _ => .core r
  | .internal => .hw

/-- What FLC is told about a descriptor. -/
def State.descFault (s : State) (d : Desc) (src : BitVec 9) (reason code : Byte) : FaultIn :=
  match d.owner with
  | .queue c q seq =>
    { src := src, who := s.descWho d, reason := reason, code := code, ctx := some c, queue := some q, iseq := seq }
  | _ => { src := src, who := s.descWho d, reason := reason, code := code }

/-- A stripe of a CONTRIB is quantized and masked (R299, R300): it is then being sent. A poisoned source byte fails the
CONTRIB. -/
def State.startStripe (s : State) (d : Desc) (ch : Nat × Nat) (a : AggTo) (g : Seg) (rest : List Seg) : State :=
  match d.cv, s.aggPar a with
  | some c, some p =>
    if g.poison.any id then
      (s.failDesc d.id Code.aggQuorumLost).raise (s.descFault d Src.aggPoison 0 Code.aggQuorumLost)
    else
      let w := p.stripe a.party c.src c.rnd g.bytes g.first (a.first + g.first) g.count 0 (s.descRng d)
      let s1 := ({ s with free := w.2.2.2.free }).updDesc d.id (fun x =>
        { x with segs := rest, outn := g.count, outb := wordBytes p.mode w.1, outPoison := [], outFl := (w.2.1, w.2.2.1, 0)
                 writing := true })
      if a.home then s1
      else
        let x := s1.newId
        match d.owner with
        | .queue q qi seq =>
          (x.2.addReq
            { id := x.1, who := chanWho ch, ctx := q, queue := some qi, seq := seq, addr := BitVec.ofNat 64 (a.first + g.first)
              len := (wordBytes p.mode w.1).length, rd := false, wr := true, purpose := .aggSend d.id
              tr := some { praTrans s 7 (BitVec.ofNat 24 (fld a.handle.toNat 31 16)) q with cls := 7 }
              started := s.now }).transmit x.1
        | _ => s1
  | _, _ => s.failDesc d.id Code.aggQuorumLost

/-- A segment that has been read begins to be written: it is converted (R326). A write that begins again after R327 goes on
at the byte that it had reached. -/
def State.startSeg (s : State) (d : Desc) (ch : Nat × Nat) (g : Seg) (rest : List Seg) : State :=
  match d.agg, d.cv with
  | some a, _ => s.startStripe d ch a g rest
  | none, some c =>
    let o := convert c g.bytes g.poison g.first g.count (s.descRng d)
    ({ s with free := o.rng.free }).updDesc d.id (fun x =>
      { x with segs := rest, outn := g.count, outb := o.bytes, outPoison := o.poison, outFl := (o.ovf, o.unf, o.inv) })
  | none, none =>
    s.updDesc d.id (fun x =>
      { x with segs := rest, outn := g.count, outb := g.bytes, outPoison := g.poison, outFl := (0, 0, 0) })

/-- A segment has been written. -/
def Desc.endSeg (d : Desc) : Desc :=
  { d with pos := d.pos + d.outn, outn := 0, outb := [], outPoison := [], wrOff := 0, writing := false
           ovf := d.ovf + d.outFl.1, unf := d.unf + d.outFl.2.1, inv := d.inv + d.outFl.2.2, outFl := (0, 0, 0) }

/-- The 16 B status record of CONVERT (R245). -/
def Desc.statusBytes (d : Desc) : List Byte :=
  leBytes 4 (sat32 d.ovf).toNat ++ leBytes 4 (sat32 d.unf).toNat ++ leBytes 4 (sat32 d.inv).toNat ++ leBytes 4 (sat32 d.len).toNat

/-- The write side of a channel: the end of a segment, the next write, or the next segment. -/
def State.pumpWrite (s : State) (d : Desc) (ch : Nat × Nat) : Option State :=
  if d.writing then none
  else if 0 < d.outn then
    if d.wrOff ≥ d.outb.length then some (s.updDesc d.id Desc.endSeg)
    else if d.paced.isSome ∧ d.credit = 0 then none
    else
      let p := d.writePiece
      let bs := (d.outb.drop d.wrOff).take p.1
      some ((s.updDesc d.id (fun x => { x with writing := true })).descReq d ch d.dst (d.dstBytes d.pos + d.wrOff) p.1 true
        (.descWrite d.id bs p.2) p.2)
  else
    match d.segs with
    | g :: rest => some (s.startSeg d ch g rest)
    | [] =>
      match d.status with
      | some a =>
        if d.pos = d.len then
          some ((s.updDesc d.id (fun x => { x with writing := true })).descReq d ch (.dva a) 0 16 true
            (.statusRec d.id d.statusBytes) false)
        else none
      | none => none

/-- The read side of a channel: the end of a segment's reads, an inline source, or the next read. -/
def State.pumpRead (s : State) (d : Desc) (ch : Nat × Nat) : Option State :=
  if d.reading || decide (d.rpos ≥ d.len) then none
  else
    let n := s.segLen d d.rpos
    let b := d.srcBytes n
    let off := d.srcBytes d.rpos
    if d.rdOff ≥ b then
      some (s.updDesc d.id (fun x =>
        { x with segs := x.segs ++ [{ first := x.rpos, count := n, bytes := x.buf, poison := x.bufPoison }]
                 rpos := x.rpos + n, rdOff := 0, buf := [], bufPoison := [] }))
    else
      match d.src with
      | .inline bs =>
        let got := (bs.drop off).take b
        some (s.updDesc d.id (fun x => { x with rdOff := b, buf := got, bufPoison := List.replicate got.length false }))
      | _ =>
        if !s.descRoom d then none
        else
          let k := min (b - d.rdOff) (4096 - d.src.addrAt (off + d.rdOff) % 4096)
          some ((s.updDesc d.id (fun x => { x with reading := true })).descReq d ch d.src (off + d.rdOff) k false
            (.descRead d.id) false)

/-- A placed descriptor does all that it can do now. -/
def State.pump (s : State) (id : Nat) : Nat → State
  | 0 => s
  | fuel + 1 =>
    match s.desc? id with
    | none => s
    | some d =>
      match d.chan with
      | none => s
      | some ch =>
        if d.finished then s
        else
          match s.pumpWrite d ch with
          | some t => State.pump t id fuel
          | none =>
            match s.pumpRead d ch with
            | some t => State.pump t id fuel
            | none => s.updDesc id (fun x => { x with pool := min x.pool (poolNeed (s.descHeld x)), poolWait := s.poolWants x })

/-- Steps that one event can set off in a channel. -/
def pumpMax : Nat := 12

/-- Units of the pool go round the channels that wait for one, starting after the channel that received the last (R325). -/
def State.poolServe (s : State) (u : Nat) : Nat → State
  | 0 => s
  | fuel + 1 =>
    let last := (s.map.poolLast.look u).getD 31
    let ws := s.map.descs.filterMap (fun d => match d.chan with
      | some p => if p.1 = u ∧ d.poolWait then some (p.2, d.id) else none
      | none => none)
    if s.poolUsed u ≥ poolUnits then s
    else
      match leastBy (fun (p : Nat × Nat) => (p.1 + 31 - last) % 32) ws with
      | none => s
      | some p =>
        let s1 := s.updDesc p.2 (fun d => { d with pool := d.pool + 1, poolWait := false })
        State.poolServe (({ s1 with map := { s1.map with poolLast := s1.map.poolLast.put u p.1 } }).pump p.2 pumpMax) u fuel

/-! ## Pacing lines (R342, R343) -/

/-- Credits of a line. -/
def State.paceCredits (s : State) (n : Nat) : Nat := (s.map.credits.look n).getD 0

/-- Bytes of a burst of a line. -/
def State.burstBytes (s : State) (n : Nat) : Nat := 64 * 2 ^ s.rf .mapPaceCfg 15 12 [n]

/-- Whether a descriptor would take a credit of a line now. -/
def Desc.wantsCredit (d : Desc) (n : Nat) : Bool :=
  d.paced == some (BitVec.ofNat 6 n) && d.chan.isSome && !d.finished && decide (d.credit = 0) && decide (0 < d.dstLeft)

/-- Credits of a line go one at a time to its paced descriptors that hold none, in the order of their placement. -/
def State.paceServe (s : State) (n : Nat) : Nat → State
  | 0 => s
  | fuel + 1 =>
    if s.paceCredits n = 0 then s
    else
      match leastBy Desc.placed (s.map.descs.filter (fun d => d.wantsCredit n)) with
      | none => s
      | some d =>
        let s1 : State := { s with map := { s.map with credits := s.map.credits.put n (s.paceCredits n - 1) } }
        State.paceServe ((s1.updDesc d.id (fun x => { x with credit := min (s.burstBytes n) x.dstLeft })).pump d.id pumpMax) n fuel

/-- An event of a descriptor has happened: its channel goes on, and so do the pool and the line that it uses. -/
def State.drive (s : State) (id : Nat) : State :=
  match s.desc? id with
  | none => s
  | some d =>
    let s1 := s.pump id pumpMax
    let s2 := match d.paced with
      | some n => s1.paceServe n.toNat 32
      | none => s1
    match d.chan with
    | some p => s2.poolServe p.1 32
    | none => s2

/-- PACE_PULSE (R342): the counters count whenever islands I90 to I92 are powered. -/
def State.pacePulse (s : State) (n : Nat) : State :=
  if !([90, 91, 92].any (fun i => s.rpc.islands.contains i)) then s
  else if s.paceCredits n ≥ 4095 then s.raise { src := Src.paceOverrun }
  else ({ s with map := { s.map with credits := s.map.credits.put n (s.paceCredits n + 1) } }).paceServe n 32

def execPacePulse (n : BitVec 6) (s : State) : Host.Outcome State Fault Refusal := done (s.pacePulse n.toNat)

/-! ## Placement -/

/-- A descriptor is placed on a channel and begins. -/
def State.placeDesc (s : State) (id : Nat) (ch : Nat × Nat) : State :=
  let x := s.newId
  ((x.2.takeChan id ch).updDesc id (fun d => { d with placed := x.1 })).drive id

/-- A queue's descriptor has been accepted by MAP: MOVE with B = 0 retires, B = 1 waits for its writes (R244). -/
def State.descAccepted (s : State) (d : Desc) : State :=
  match d.owner with
  | .queue c q _ =>
    match (s.queue c q).wait with
    | some (.channel k) =>
      if k ≠ d.id then s
      else if d.bbit then s.updQ c q (fun x => { x with wait := some (.moveB d.id) })
      else s.retireWait c q 0 0
    | _ => s
  | _ => s

/-- CHANNEL_WAIT_PLACE (R324): the first waiting descriptor that a channel can take is placed. -/
def State.channelPlace (s : State) : State :=
  let can (id : Nat) : Option (Nat × Nat × Nat) :=
    match s.desc? id with
    | some d => (s.chooseChan d).map (fun ch => (id, ch))
    | none => none
  match s.chanOrder.filterMap can with
  | [] => s
  | (id, ch) :: _ =>
    match s.desc? id with
    | none => s
    | some d => (s.descAccepted d).placeDesc id ch

def execChannelWaitPlace (s : State) : Host.Outcome State Fault Refusal := done s.channelPlace

/-- A new descriptor of a queue or a ring takes a channel, or waits for one; the answer tells which. -/
def State.startDesc (s : State) (d : Desc) : Bool × State :=
  let s1 : State := { s with map := { s.map with descs := s.map.descs ++ [d] } }
  if !s1.map.chanWait.isEmpty && (s1.chanOrder.any (fun k => match s1.desc? k with
      | some e => (s1.chooseChan e).isSome && (s1.descPromised e || !s1.descPromised d)
      | none => false)) then (false, s1.chanQueue d.id)
  else
    match s1.chooseChan d with
    | some ch => (true, s1.placeDesc d.id ch)
    | none => (false, s1.chanQueue d.id)

/-! ## Descriptor rings (R347 to R350) -/

/-- A ring. -/
def State.ring (s : State) (r : Nat) : Ring := s.map.rings.getD r {}

/-- A ring changed. -/
def State.updRing (s : State) (r : Nat) (f : Ring → Ring) : State :=
  { s with map := { s.map with rings := modAt f s.map.rings r } }

/-- SMS address of a ring's descriptor, and of a record of its completion queue. -/
def Ring.descAddr (x : Ring) (n : Nat) : Nat := fwBase + x.base + n % 2 ^ x.lsize * 64
def Ring.recAddr (x : Ring) (n : Nat) : Nat := fwBase + x.cqbase + n % 2 ^ x.lcq * 16

/-- Classes that a ring descriptor may name (R347). -/
def ringClass (c : Nat) : Bool := c = 1 || c = 2 || c = 3 || c = 4 || c = 0x0A

/-- Reserved bits of a descriptor (R347). -/
def ringReserved (w : Nat) : Bool :=
  fld w 7 5 ≠ 0 || fld w 31 14 ≠ 0 || fld w 63 48 ≠ 0 || fld w 127 104 ≠ 0 || fld w 191 176 ≠ 0 || fld w 255 238 ≠ 0 ||
  fld w 319 304 ≠ 0 || fld w 383 366 ≠ 0 || fld w 511 448 ≠ 0 || (!w.testBit 3 && fld w 47 32 ≠ 0)

/-- HEAD of a ring advances past each run of completed descriptors (R348). -/
def Ring.advance (x : Ring) : Nat → Ring
  | 0 => x
  | fuel + 1 =>
    if x.finished.contains x.head.toNat then
      Ring.advance { x with head := x.head + 1, finished := dropFrom x.finished x.head.toNat } fuel
    else x

/-- Completion records of a ring are written while its queue has space, oldest first (R349): the record, the producer
index, the interrupt. -/
def State.ringRecords (s : State) (r : Nat) : Nat → State
  | 0 => s
  | fuel + 1 =>
    let x := s.ring r
    match x.recWait with
    | [] => s
    | c :: rest =>
      if (x.prod - x.cons).toNat ≥ 2 ^ x.lcq then s
      else
        let bs := leBytes 8 c.tag.toNat ++ leBytes 5 c.count ++ leBytes 1 c.code.toNat ++ leBytes 2 (b2n c.poison)
        let s1 := s.smsWrite (x.recAddr x.prod.toNat) bs none false
        let s2 := s1.updRing r (fun y =>
          ({ y with recWait := rest, prod := y.prod + 1, finished := y.finished ++ [c.slot] }).advance (2 ^ y.lsize + 1))
        State.ringRecords (if c.irq then s2.icuPulse (16 + r) else s2) r fuel

/-- A ring descriptor has completed: OWN is cleared, and its record is written or waits. -/
def State.ringEnd (s : State) (r slot : Nat) (tag : DWord) (count : Nat) (code : Byte) (poison irq : Bool) : State :=
  let x := s.ring r
  let a := x.descAddr slot
  let b := ((s.smsRead a 1 none (.core (BitVec.ofNat 4 r))).1).getD 0 0
  let s1 := s.smsWrite a [b &&& 0xFE] none false
  let s2 := s1.updRing r (fun y =>
    { y with inflight := dropFrom y.inflight slot
             recWait := y.recWait ++ [{ slot := slot, tag := tag, count := count, code := code, poison := poison, irq := irq }] })
  s2.ringRecords r 4097

/-- A descriptor that a ring's core has written, as a mover descriptor. -/
def ringDesc (id r slot w : Nat) : Desc :=
  { id := id
    owner := .ring (BitVec.ofNat 4 r) slot
    src := .pra (BitVec.ofNat 8 (fld w 223 216)) (BitVec.ofNat 24 (fld w 215 192)) (fld w 175 128) (BitVec.ofNat 14 (fld w 237 224))
    dst := .pra (BitVec.ofNat 8 (fld w 351 344)) (BitVec.ofNat 24 (fld w 343 320)) (fld w 303 256) (BitVec.ofNat 14 (fld w 365 352))
    conv := if w.testBit 3 then some (BitVec.ofNat 16 (fld w 47 32)) else none
    len := fld w 103 64
    paced := if w.testBit 4 then some (BitVec.ofNat 6 (fld w 13 8)) else none
    tag := BitVec.ofNat 64 (fld w 447 384)
    irq := w.testBit 2
    fence := w.testBit 1 }

/-- The ring's next descriptor starts, fails at once, or completes at once with length 0. -/
def State.ringStart (s : State) (r slot w : Nat) : State :=
  let x := s.newId
  let d := ringDesc x.1 r slot w
  let s1 := x.2.updRing r (fun y => { y with next := y.next + 1, inflight := y.inflight ++ [slot] })
  let bad (reason : Byte) : State :=
    (s1.ringEnd r slot d.tag 0 Code.xlateUnresolved false d.irq).raise
      { src := Src.xltFaultUnres, who := .core (BitVec.ofNat 4 r), reason := reason, code := Code.xlateUnresolved }
  if ringReserved w then bad Rsn.encRsv
  else if !(ringClass (fld w 223 216) && ringClass (fld w 351 344)) then bad Rsn.ringClass
  else if d.len = 0 then s1.ringEnd r slot d.tag 0 0 false d.irq
  else (s1.startDesc d).2

/-- A ring takes up the descriptors that its tail covers, at most four in flight (R348). -/
def State.ringRun (s : State) (r : Nat) : Nat → State
  | 0 => s
  | fuel + 1 =>
    let x := s.ring r
    if !x.running || x.stopped || decide (x.inflight.length ≥ 4) || decide (x.next = x.tail) || !s.runs Blk.map then s
    else
      let slot := x.next.toNat
      let got := s.smsRead (x.descAddr slot) 64 none (.core (BitVec.ofNat 4 r))
      let w := leVal got.1
      let s1 := got.2.2
      if !w.testBit 0 then
        (s1.updRing r (fun y => { y with stopped := true })).raise { src := Src.ringOwn, who := .core (BitVec.ofNat 4 r) }
      else if w.testBit 1 ∧ !(x.inflight.isEmpty && x.recWait.isEmpty && decide (x.head = x.next)) then s
      else State.ringRun (s1.ringStart r slot w) r fuel

/-- A tail value written to a ring (R348): accepted within the ring's size. -/
def State.ringTail (s : State) (r : Nat) (v : Word) : State :=
  let x := s.ring r
  if (v - x.head).toNat ≤ 2 ^ x.lsize then (s.updRing r (fun y => { y with tail := v, stopped := false })).ringRun r 8
  else s.raise { src := Src.ringRange, who := .core (BitVec.ofNat 4 r) }

/-- A ring's enable takes a value (R350): base, sizes and the completion queue take effect when it changes to 1. -/
def State.ringEnable (s : State) (r : Nat) (en : Bool) : State :=
  let x := s.ring r
  if en = x.running then s
  else if !en then s.updRing r (fun y => { y with running := false })
  else
    (s.updRing r (fun y =>
      { y with
        running := true
        base := s.rf .mapRingBase 28 6 [r] * 64
        lsize := s.rf .mapRingCtrl 12 8 [r]
        cqbase := s.rf .mapRingCqbase 28 4 [r] * 16
        lcq := s.rf .mapRingCqctrl 12 8 [r] })).ringRun r 8

/-- The firmware's consumer index of a ring's completion queue. -/
def State.ringCons (s : State) (r : Nat) (v : Word) : State :=
  ((s.updRing r (fun y => { y with cons := v })).ringRecords r 4097).ringRun r 8

/-! ## Completion (R326) -/

/-- Whether every write of a descriptor has been accepted. -/
def Desc.written (d : Desc) : Bool := decide (d.pos = d.len) && !d.writing && d.status.isNone

/-- DESCRIPTOR_COMPLETE: the channel frees; a MOVE with B = 1 retires; a ring's descriptor ends with its record, failed
ones with their code. -/
def State.descComplete (s : State) (id : Nat) : State :=
  match s.desc? id with
  | none => s
  | some d =>
    if !d.written && !d.finished then s
    else
      let s1 := s.delDesc id
      match d.owner with
      | .queue c q _ =>
        match (s1.queue c q).wait with
        | some (.moveB k) => if k = id then s1.retireWait c q 0 0 else s1
        | _ => s1
      | .ring r slot => (s1.ringEnd r.toNat slot d.tag d.doneCount d.failed d.poisoned d.irq).ringRun r.toNat 8
      | .internal => s1

def execDescriptorComplete (d : Nat) (s : State) : Host.Outcome State Fault Refusal := done (s.descComplete d)

end Sys2Proof.Machine
end

