-- ==== Sys2Proof/Machine/Complete.lean ====
section
/-! DEFINITION. The end of accesses: reads return, atomics are performed, writes are accepted, done or failed
(R27, R38, R39, R76, R78, R235 to R237, R329, R332, R335, R337, R340, R431 to R446, R463). -/

namespace Sys2Proof.Machine

/-! ## Coherent lines (R431, R443 to R446) -/

/-- Bytes of HOST_COH held in the line cache, where it holds every line of the span. -/
def State.hcaRead (s : State) (p : Nat) : List (Nat × Nat × Nat) → Option (List Byte × List Bool)
  | [] => some ([], [])
  | x :: rest =>
    match s.hcaLine p (x.1 / 64), State.hcaRead s p rest with
    | some h, some r => some ((h.data.drop (x.2.1 - x.1)).take x.2.2 ++ r.1, List.replicate x.2.2 h.poison ++ r.2)
    | _, _ => none

/-- Bytes placed into a line's data. -/
def overlay (line : List Byte) (at_ : Nat) (bs : List Byte) : List Byte :=
  line.take at_ ++ bs ++ line.drop (at_ + bs.length)

/-- One line's part of a HOST_COH write: into the line cache in M, or, for a whole line that the cache does not hold
exclusively, to the host by ItoMWr (R445, R446). -/
def State.hcaPut (s : State) (p : Nat) (x : Nat × Nat × Nat) (bs : List Byte) (poison : Bool) : State :=
  match s.hcaLine p (x.1 / 64) with
  | some h =>
    if h.st = .s then
      ({ s with crg := { s.crg with hca := s.crg.hca.filter (fun k => !(k.port == p && k.line == x.1 / 64)) } }).emit
        (.cxlResp p (x.1 / 64) .m (some bs))
    else
      { s with crg := { s.crg with hca := s.crg.hca.map (fun k =>
          if k.port = p ∧ k.line = x.1 / 64 then
            { k with st := .m, data := overlay k.data (x.2.1 - x.1) bs, poison := poison || (k.poison && x.2.2 != 64) }
          else k) } }
  | none => s.emit (.cxlResp p (x.1 / 64) .m (some bs))

/-- A HOST_COH write, line by line. -/
def State.hcaWrite (s : State) (p a : Nat) (bs : List Byte) (poison : Bool) : State :=
  ((spanLines a bs.length).foldl
    (fun r x => (r.1.hcaPut p x (r.2.take x.2.2) poison, r.2.drop x.2.2)) (s, bs)).1

/-- Whether a HOST_COH write can be performed: each partly written line is held in M (R434, R446). -/
def State.hcaOwns (s : State) (p a n : Nat) : Bool :=
  (spanLines a n).all (fun x => x.2.2 = 64 || (match s.hcaLine p (x.1 / 64) with
    | some h => h.st == .m
    | none => false))

/-! ## Reads of memory behind a translation -/

/-- SMS address of a PRA of an SMS class. -/
def smsAddr (cls : Byte) (off : Nat) : Nat := if cls = 2 then tierBase + off else stagingBase + off

/-- Bytes below which a class's offsets exist (R46). -/
def classSize (cls : Byte) : Nat :=
  if cls = 1 then stagingSize else if cls = 2 then tierSize else if cls = 3 then 0x1000000000 else 2 ^ 64

/-- Poison of each byte of an SMS span. -/
def State.smsPoison (s : State) (a n : Nat) : List Bool :=
  (spanLines a n).flatMap (fun p => List.replicate p.2.2 (s.line p.1).poison)

/-- Uncorrectable lines of a read make their bytes free and poisoned. -/
def State.dropLines (s : State) (a : Nat) (bad : List (BitVec 7)) (bs : List Byte) : List Byte × List Bool × State :=
  let flag (i : Nat) : Bool := bad.any (fun l => l.toNat == (a + i) / 64 - a / 64)
  let ps := (rangeFrom 0 bs.length).map flag
  if ps.any id then
    let d := s.drawBytes bs.length
    ((bs.zip (d.1.zip ps)).map (fun x => if x.2.2 then x.2.1 else x.1), ps, d.2)
  else (bs, ps, s)

/-! ## Completion of a read (R235, R252, R335) -/

/-- The old word of an atomic and the new one that it writes. -/
def atomNew (op : BitVec 3) (sg : Bool) (b cmp : DWord) (old : List Byte) : List Byte :=
  leBytes old.length (atomOp op.toNat (8 * old.length) sg (BitVec.ofNat 64 (leVal old)) b cmp).toNat

/-- A load's or an atomic's register gets its value (R199, R236). -/
def State.setDest (s : State) (r : Req) (rd : BitVec 5) (sg : Bool) (bs : List Byte) : State :=
  match r.queue with
  | some q => s.updQ r.ctx q (fun x => x.setG rd.toNat (extend (8 * r.len) sg (leVal bs)))
  | none => s

/-- A re-read of WAIT.MEM or BATON.TAKE (R252, R254): the wait ends where its relation holds. -/
def State.waitWord (s : State) (r : Req) (v : DWord) : State :=
  match r.queue with
  | none => s
  | some q =>
    match (s.queue r.ctx q).wait with
    | some (.mem a rel sg b rd lim _) =>
      if relHolds rel.toNat (srcInt 64 sg v) (srcInt 64 sg b) then s.retireWait r.ctx q rd v
      else s.updQ r.ctx q (fun x => { x with wait := some (.mem a rel sg b rd lim v) })
    | _ => s

/-- A read has completed: its data goes to whoever asked. -/
def State.completeRead (s : State) (r : Req) (bs : List Byte) (ps : List Bool) : State :=
  let s1 := s.delReq r.id
  let poison := ps.any id
  match r.purpose with
  | .load rd sg => s1.setDest r rd sg bs
  | .atom rd _ sg _ _ => s1.setDest r rd sg bs
  | .wait => s1.waitWord r (BitVec.ofNat 64 (leVal bs))
  | .descRead d =>
    (s1.updDesc d (fun x =>
      { x with reading := false, rdOff := x.rdOff + bs.length, buf := x.buf ++ bs, bufPoison := x.bufPoison ++ ps })).drive d
  | .ceLoad die => s1.emit (.ceResp die bs poison)
  | .ceAtom die _ _ _ _ => s1.emit (.ceResp die bs poison)
  | .remoteRead k seq => s1.emit (.relay 2 k k.pkg seq 0 bs poison)
  | .remoteAtom k seq _ _ _ _ => s1.emit (.relay 4 k k.pkg seq (BitVec.ofNat 64 (leVal bs)) [] poison)
  | _ => s1

/-- Operands of a request that is an atomic. -/
def Req.atomArgs (r : Req) : Option (BitVec 3 × Bool × DWord × DWord) :=
  match r.purpose with
  | .atom _ op sg b cmp => some (op, sg, b, cmp)
  | .ceAtom _ op sg b cmp => some (op, sg, b, cmp)
  | .remoteAtom _ _ op sg b cmp => some (op, sg, b, cmp)
  | _ => none

/-! ## Sequence descriptors (R76, R78) -/

/-- A write through a context's address advances HEAD of the sequence descriptor that covers it. -/
def State.seqHead (s : State) (c : CtxId) (a n : Nat) : State :=
  let token (d : SeqDesc) : Nat := (a + n - 1 - d.base.toNat) / 2 ^ d.lstride
  { s with xlt := { s.xlt with seqs := s.xlt.seqs.map (fun e =>
      if e.2.ctx = c ∧ e.2.base.toNat ≤ a ∧ token e.2 < e.2.limit ∧ e.2.head < token e.2 then
        (e.1, { e.2 with head := token e.2 })
      else e) } }

/-! ## SIGNALs whose events may still be rewritten (R341) -/

/-- SIGNALs of a queue that no outstanding earlier write can touch any more are final. -/
def State.finalSigs (s : State) (c : CtxId) (q : QIdx) : State :=
  if (s.queue c q).sigs.isEmpty then s
  else
    let open' (id : Nat) : Bool := (s.reqsBefore c q id).any Req.writes
    s.updQ c q (fun x => { x with sigs := x.sigs.filter (fun g => open' g.1) })

/-- A request of a queue has ended. -/
def State.reqEnded (s : State) (r : Req) : State :=
  match r.queue with
  | some q => s.finalSigs r.ctx q
  | none => s

/-! ## Acceptance (R329) -/

/-- The key under which a queue remembers that a target refuses its writes (R337): a DDL group. -/
def State.refuseKey (s : State) (t : Trans) : Byte × BitVec 24 := (3, BitVec.ofNat 24 (s.dieGroup (s.dieOf t.cls t.idx)))

/-- Whether a target refuses a write because an earlier one of its queue failed there. -/
def State.refused (s : State) (r : Req) (t : Trans) : Bool :=
  match r.queue with
  | some q => (t.cls = 3 || t.cls = 0x0A) && (s.queue r.ctx q).refusing.contains (s.refuseKey t)
  | none => false

/-- Whether a write can be accepted now: a coherent line is held by no other agent, and a HOST_COH line is held in M. -/
def State.canAccept (s : State) (r : Req) (t : Trans) : Bool :=
  match t.cls with
  | 1 => (linesOf (smsAddr 1 (r.targetOff t)) r.len).all (fun l => !s.lineHeld l)
  | 2 => (linesOf (smsAddr 2 (r.targetOff t)) r.len).all (fun l => !s.lineHeld l)
  | 8 => s.hcaOwns (fld t.idx.toNat 23 22) (r.targetOff t) r.len
  | _ => true

/-- The bytes of an accepted write reach the memory that the model holds. -/
def State.writeMem (s : State) (r : Req) (t : Trans) (bs : List Byte) (ecc : Ecc) : State :=
  let off := r.targetOff t
  match t.cls with
  | 1 =>
    let a := smsAddr 1 off
    (if a % 64 ≠ 0 ∨ bs.length % 64 ≠ 0 then s.eccLine a ecc r.who else s).smsWrite a bs (some t.owner) r.poison
  | 2 =>
    let a := smsAddr 2 off
    (if a % 64 ≠ 0 ∨ bs.length % 64 ≠ 0 then s.eccLine a ecc r.who else s).smsWrite a bs (some t.owner) r.poison
  | 3 => s.hbmWrite t.idx off t.owner t.lp bs
  | 0x0A => s.tileWrite t.idx off bs
  | 8 => s.hcaWrite (fld t.idx.toNat 23 22) off bs r.poison
  | _ => s

/-- A descriptor's write has been accepted: the channel goes on. -/
def State.descWrote (s : State) (d n : Nat) (poison : Bool) : State :=
  (s.updDesc d (fun x =>
    { x with wrOff := x.wrOff + n, credit := x.credit - n, writing := false, poisoned := x.poisoned || poison })).drive d

/-- What acceptance means to the write's issuer. A write that carries poison is recorded (R332). -/
def State.accepted (s : State) (r : Req) : State :=
  match r.purpose with
  | .descWrite d bs poison =>
    let s1 := match s.desc? d with
      | some x => if poison then s.raise (s.descFault x Src.mapPoisonOut 0 0) else s
      | none => s
    s1.descWrote d bs.length poison
  | .statusRec d _ => s.updDesc d (fun x => { x with writing := false, status := none })
  | .aggSend d => (s.updDesc d (fun x => ({ x with wrOff := x.outb.length }).endSeg)).drive d
  | .remoteWrite k seq _ _ =>
    match r.tr with
    | some t => if doneLater t.cls then s else s.emit (.relay 5 k k.pkg seq 0 [] false)
    | none => s
  | _ => s

/-- A write that has reached its ordering point is accepted. -/
def State.acceptWrite (s : State) (r : Req) (t : Trans) (ecc : Ecc) : State :=
  let s1 := s.writeMem r t r.data ecc
  let s2 := if r.s2only.isNone && r.tr.isSome && r.queue.isSome then s1.seqHead r.ctx r.addr.toNat r.len else s1
  let s3 := if doneLater t.cls then s2.updReq r.id (fun x => { x with phase := .accepted }) else s2.delReq r.id
  (s3.accepted r).reqEnded r

/-- WRITE_ACCEPT: a flag write that waits is issued first when nothing holds it (R333, R334). -/
def State.writeAccept (s : State) (id : Nat) (ecc : Ecc) : State :=
  let s0 := match s.req? id with
    | some r => if r.phase = Phase.held ∧ r.flag ∧ s.flagReady r then s.transmit id else s
    | none => s
  match s0.req? id with
  | none => s0
  | some r =>
    match r.tr with
    | none => s0
    | some t =>
      if r.phase ≠ Phase.sent ∨ !r.wr ∨ r.rd then s0
      else if s0.refused r t then s0.failReq id Code.remoteNack Rsn.remoteWrite
      else if !s0.canAccept r t then s0
      else s0.acceptWrite r t ecc

/-- Whether a request's address lies outside its class: only a ring's descriptor can name one (R46, R347). -/
def State.outOfClass (s : State) (id : Nat) : Option (Byte × Nat) :=
  match s.req? id with
  | some r =>
    match r.tr with
    | some t => if r.phase = Phase.sent ∧ r.targetOff t + r.len > classSize t.cls then some (t.cls, r.targetOff t) else none
    | none => none
  | none => none

def execWriteAccept (id : Nat) (ecc : Ecc) (s : State) : Host.Outcome State Fault Refusal :=
  match s.outOfClass id with
  | some x => .fault (.absentAddress x.1 x.2)
  | none => done (s.writeAccept id ecc)

/-- WRITE_DONE (R38, R329): for HBM and tile memory; a fabric write is done by its ACK. A write that arrived over Relay is
then acknowledged (R463). -/
def State.writeDone (s : State) (id : Nat) : State :=
  match s.req? id with
  | none => s
  | some r =>
    match r.tr with
    | none => s
    | some t =>
      if r.phase ≠ Phase.accepted ∨ t.cls = 7 then s
      else
        let s1 := (s.delReq id).reqEnded r
        match r.purpose with
        | .remoteWrite k seq _ _ => s1.emit (.relay 5 k k.pkg seq 0 [] false)
        | _ => s1

def execWriteDone (id : Nat) (s : State) : Host.Outcome State Fault Refusal := done (s.writeDone id)

/-! ## Reads that return from the die (R31, R62, R236, R237, R335) -/

/-- An atomic's write at its ordering point, and then its completion with the old bytes. -/
def State.finishRead (s : State) (r : Req) (t : Trans) (bs : List Byte) (ps : List Bool) : State :=
  match r.atomArgs with
  | some (op, sg, b, cmp) =>
    let s1 := s.writeMem r t (atomNew op sg b cmp bs) .ok
    let s2 := if r.queue.isSome then s1.seqHead r.ctx r.addr.toNat r.len else s1
    (s2.completeRead r bs ps).reqEnded r
  | none => (s.completeRead r bs ps).reqEnded r

/-- READ_DATA_RETURN: from SMS or from a port's line cache, or by a snoop from another holder of a coherent line. -/
def State.readReturn (s : State) (id : Nat) (x : ReadRet) : State :=
  match s.req? id with
  | none => s
  | some r =>
    match r.tr with
    | none => s
    | some t =>
      let off := r.targetOff t
      let sms := t.cls = 1 || t.cls = 2
      let a := smsAddr t.cls off
      let out := sms && (linesOf a r.len).any s.lineOut
      let port := fld t.idx.toNat 23 22
      let cohOut := t.cls = 8 && (linesOf off r.len).any (fun l => s.lineOut (hostLine port (64 * l)))
      if r.phase ≠ Phase.sent ∨ !r.rd ∨ !(sms || t.cls = 8) ∨ (r.wr ∧ !s.canAccept r t) then s
      else
        match x with
        | .die ecc =>
          if sms then
            if out then s
            else
              let s1 := s.eccLine a ecc r.who
              let g := s1.smsRead a r.len (some t.owner) r.who
              g.2.2.finishRead r t g.1 (s1.smsPoison a r.len)
          else if cohOut then s
          else
            match s.hcaRead port (spanLines off r.len) with
            | some g => s.finishRead r t g.1 g.2
            | none => s
        | .snooped bs poison =>
          if bs.length = r.len ∧ !r.wr ∧ (out || cohOut || (t.cls = 8 && (s.hcaRead port (spanLines off r.len)).isNone)) then
            s.finishRead r t bs (List.replicate r.len poison)
          else s

def execReadDataReturn (id : Nat) (r : ReadRet) (s : State) : Host.Outcome State Fault Refusal :=
  match s.outOfClass id with
  | some x => .fault (.absentAddress x.1 x.2)
  | none => done (s.readReturn id r)

/-- A fault of a DDL group that its uncorrectable counter counts (R41). -/
def State.ddlUe (s : State) (f : FaultIn) : State :=
  ({ s with ddl := { s.ddl with ue := satInc s.ddl.ue } }).raise f

/-- HBM_READ_RESPONSE (R37 to R39): data of HBM or tile memory returns, or an atomic there is performed. -/
def State.hbmReturn (s : State) (id : Nat) (st : HbmStatus) : State :=
  match s.req? id with
  | none => s
  | some r =>
    match r.tr with
    | none => s
    | some t =>
      if r.phase ≠ Phase.sent ∨ !r.rd ∨ !(t.cls = 3 || t.cls = 0x0A) then s
      else if r.wr ∧ s.refused r t then s.failReq id Code.remoteNack Rsn.remoteWrite
      else
        let off := r.targetOff t
        let got := if t.cls = 3 then s.hbmRead t.idx off t.owner t.lp r.len else s.tileRead t.idx off r.len
        let clean := List.replicate r.len false
        match st with
        | .ok => got.2.finishRead r t got.1 clean
        | .corrected =>
          if t.cls = 3 then (got.2.finishRead r t got.1 clean).raise (r.praFault t Src.hbmCe 0 0) else s
        | .uncorrectable bad =>
          if t.cls = 3 then
            let d := got.2.dropLines off bad got.1
            (d.2.2.finishRead r t d.1 d.2.1).ddlUe (r.praFault t Src.hbmUe 0 0)
          else s
        | .tileError =>
          if t.cls = 0x0A then
            (s.failReq id Code.remoteNack Rsn.remoteWrite).ddlUe (r.praFault t Src.ddlTileErr Rsn.remoteWrite Code.remoteNack)
          else s

def execHbmReadResponse (id : Nat) (st : HbmStatus) (s : State) : Host.Outcome State Fault Refusal :=
  match s.outOfClass id with
  | some x => .fault (.absentAddress x.1 x.2)
  | none => done (s.hbmReturn id st)

/-! ## Failures of writes (R38, R329, R337, R340, R465, R470) -/

/-- A sent packet's entry leaves its flow. -/
def State.unackDrop (s : State) (id : Nat) : State :=
  { s with ofp := { s.ofp with tx := s.ofp.tx.map (fun f => { f with unacked := f.unacked.filter (fun u => decide (u.req ≠ id)) }) } }

/-- A fabric request fails: its queue breaks, and FLC records OFP_WRITE_FAIL with the target's reason (R463, R465). -/
def State.fabricFail (s : State) (id : Nat) (code reason : Byte) : State :=
  match s.req? id with
  | none => s
  | some r =>
    match r.tr with
    | none => s
    | some t => (((s.unackDrop id).failReq id code reason).reqEnded r).raise (r.praFault t Src.ofpWriteFail reason code)

/-- A write-path error after acceptance (R38, R39): the target's bytes are undefined, and the group refuses the queue's
later writes. -/
def State.ddlWriteFail (s : State) (id : Nat) (r : Req) (t : Trans) : State :=
  let off := r.targetOff t
  let n := (r.len + off % 64 + 63) / 64 * 64
  let s1 := if t.cls = 3 then s.hbmForget t.idx (off / 64 * 64) n else s.tileForget t.idx (off / 64 * 64) n
  let s2 := match r.queue with
    | some q => s1.updQ r.ctx q (fun x => { x with refusing := addTo x.refusing (s.refuseKey t) })
    | none => s1
  let src := if t.cls = 3 then Src.hbmWriteFail else Src.ddlTileErr
  ((s2.failReq id Code.remoteNack Rsn.remoteWrite).reqEnded r).ddlUe (r.praFault t src Rsn.remoteWrite Code.remoteNack)

/-- WRITE_FAIL_REPORT: the failures that the write's class and state can have. -/
def State.writeFail (s : State) (id : Nat) (w : WriteFail) : State :=
  match s.req? id with
  | none => s
  | some r =>
    match r.tr with
    | none => s
    | some t =>
      let out := r.phase = Phase.sent || r.phase = Phase.accepted
      let ddl := t.cls = 3 || t.cls = 0x0A
      if !r.wr ∨ r.rd ∨ !out then s
      else
        match w with
        | .remoteWrite =>
          if ddl then (if r.phase = Phase.accepted then s.ddlWriteFail id r t else s)
          else if t.cls = 7 then s.fabricFail id Code.remoteNack Rsn.remoteWrite
          else s
        | .remoteXlate => if t.cls = 7 then s.fabricFail id Code.remoteNack Rsn.remoteXlate else s
        | .ddlDown =>
          if ddl ∧ r.phase = Phase.sent ∧ !s.dieUp (s.dieOf t.cls t.idx) then
            ((s.failReq id Code.remoteNack Rsn.ddlDown).reqEnded r).raise (r.praFault t Src.ddlLinkDown Rsn.ddlDown Code.remoteNack)
          else s
        | .partitioned =>
          if t.cls = 7 ∧ (s.routeUp (BitVec.ofNat 16 (fld t.idx.toNat 15 0))).isEmpty then s.fabricFail id Code.partitioned 0 else s
        | .noReport =>
          if t.cls = 7 ∧ !(s.routeUp (BitVec.ofNat 16 (fld t.idx.toNat 15 0))).isEmpty then
            s.fabricFail id Code.remoteNack Rsn.noReport
          else s
        | .portFrozen =>
          match s.reqLink r with
          | some l => if r.phase = Phase.sent ∧ (s.link l).frozen then (s.failReq id Code.portFrozen 0).reqEnded r else s
          | none => s
        | .hostPath =>
          match s.reqLink r with
          | some l => if r.phase = Phase.sent ∧ !(s.link l).dlup then (s.failReq id Code.hostPathFailed 0).reqEnded r else s
          | none => s
        | .roceNak =>
          if t.cls = 9 ∧ r.phase = Phase.sent then
            ((s.failReq id Code.remoteNack Rsn.remoteWrite).reqEnded r).raise (r.praFault t Src.roceFail Rsn.remoteWrite Code.remoteNack)
          else s
        | .roceHandle =>
          if t.cls = 9 ∧ r.phase = Phase.sent then
            ((s.failReq id Code.remoteNack Rsn.roceHandle).reqEnded r).raise (r.praFault t Src.roceFail Rsn.roceHandle Code.remoteNack)
          else s

def execWriteFailReport (id : Nat) (w : WriteFail) (s : State) : Host.Outcome State Fault Refusal := done (s.writeFail id w)

/-! ## Compute engines (R37, R44, R144) -/

/-- Whether a virtual device is bound to a tile. -/
def VDev.hasTile (v : VDev) (die : BitVec 3) (tile : BitVec 5) : Bool :=
  v.vv && v.grant.tiles.toNat.testBit (32 * die.toNat + tile.toNat)

/-- One access of a compute engine within 4 KiB. -/
def ceReq (id : Nat) (die : BitVec 3) (c : CtxId) (a : DWord) (x : CeAccess) (now : DWord) : Req :=
  let base : Req :=
    { id := id, who := .hw, ctx := c, addr := a, len := 0, rd := true, wr := false, purpose := .ceLoad die, started := now }
  match x with
  | .load n => { base with len := n }
  | .store bs => { base with len := bs.length, rd := false, wr := true, purpose := .ceStore die bs }
  | .atomic op wide sg b cmp => { base with len := if wide then 8 else 4, wr := true, purpose := .ceAtom die op sg b cmp }

/-- The accesses within 4 KiB ranges that an access is made of (R45). -/
def cePieces : Nat → DWord → CeAccess → List (DWord × CeAccess)
  | 0, a, x => [(a, x)]
  | fuel + 1, a, x =>
    let room := 4096 - a.toNat % 4096
    match x with
    | .load n => if n ≤ room then [(a, x)] else (a, .load room) :: cePieces fuel (a + BitVec.ofNat 64 room) (.load (n - room))
    | .store bs =>
      if bs.length ≤ room then [(a, x)]
      else (a, .store (bs.take room)) :: cePieces fuel (a + BitVec.ofNat 64 room) (.store (bs.drop room))
    | .atomic _ _ _ _ _ => [(a, x)]

/-- COMPUTE_ENGINE_REQUEST: it goes to XLT, which refuses it where the context's virtual device holds no binding of the
issuing tile. -/
def State.ceRequest (s : State) (die : BitVec 3) (tile : BitVec 5) (c : CtxId) (a : DWord) (x : CeAccess) : State :=
  if !s.runs Blk.ddl || !s.dieUp die.toNat then s
  else
    let bound := match s.ctx? c with
      | some y => (s.vdev y.vdix).hasTile die tile
      | none => false
    forAll (cePieces 64 a x) s (fun t p =>
      let n := t.newId
      let t1 := n.2.addReq (ceReq n.1 die c p.1 p.2 s.now)
      if bound then t1 else t1.failXlate n.1 Code.xlateUnresolved 0 7 0 0)

def execComputeEngineRequest (die : BitVec 3) (tile : BitVec 5) (c : CtxId) (dva : DWord) (a : CeAccess) (s : State) :
    Host.Outcome State Fault Refusal := done (s.ceRequest die tile c dva a)

/-! ## The next page of a stream (R85) -/

/-- The address that a stream of a descriptor has reached, and the bytes of its span that remain. -/
def Desc.streamAt (d : Desc) (dest : Bool) : Nat × Nat :=
  if dest then
    let o := d.dstBytes d.pos + d.wrOff
    (d.dst.addrAt o, d.dstBytes d.len - o)
  else
    let o := d.srcBytes d.rpos + d.rdOff
    (d.src.addrAt o, d.srcBytes d.len - o)

/-- The fill of a next-page walk: ACC is set in both leaves, DIRTY never. -/
def State.prefetch (s : State) (r : Req) (quarter : Nat) : State :=
  let w := s.walkOf quarter r
  match w.1 with
  | .leaves s1 k2 e2 ca vdix =>
    if r.permitted (s1.map Prod.snd) e2 && decide (Pte.ts e2 = Ts.mapped) then
      let t := w.2.markLeaves s1 k2 e2 false
      let tr := transOf r (s1.map (fun p => t.pte p.1)) (t.pte k2) ca vdix (t.epochsOf false r.ctx vdix)
      t.fillFor r.cluster { tr with dirty := false }
    else w.2
  | .fail _ _ => w.2

/-- NEXT_PAGE_WALK: a stream of a queue's descriptor has reached the last quarter of its page, and the next page misses
L2. -/
def State.nextPage (s : State) (id : Nat) (dest : Bool) : State :=
  match s.desc? id with
  | none => s
  | some d =>
    match d.owner, d.chan, (if dest then d.dst else d.src) with
    | .queue c q seq, some ch, .dva _ =>
      let x := d.streamAt dest
      match s.peekWalk c x.1 with
      | .leaves (some l1) _ e2 _ _ =>
        let l := min (Pte.lsize l1.2) (Pte.lsize e2)
        let next := pageBase x.1 l + 2 ^ l
        let near := decide (4 * (x.1 % 2 ^ l) ≥ 3 * 2 ^ l)
        if s.ce .xltCtrl 3 3 ≠ 1 ∨ !near ∨ next ≥ x.1 + x.2 ∨ next ≥ 2 ^ 57 ∨ !s.runs Blk.xlt then s
        else if (s.cacheHit none false c (s.ctxVdix c) next).isSome then s
        else
          s.prefetch
            { id := 0, who := chanWho ch, cluster := s.clusterOf c, ctx := c, queue := some q, seq := seq
              addr := BitVec.ofNat 64 next, len := 1, rd := !dest, wr := dest, purpose := .descRead id }
            ((s.slotOf c).map slotRegion |>.getD 0)
      | _ => s
    | _, _, _ => s

def execNextPageWalk (d : Nat) (dest : Bool) (s : State) : Host.Outcome State Fault Refusal := done (s.nextPage d dest)

end Sys2Proof.Machine
end

