-- ==== Sys2Proof/Machine/Pcr.lean ====
section
/-! DEFINITION. The pacer (ch. 11): heats, budgets, admission and bookings, late work, stretch and catch-up; what happens
at a heat boundary (R356), grants (R164, R353) and demotions (R78) among it. Thread time is counted in eighths of a
nanosecond. -/

namespace Sys2Proof.Machine

/-! ## Lengths (R354, R355) -/

/-- L in nanoseconds, in force. -/
def State.heatL (s : State) : Nat := s.ce .pcrHeatLen 26 0

/-- The end of the current heat as it was planned at its beginning. -/
def State.heatEnd (s : State) : DWord := s.pcr.start + BitVec.ofNat 64 s.pcr.len

/-- The guard of a heat of length `h`. -/
def guard8 (l h : Nat) : Nat := l - min (8 * (l - h)) l

/-- Whether PCR promises anything now: it runs and a heat has begun (R370, R371). -/
def State.pcrOn (s : State) : Bool := s.runs Blk.pcr && s.pcr.running

/-! ## Bookings (R359, R360) -/

/-- What a list of bookings holds for a heat. -/
def bookedIn (bs : List (Nat × Nat)) (k : Nat) : Nat := ((bs.filter (fun b => b.1 == k)).map Prod.snd).sum

/-- Thread time booked for a context in a heat. -/
def State.ctxBooked (s : State) (c : CtxId) (k : Nat) : Nat :=
  ((s.pcr.items.filter (fun i => i.ctx == c)).map (fun i => bookedIn i.bookNs k)).sum

/-- The region of a context's slot. -/
def State.ctxRegion (s : State) (c : CtxId) : Option Nat := (s.slotOf c).map slotRegion

/-- Bytes booked in a region in a heat. -/
def State.regionBooked (s : State) (r k : Nat) : Nat :=
  ((s.pcr.items.filter (fun i => s.ctxRegion i.ctx == some r)).map (fun i => bookedIn i.bookB k)).sum

/-- A booking list drawn on for one heat; the answer tells what could not be drawn. -/
def drawBook (k : Nat) : Nat → List (Nat × Nat) → Nat × List (Nat × Nat)
  | n, [] => (n, [])
  | n, (h, v) :: bs =>
    if h = k then
      let r := drawBook k (n - v) bs
      (r.1, if v ≤ n then r.2 else (h, v - n) :: r.2)
    else
      let r := drawBook k n bs
      (r.1, (h, v) :: r.2)

/-- An amount booked in the earliest heats that have room (heat, free space); none where it does not fit. -/
def bookEarly : Nat → List (Nat × Nat) → Option (List (Nat × Nat))
  | 0, _ => some []
  | _ + 1, [] => none
  | n + 1, (k, free) :: rest =>
    let t := min (n + 1) free
    match bookEarly (n + 1 - t) rest with
    | some bs => some (if t = 0 then bs else (k, t) :: bs)
    | none => none

/-- The open item of a queue. -/
def State.openItem (s : State) (c : CtxId) (q : QIdx) : Option Item :=
  s.pcr.items.find? (fun i => i.ctx == c && i.queue == q && i.sig.isNone)

/-- Open items of the die. -/
def State.openItems (s : State) : Nat := (s.pcr.items.filter (fun i => i.sig.isNone)).length

/-- The open item of a queue changed. -/
def State.updItem (s : State) (c : CtxId) (q : QIdx) (f : Item → Item) : State :=
  { s with pcr := { s.pcr with items := s.pcr.items.map (fun i =>
      if i.ctx = c ∧ i.queue = q ∧ i.sig = none then f i else i) } }

/-! ## Budgets (R355, R357) -/

/-- The share part of a context's thread in the current heat. -/
def State.sharePart (s : State) (c : CtxId) : Nat :=
  8 * s.pcr.len - guard8 s.heatL s.pcr.len - s.ctxBooked c s.pcr.heat

/-- A context's budget for the whole of the current heat. -/
def State.fullBudget (s : State) (c : CtxId) : Nat :=
  match s.ctx? c with
  | some x => min (x.share * s.pcr.len / 128) (s.sharePart c)
  | none => 0

/-- Nanoseconds left in the current heat. -/
def State.heatLeft (s : State) : Nat := s.heatEnd.toNat - s.now.toNat

/-- A context that becomes resident during a heat receives the part of its budget for the time left. -/
def State.lateBudget (s : State) (c : CtxId) : State :=
  if !s.pcrOn || s.pcr.len = 0 then s
  else s.updCtx c (fun x => { x with budget := s.fullBudget c * s.heatLeft / s.pcr.len })

/-- Every budget refreshed for a heat that begins. -/
def State.refreshBudgets (s : State) : State :=
  { s with ctxs := s.ctxs.map (fun e => (e.1, { e.2 with budget := s.fullBudget (BitVec.ofNat 14 e.1) })) }

/-- Whether a class has a budget (R352). -/
def hasBudget (d : BitVec 3) : Bool := d ≠ 0

/-- Thread time that an item of a queue may still draw from its booking in the current heat. -/
def State.itemDraw (s : State) (c : CtxId) (q : QIdx) : Nat :=
  match s.openItem c q with
  | some i => bookedIn i.bookNs s.pcr.heat
  | none => 0

/-- Whether a queue's open item is carried (R363). -/
def State.itemCarried (s : State) (c : CtxId) (q : QIdx) : Bool :=
  match s.openItem c q with
  | some i => i.carried
  | none => false

/-- Whether PCR lets a queue issue (R190, R357, R363, R370). -/
def State.pcrAllows (s : State) (c : CtxId) (q : QIdx) : Bool :=
  !s.pcrOn || !hasBudget (s.queue c q).dcls ||
  (promisedCls (s.queue c q).dcls && (decide (0 < s.itemDraw c q) || s.itemCarried c q)) ||
  (match s.ctx? c with
   | some x => decide (0 < x.budget)
   | none => false)

/-- Thread time of one issued instruction: a cycle of 0.625 ns. -/
def issue8 : Nat := 5

/-- The charge of an issued instruction (R357, R360): an item's booking first, then the context's budget; carried work
is charged to neither. -/
def State.pcrCharge (s : State) (c : CtxId) (q : QIdx) : State :=
  let d := (s.queue c q).dcls
  if !s.pcrOn || !hasBudget d || (promisedCls d && s.itemCarried c q) then s
  else
    match (if promisedCls d then s.openItem c q else none) with
    | some i =>
      let r := drawBook s.pcr.heat issue8 i.bookNs
      (s.updItem c q (fun x => { x with bookNs := r.2 })).updCtx c (fun x => { x with budget := x.budget - r.1 })
    | none => s.updCtx c (fun x => { x with budget := x.budget - issue8 })

/-- Bytes that an item moves are drawn from its booking (R360). -/
def State.pcrBytes (s : State) (c : CtxId) (q : QIdx) (n : Nat) : State :=
  s.updItem c q (fun x => { x with bookB := (drawBook s.pcr.heat n x.bookB).2 })

/-- What BUDGET reads (R262). -/
def State.budgetNs (s : State) (c : CtxId) (q : QIdx) : DWord :=
  if !hasBudget (s.queue c q).dcls then BitVec.ofNat 64 (2 ^ 64 - 1)
  else match s.ctx? c with
    | some x => BitVec.ofNat 64 (x.budget / 8)
    | none => 0

/-! ## Admission (R264, R359) -/

/-- Items that can be open on the die. -/
def itemMax : Nat := 4096

/-- The due heat of a deadline (R359 rule 4). -/
def State.dueHeat (s : State) (dl : DWord) : Option Nat :=
  let l := s.heatL
  let k := (dl.toNat - s.pcr.origin.toNat) / l
  if k = 0 ∨ k - 1 < s.pcr.heat ∨ k - 1 > s.pcr.heat + s.ce .pcrCtrl 23 16 then none else some (k - 1)

/-- Free space of a resource over the heats to the due heat: full space of a heat, less what is booked; the current heat
counts in proportion to the time left in it. -/
def State.freeSpace (s : State) (full : Nat) (booked : Nat → Nat) (due : Nat) : List (Nat × Nat) :=
  (rangeFrom s.pcr.heat (due + 1 - s.pcr.heat)).map (fun k =>
    (k, (if k = s.pcr.heat then full * s.heatLeft / s.pcr.len else full) - booked k))

/-- The bookings of an item that PCR admits, if it admits it. -/
def State.bookItem (s : State) (c : CtxId) (q : QIdx) (a b : Nat) (dl : DWord) :
    Option (Nat × List (Nat × Nat) × List (Nat × Nat)) :=
  match s.ctx? c, s.ctxRegion c, s.dueHeat dl with
  | some x, some r, some due =>
    if !s.pcrOn || !x.pin || (s.openItem c q).isSome || decide (s.openItems ≥ itemMax) then none
    else
      let l := s.heatL
      match bookEarly (8 * a) (s.freeSpace (6 * l) (s.ctxBooked c) due),
            bookEarly b (s.freeSpace (3 * s.ce .pcrMaprate 11 0 * l / 4) (s.regionBooked r) due) with
      | some bn, some bb => some (due, bn, bb)
      | _, _ => none
  | _, _, _ => none

/-- ADMIT's result code and the state with the booking; with PCR_BLK_CTRL.enable 0 every ADMIT gets code 3 (R370). -/
def State.pcrAdmit (s : State) (c : CtxId) (q : QIdx) (seq : Word) (a b : DWord) : DWord × State :=
  let r := s.queue c q
  if s.enabled Blk.pcr && (!promisedCls r.dcls || decide (r.deadline = 0)) then (1, s)
  else
    match s.bookItem c q a.toNat b.toNat r.deadline with
    | none => (3, { s with pcr := { s.pcr with refuse := satInc s.pcr.refuse } })
    | some (due, bn, bb) =>
      let s1 : State := { s with pcr := { s.pcr with items := s.pcr.items ++
        [{ ctx := c, queue := q, seq := seq, a := a.toNat, b := b.toNat, dl := r.deadline, due := some due, bookNs := bn, bookB := bb }] } }
      (0, s1.updCtx c (fun x => { x with budget := min x.budget (s1.sharePart c) }))

/-! ## Grants (R164, R353) -/

/-- Grants held on the die. -/
def State.rlxHeld (s : State) : Nat := (s.ctxs.map (fun e => (e.2.queues.filter Queue.rlxGrant).length)).sum
def State.highHeld (s : State) : Nat := (s.ctxs.map (fun e => (e.2.queues.filter Queue.highGrant).length)).sum

/-- Whether a queue of a resident context asks for a grant. -/
def State.wantsRlx (s : State) (c : CtxId) (q : QIdx) : Bool :=
  let r := s.queue c q
  (s.slotOf c).isSome && r.rlx && r.state != .undefined && !r.rlxGrant
def State.wantsHigh (s : State) (c : CtxId) (q : QIdx) : Bool :=
  let r := s.queue c q
  (s.slotOf c).isSome && r.dcls == 3 && r.state != .undefined && !r.highGrant

/-- A queue receives its relaxed grant, or waits for one. -/
def State.askRlx (s : State) (c : CtxId) (q : QIdx) : State :=
  if !s.wantsRlx c q then s
  else if s.rlxHeld < 128 then s.updQ c q (fun r => { r with rlxGrant := true })
  else { s with dqe := { s.dqe with rlxWait := addTo s.dqe.rlxWait (c.toNat, q.toNat) } }

/-- A queue receives its HIGH grant, or waits for one. -/
def State.askHigh (s : State) (c : CtxId) (q : QIdx) : State :=
  if !s.wantsHigh c q then s
  else if s.highHeld < 32 then s.updQ c q (fun r => { r with highGrant := true })
  else { s with dqe := { s.dqe with highWait := addTo s.dqe.highWait (c.toNat, q.toNat) } }

/-- The grants of a context that has become resident. -/
def State.askGrants (s : State) (c : CtxId) : State := forAll allQ s (fun t q => (t.askRlx c q).askHigh c q)

/-- Grants of a heat boundary: the queues that have waited longest first. -/
def State.boundaryGrants (s : State) : State :=
  let rs := s.dqe.rlxWait
  let hs := s.dqe.highWait
  let s0 : State := { s with dqe := { s.dqe with rlxWait := [], highWait := [] } }
  let s1 := forAll rs s0 (fun t p => t.askRlx (BitVec.ofNat 14 p.1) (BitVec.ofNat 3 p.2))
  forAll hs s1 (fun t p => t.askHigh (BitVec.ofNat 14 p.1) (BitVec.ofNat 3 p.2))

/-! ## Capacity at a boundary (R356 step 5, R487 to R489, R491) -/

/-- A grant with added resources: ranges grow, sets unite. -/
def Grant.join (g a : Grant) : Grant :=
  { g with
    stgBase := if g.stgSize = 0 then a.stgBase else g.stgBase
    stgSize := g.stgSize + a.stgSize
    lkBase := if g.lkCount = 0 then a.lkBase else g.lkBase
    lkCount := g.lkCount + a.lkCount
    rcBase := if g.rcCount = 0 then a.rcBase else g.rcBase
    rcCount := g.rcCount + a.rcCount
    links := g.links ||| a.links
    flBase := if g.flCount = 0 then a.flBase else g.flBase
    flCount := g.flCount + a.flCount
    tiles := g.tiles ||| a.tiles
    hbm := if a.hbm.isEmpty then g.hbm
           else if g.hbm.isEmpty then a.hbm
           else List.zipWith (fun x y => (if x.2 = 0 then y.1 else x.1, x.2 + y.2)) g.hbm (a.hbm ++ List.replicate g.hbm.length (0, 0)) }

/-- The drain of one tile begins, where it has not begun: DRAIN goes through the tile's module. -/
def State.drainTile (s : State) (v : Vdix) (n : Nat) : State :=
  let die : BitVec 3 := BitVec.ofNat 3 (n / 32)
  let tile : BitVec 5 := BitVec.ofNat 5 (n % 32)
  if s.bnd.drains.any (fun d => d.die == die && d.tile == tile && d.vdix == v) then s
  else
    let d : Drain := { die := die, tile := tile, vdix := v, at_ := s.now }
    ({ s with bnd := { s.bnd with drains := s.bnd.drains ++ [d] } }).emit (.drain die tile)

/-- BND's part of a boundary: resources that wait are added, tiles being removed are drained, and larger shares fall to
SHAREMAX. -/
def State.bndBoundary (s : State) : State :=
  let s1 : State := { s with bnd := { s.bnd with vdevs := s.bnd.vdevs.map (fun e =>
    (e.1, ({ e.2 with grant := e.2.adding.foldl Grant.join e.2.grant, adding := [] } : VDev))) } }
  let s2 := forAll s1.bnd.vdevs s1 (fun t e =>
    match e.2.removing with
    | some g => forAll ((rangeFrom 0 256).filter (fun n => g.tiles.toNat.testBit n && e.2.grant.tiles.toNat.testBit n)) t
        (fun u n => u.drainTile (BitVec.ofNat 8 e.1) n)
    | none => t)
  { s2 with ctxs := s2.ctxs.map (fun e =>
      (e.1, { e.2 with share := min e.2.share (s2.vdev e.2.vdix).grant.shareMax.toNat })) }

/-! ## Demotions (R78) -/

/-- The demotion of one block begins: its leaf becomes BUSY and the HTU invalidates it. The answer tells whether the block
is dealt with; it waits while no flash range or pending-fault entry is free. -/
def State.demoteBlock (s : State) (c : CtxId) (dva : Nat) : Bool × State :=
  match s.peekWalk c dva with
  | .leaves _ k2 e2 ca vdix =>
    let l := Pte.lsize e2
    if Pte.ts e2 ≠ Ts.mapped ∨ Pte.cls e2 ≠ 3 ∨ Pte.pin e2 ∨ l > 21 then (true, s)
    else if s.ftc.wrstop ∨ !s.ftc.mounted ∨ (s.findRange vdix l).isNone then (false, s)
    else
      match s.freeFault with
      | none => (false, s)
      | some e =>
        let base := pageBase ca l
        let s1 := s.putPte k2 (Pte.setTs e2 Ts.busy)
        let p : PFault :=
          { vdix := vdix, ca := base, key := k2, leaf := e2, svc := .evict, start := s.now, ctx := c, active := true }
        let s2 : State := { s1 with xlt := { s1.xlt with faults := s1.xlt.faults.put e p } }
        (true, s2.invInternal .s2page vdix.toNat (BitVec.ofNat 64 base) (.evict e))
  | .fail _ _ => (true, s)

/-- Blocks of a sequence that lie entirely below its hot window. -/
def SeqDesc.coldBlocks (d : SeqDesc) : Nat := (d.head + 1 - d.hot) / 2 ^ d.lblock

/-- The due demotions of one sequence, in block order, until one has to wait. -/
def State.demoteSeq (s : State) (i : Nat) (d : SeqDesc) : Nat → State
  | 0 => s
  | fuel + 1 =>
    match s.xlt.seqs.look i with
    | none => s
    | some x =>
      if x.low ≥ d.coldBlocks then s
      else
        let r := s.demoteBlock d.ctx (d.base.toNat + x.low * 2 ^ (d.lstride + d.lblock))
        if !r.1 then s
        else
          State.demoteSeq { r.2 with xlt := { r.2.xlt with
            seqs := r.2.xlt.seqs.put i { x with low := x.low + 1 } } } i d fuel

/-- Every due demotion starts. -/
def State.demotions (s : State) : State :=
  forAll s.xlt.seqs s (fun t e => t.demoteSeq e.1 e.2 (e.2.coldBlocks - e.2.low))

/-! ## Heats (R354, R356, R363, R364, R371) -/

/-- A booking list at the end of a heat: what is unused moves to the next heat, up to the due heat. -/
def moveBook (k : Nat) (due : Option Nat) (bs : List (Nat × Nat)) : List (Nat × Nat) :=
  bs.filterMap (fun b =>
    if b.1 ≠ k then some b
    else match due with
      | some d => if k < d then some (k + 1, b.2) else none
      | none => none)

/-- An item at the end of a heat. -/
def Item.boundary (i : Item) (k : Nat) : Item :=
  { i with carried := i.carried || i.due == some k, bookNs := moveBook k i.due i.bookNs, bookB := moveBook k i.due i.bookB }

/-- A heat begins at a time with a displacement D: its length is shortened by at most L/4, and D falls by as much. -/
def State.beginHeat (s : State) (k : Nat) (at_ : DWord) (d : Nat) : State :=
  let l := s.heatL
  let cut := min d (l / 4)
  let s1 : State := { s with pcr := { s.pcr with
    running := true, heat := k, start := at_, len := l - cut, debt := d - cut, stretch := false } }
  (((s1.refreshBudgets).bndBoundary).boundaryGrants).demotions

/-- The current heat ends at a time. No heat begins while PCR's enable is 0. -/
def State.endHeat (s : State) (at_ : DWord) : State :=
  let p := s.pcr
  let d := p.debt + (at_ - s.heatEnd).toNat
  let s1 : State := { s with pcr := { p with items := p.items.map (fun i => i.boundary p.heat) } }
  let s2 := s1.condFault { src := Src.pcrGrid } (decide (d > s.heatL))
  if s.runs Blk.pcr then
    let s3 := s2.beginHeat (p.heat + 1) at_ d
    s3.condFault { src := Src.pcrGrid } (decide (s3.pcr.debt > s3.heatL))
  else { s2 with pcr := { s2.pcr with running := false, stretch := false } }

/-- Whether items whose due heat it is have not yet written their SIGNAL. -/
def State.dueLeft (s : State) : Bool := s.pcr.items.any (fun i => i.due == some s.pcr.heat && !i.carried)

/-- HEAT_PLANNED_END (R363); it also begins the first heat of a grid at its origin (R371). -/
def State.heatPlannedEnd (s : State) : State :=
  if !s.pcr.running then
    if s.runs Blk.pcr ∧ s.reached s.pcr.origin then s.beginHeat 0 s.pcr.origin 0 else s
  else if s.pcr.stretch ∨ !s.reached s.heatEnd then s
  else if s.dueLeft then { s with pcr := { s.pcr with stretch := true } }
  else s.endHeat s.heatEnd

/-- HEAT_STRETCH_LIMIT (R363): a stretch ends at L/4; one whose items have all ended ends at once. -/
def State.heatStretchLimit (s : State) : State :=
  let limit := s.heatEnd + BitVec.ofNat 64 (s.heatL / 4)
  if !s.pcr.running ∨ !s.pcr.stretch then s
  else if !s.dueLeft then s.endHeat (if s.reached limit then limit else s.now)
  else if s.reached limit then s.endHeat limit
  else s

def execHeatPlannedEnd (s : State) : Host.Outcome State Fault Refusal := done s.heatPlannedEnd
def execHeatStretchLimit (s : State) : Host.Outcome State Fault Refusal := done s.heatStretchLimit

/-- PCR's enable changes from 0 to 1 (R354, R371): the grid gets a new origin. Where L has changed, every booking is freed
and open items run on without their promise; else what they have booked is kept, counted from the new grid's first
heat. -/
def State.pcrEnable (s : State) (oldL : Nat) : State :=
  let l := s.heatL
  let origin : Nat := if s.ce .pcrCtrl 1 1 = 1 then roundUp s.now.toNat l else s.now.toNat
  let k := s.pcr.heat
  let shift (bs : List (Nat × Nat)) := bs.map (fun (b : Nat × Nat) => (b.1 - k, b.2))
  let keep (i : Item) : Item := { i with due := i.due.map (fun d => d - k), bookNs := shift i.bookNs, bookB := shift i.bookB }
  let drop (i : Item) : Item := { i with due := none, bookNs := [], bookB := [], carried := false }
  { s with pcr := { s.pcr with
      running := false, origin := BitVec.ofNat 64 origin, heat := 0, stretch := false, debt := 0
      items := s.pcr.items.map (if l = oldL then keep else drop) } }

/-! ## The SIGNAL of an item (R360, R363) -/

/-- A SIGNAL has issued: the queue's open item ends, and what remains of its booking is freed. -/
def State.pcrSigIssue (s : State) (c : CtxId) (q : QIdx) (id : Nat) : State :=
  s.updItem c q (fun i => { i with sig := some id, bookNs := [], bookB := [] })

/-- A SIGNAL has written its event: its item is gone; a stretch ends with the last item that it waited for. -/
def State.pcrSigDone (s : State) (id : Nat) (late : Bool) : State :=
  if !s.pcr.items.any (fun i => i.sig == some id) then s
  else
    let s1 : State := { s with pcr := { s.pcr with
      items := s.pcr.items.filter (fun i => i.sig != some id)
      late := if late then satInc s.pcr.late else s.pcr.late } }
    if s1.pcr.stretch && s1.pcr.running && !s1.dueLeft then s1.endHeat s1.now else s1

end Sys2Proof.Machine
end

