-- ==== Sys2Proof/Machine/Issue.lean ====
section
/-! DEFINITION. How a thread issues the instruction at HEAD of a queue (R190, R191, R200, R215 to R218): readiness, fetch,
checks in order, program faults, retirement. A Jarud row names a queue, and is that queue's next issue where the word at
HEAD is one of the row's; otherwise it changes nothing. -/

namespace Sys2Proof.Machine

/-- What an instruction does once it has passed the common checks; none where it waits at issue. -/
abbrev JBody := CtxId → QIdx → JIn → State → Option State

/-- Whether the oldest held SIGNAL of a queue waits for space in its completion queue: it then holds its queue (R173). -/
def State.cqHolds (s : State) (c : CtxId) (q : QIdx) : Bool :=
  match (s.heldOf c q).head? with
  | some h => s.signalReady h && !s.cqSpace c
  | none => false

/-- Whether a queue may issue now: its context is resident and runs, the queue is ACTIVE and waits for nothing, and PCR
allows it (R162, R167, R186, R190, R220). -/
def State.issueReady (s : State) (c : CtxId) (q : QIdx) : Bool :=
  match s.ctx? c with
  | none => false
  | some x =>
    match x.slot with
    | none => false
    | some n =>
      !x.evict && !x.restoring && x.teardown == .none && s.runs Blk.se && s.runs Blk.dqe && !s.regionFrozen (slotRegion n) &&
      (x.q q).state == .active && (x.q q).wait.isNone && (x.q q).resetting.isNone && s.pcrAllows c q && !s.cqHolds c q

/-- Ring words read from a word count on: their bytes, whether one is poisoned, and the state after the reads. -/
def State.fetchWords (s : State) (c : CtxId) (r : Queue) : Nat → Word → List Byte × Bool × State
  | 0, _ => ([], false, s)
  | n + 1, k =>
    match r.wordAddr k with
    | none => ([], false, s)
    | some a =>
      let x := s.smsRead a 32 (some c) (s.threadOf c)
      let y := State.fetchWords x.2.2 c r n (k + 1)
      (x.1 ++ y.1, x.2.1 || y.2.1, y.2.2)

/-- DVA of a ring word. -/
def Queue.wordDva (r : Queue) (n : Word) : DWord := r.rdva + BitVec.ofNat 64 (n.toNat % 2 ^ r.lsize * 32)

/-- A program fault of the instruction at HEAD (R215 to R217). -/
def State.pfault (s : State) (c : CtxId) (q : QIdx) (reason : Byte) : State :=
  let r := s.queue c q
  let s1 : State := { s with pfaults := satInc s.pfaults }
  (s1.breakAt c q (s1.pendingBehind c q) r.head Code.programFault).raise
    { src := Src.seProgram
      who := s.threadOf c
      addr := r.wordDva r.head
      acc := .fetch
      akind := .dva
      reason := reason
      code := Code.programFault
      ctx := some c
      queue := some q
      iseq := r.head }

/-- HEAD passes an instruction. -/
def State.advance (s : State) (c : CtxId) (q : QIdx) (w : Nat) : State :=
  s.updQ c q (fun r => { r with head := r.head + BitVec.ofNat 32 (J.words w) })

/-- The instruction at HEAD has issued and waits there (R167). -/
def State.waitAt (s : State) (c : CtxId) (q : QIdx) (w : Nat) (x : Wait) : State :=
  s.updQ c q (fun r => { r with wait := some x, wlen := J.words w })

/-- An issued instruction is counted and charged (R220, R357). -/
def State.countIssue (s : State) (c : CtxId) (q : QIdx) : State := ({ s with issued := s.issued + 1 }).pcrCharge c q

/-- Registers that loads and atomics of a queue have still to write. -/
def State.pendingRegs (s : State) (c : CtxId) (q : QIdx) : List Nat :=
  s.reqs.filterMap (fun r =>
    if r.ctx = c ∧ r.queue = some q then
      match r.purpose with
      | .load rd _ => some rd.toNat
      | .atom rd _ _ _ _ => some rd.toNat
      | _ => none
    else none)

/-- Whether the guard of a word lets it execute (R200). -/
def guardPasses (w : Nat) (pred : Byte) : Bool := !J.ge w || pred.toNat.testBit (J.gp w) != J.gn w

/-- The issue of an instruction whose words are fetched. -/
def State.issueWord (s : State) (c : CtxId) (q : QIdx) (w : Nat) (e : JEnc) (pay : List Byte) (poison : Bool) (body : JBody) :
    Option State :=
  let r := s.queue c q
  if poison then some (s.pfault c q Rsn.fetchPoison)
  else
    match encFault w e with
    | some reason => some (s.pfault c q reason)
    | none =>
      if !guardPasses w r.pred then some ((s.countIssue c q).advance c q w)
      else if (regDeps w e).any (fun k => (s.pendingRegs c q).contains k) then none
      else if J.ama w = amIndex ∧ J.amb w = amIndex then some (s.pfault c q Rsn.twoIndex)
      else body c q { w := w, pay := pay, q := r, seqs := s.xlt.seqs } (s.countIssue c q)

/-- The issue of the word at HEAD, where it is one of a row's words. -/
def State.issue (s : State) (c : CtxId) (q : QIdx) (mine : Nat → Bool) (body : JBody) : State :=
  let r := s.queue c q
  if !s.issueReady c q || decide (r.ahead < 1) then s
  else
    let f := s.fetchWords c r 1 r.head
    if f.2.1 then f.2.2.pfault c q Rsn.fetchPoison
    else
      let w := leVal f.1
      if r.ahead < J.words w then s
      else
        match encOf w with
        | none => f.2.2.pfault c q Rsn.opcRsv
        | some e =>
          if !mine w then s
          else
            let x := f.2.2.fetchWords c r (J.xc w) (r.head + 1)
            (x.2.2.issueWord c q w e x.1 x.2.1 body).getD s

/-- A row's words by their opcode. -/
def opcIs (n : Nat) (w : Nat) : Bool := decide (J.opc w = n)

/-- A program fault detected in an instruction's own checks; it has not issued. -/
def faultBody (s : State) (c : CtxId) (q : QIdx) (reason : Byte) : Option State :=
  some (({ s with issued := s.issued - 1 }).pfault c q reason)

/-- A result code, and a second value where it is 0 (R223, R224), and HEAD passes the instruction. -/
def State.result (s : State) (c : CtxId) (q : QIdx) (w : Nat) (code : DWord) (second : Option DWord) : State :=
  (s.updQ c q (fun r =>
    let r1 := r.setG (J.rd w) code
    match second with
    | some v => if code = 0 then r1.setG (J.rd w + 1) v else r1
    | none => r1)).advance c q w

end Sys2Proof.Machine
end

