-- ==== Sys2Proof/Machine/Alu.lean ====
section
/-! DEFINITION. Meanings of the Jarud rows of classes L: control flow, predicates, integers, FLAGS, scalar CONVERT and the
pacing reads (R206, R226 to R234, R262 to R264). -/

namespace Sys2Proof.Machine

/-! ## Shapes -/

/-- An instruction that writes its queue and then retires. -/
def queueBody (f : JIn → Queue → Queue) : JBody := fun c q x s => some ((s.updQ c q (f x)).advance c q x.w)

/-- An integer instruction with flags. -/
def flagBody (op : Nat → Bool → Bool → Byte → DWord → DWord → IntRes) : JBody :=
  queueBody (fun x r =>
    let o := op (J.wid x.w) (J.sg x.w) (J.sat x.w) r.flags x.aVal x.bVal
    { r.setG (J.rd x.w) o.val with flags := o.flags })

/-- An integer instruction without flags. -/
def plainBody (op : Nat → Bool → DWord → DWord → DWord) : JBody :=
  queueBody (fun x r => r.setG (J.rd x.w) (op (J.wid x.w) (J.sg x.w) x.aVal x.bVal))

/-- A predicate written. -/
def Queue.setP (r : Queue) (k : Nat) (b : Bool) : Queue := { r with pred := setFlag r.pred k b }

/-! ## Control flow (R206, R227) -/

/-- Whether a branch target is valid. -/
def Queue.targetOk (r : Queue) (t : Word) : Bool := decide ((r.tail - t).toNat ≤ 2 ^ r.lsize)

/-- A branch to a target, with a link register where the instruction has one. -/
def branchBody (target : JIn → Word) (link : Bool) : JBody := fun c q x s =>
  let t := target x
  if !x.q.targetOk t then faultBody s c q Rsn.badTarget
  else
    some (s.updQ c q (fun r =>
      let r1 := if link then r.setG (J.rd x.w) (BitVec.ofNat 64 (r.head + BitVec.ofNat 32 (J.words x.w)).toNat) else r
      { r1 with head := t }))

/-- The target of a relative branch. -/
def relTarget (x : JIn) : Word := x.q.head + BitVec.ofNat 32 (fld (J.imm2 x.w) 31 0)

def execNop (c : CtxId) (q : QIdx) (s : State) : Host.Outcome State Fault Refusal :=
  done (s.issue c q (opcIs 0x01) (fun c q x s => some (s.advance c q x.w)))
def execBr (c : CtxId) (q : QIdx) (s : State) : Host.Outcome State Fault Refusal :=
  done (s.issue c q (opcIs 0x02) (branchBody relTarget false))
def execBri (c : CtxId) (q : QIdx) (s : State) : Host.Outcome State Fault Refusal :=
  done (s.issue c q (opcIs 0x03) (branchBody (fun x => BitVec.ofNat 32 x.aVal.toNat) false))
def execBrl (c : CtxId) (q : QIdx) (s : State) : Host.Outcome State Fault Refusal :=
  done (s.issue c q (opcIs 0x04) (branchBody relTarget true))

/-! ## Predicates (R228) -/

/-- PLOG: the bit of the truth table that two predicates select. -/
def plogBit (w : Nat) (p : Byte) : Bool :=
  (J.md w).testBit (2 * b2n (p.toNat.testBit (fld (J.ra w) 2 0)) + b2n (p.toNat.testBit (fld (J.rb w) 2 0)))

def execPlog (c : CtxId) (q : QIdx) (s : State) : Host.Outcome State Fault Refusal :=
  done (s.issue c q (opcIs 0x08) (queueBody (fun x r => r.setP (J.rd x.w) (plogBit x.w r.pred))))
def execPset (c : CtxId) (q : QIdx) (s : State) : Host.Outcome State Fault Refusal :=
  done (s.issue c q (opcIs 0x09) (queueBody (fun x r => r.setP (J.rd x.w) (x.aVal ≠ 0))))
def execPread (c : CtxId) (q : QIdx) (s : State) : Host.Outcome State Fault Refusal :=
  done (s.issue c q (opcIs 0x0A) (queueBody (fun x r => r.setG (J.rd x.w) (BitVec.ofNat 64 r.pred.toNat))))
def execPwrite (c : CtxId) (q : QIdx) (s : State) : Host.Outcome State Fault Refusal :=
  done (s.issue c q (opcIs 0x0B) (queueBody (fun x r => { r with pred := BitVec.ofNat 8 x.aVal.toNat })))

/-! ## Integers (R209 to R214, R229, R230) -/

def execAdd (c : CtxId) (q : QIdx) (s : State) : Host.Outcome State Fault Refusal :=
  done (s.issue c q (opcIs 0x20) (flagBody (fun w sg st f a b => addOp w sg st f a b false)))
def execAdc (c : CtxId) (q : QIdx) (s : State) : Host.Outcome State Fault Refusal :=
  done (s.issue c q (opcIs 0x21) (flagBody (fun w sg st f a b => addOp w sg st f a b (flagBit f Fl.c))))
def execSub (c : CtxId) (q : QIdx) (s : State) : Host.Outcome State Fault Refusal :=
  done (s.issue c q (opcIs 0x22) (flagBody (fun w sg st f a b => subOp w sg st f a b false)))
def execSbb (c : CtxId) (q : QIdx) (s : State) : Host.Outcome State Fault Refusal :=
  done (s.issue c q (opcIs 0x23) (flagBody (fun w sg st f a b => subOp w sg st f a b (flagBit f Fl.c))))
def execNeg (c : CtxId) (q : QIdx) (s : State) : Host.Outcome State Fault Refusal :=
  done (s.issue c q (opcIs 0x24) (flagBody (fun w sg st f a _ => negOp w sg st f a)))
def execMul (c : CtxId) (q : QIdx) (s : State) : Host.Outcome State Fault Refusal :=
  done (s.issue c q (opcIs 0x25) (flagBody mulOp))
def execMulh (c : CtxId) (q : QIdx) (s : State) : Host.Outcome State Fault Refusal :=
  done (s.issue c q (opcIs 0x26) (plainBody mulhOp))

/-- DIV and REM (R210 to R212): a zero divisor under TRAPDZ sets DZ and takes a program fault. -/
def divBody (write : Nat → DWord × DWord × Byte → Queue → Queue) : JBody := fun c q x s =>
  let w := J.wid x.w
  if srcNat w x.bVal = 0 ∧ flagBit x.q.flags Fl.trapdz then
    faultBody (s.updQ c q (fun r => { r with flags := setFlag r.flags Fl.dz true })) c q Rsn.divZero
  else
    let o := divOp w (J.sg x.w) (J.sat x.w) x.q.flags x.aVal x.bVal
    some ((s.updQ c q (fun r => { write (J.rd x.w) o r with flags := o.2.2 })).advance c q x.w)

def execDiv (c : CtxId) (q : QIdx) (s : State) : Host.Outcome State Fault Refusal :=
  done (s.issue c q (opcIs 0x27) (divBody (fun d o r => (r.setG d o.1).setG (d + 1) o.2.1)))
def execRem (c : CtxId) (q : QIdx) (s : State) : Host.Outcome State Fault Refusal :=
  done (s.issue c q (opcIs 0x28) (divBody (fun d o r => r.setG d o.2.1)))
def execAnd (c : CtxId) (q : QIdx) (s : State) : Host.Outcome State Fault Refusal :=
  done (s.issue c q (opcIs 0x29) (plainBody (fun w sg a b => bitOp w sg (· &&& ·) a b)))
def execOr (c : CtxId) (q : QIdx) (s : State) : Host.Outcome State Fault Refusal :=
  done (s.issue c q (opcIs 0x2A) (plainBody (fun w sg a b => bitOp w sg (· ||| ·) a b)))
def execXor (c : CtxId) (q : QIdx) (s : State) : Host.Outcome State Fault Refusal :=
  done (s.issue c q (opcIs 0x2B) (plainBody (fun w sg a b => bitOp w sg (· ^^^ ·) a b)))
def execShl (c : CtxId) (q : QIdx) (s : State) : Host.Outcome State Fault Refusal :=
  done (s.issue c q (opcIs 0x2C) (plainBody shlOp))
def execShr (c : CtxId) (q : QIdx) (s : State) : Host.Outcome State Fault Refusal :=
  done (s.issue c q (opcIs 0x2D) (plainBody shrOp))
def execSar (c : CtxId) (q : QIdx) (s : State) : Host.Outcome State Fault Refusal :=
  done (s.issue c q (opcIs 0x2E) (plainBody sarOp))
def execRol (c : CtxId) (q : QIdx) (s : State) : Host.Outcome State Fault Refusal :=
  done (s.issue c q (opcIs 0x2F) (plainBody rolOp))
def execRor (c : CtxId) (q : QIdx) (s : State) : Host.Outcome State Fault Refusal :=
  done (s.issue c q (opcIs 0x30) (plainBody rorOp))
def execMin (c : CtxId) (q : QIdx) (s : State) : Host.Outcome State Fault Refusal :=
  done (s.issue c q (opcIs 0x31) (plainBody minOp))
def execMax (c : CtxId) (q : QIdx) (s : State) : Host.Outcome State Fault Refusal :=
  done (s.issue c q (opcIs 0x32) (plainBody maxOp))

/-- CMP (R230). -/
def cmpBit (x : JIn) : Bool :=
  relHolds (fld (J.imm2 x.w) 2 0) (srcInt (J.wid x.w) (J.sg x.w) x.aVal) (srcInt (J.wid x.w) (J.sg x.w) x.bVal)

def execCmp (c : CtxId) (q : QIdx) (s : State) : Host.Outcome State Fault Refusal :=
  done (s.issue c q (opcIs 0x33) (queueBody (fun x r => r.setP (J.rd x.w) (cmpBit x))))

/-- Whether an INLINE operand of a length lies beyond the payload (R204). -/
def inlineOver (w imm n : Nat) : Bool := decide (fld imm 7 0 + n > 32 * J.xc w)

/-- MOV (R229): INLINE reads W / 8 payload bytes. -/
def movBody : JBody := fun c q x s =>
  let n := J.wid x.w / 8
  if J.ama x.w = amInline ∧ inlineOver x.w (J.imm0 x.w) n then faultBody s c q Rsn.inlineLen
  else
    let v := if J.ama x.w = amInline then BitVec.ofNat 64 (leVal (x.inline (fld (J.imm0 x.w) 7 0) n)) else x.aVal
    queueBody (fun y r => r.setG (J.rd y.w) (extend (J.wid y.w) (J.sg y.w) (srcNat (J.wid y.w) v))) c q x s

def execMov (c : CtxId) (q : QIdx) (s : State) : Host.Outcome State Fault Refusal := done (s.issue c q (opcIs 0x34) movBody)
def execLea (c : CtxId) (q : QIdx) (s : State) : Host.Outcome State Fault Refusal :=
  done (s.issue c q (opcIs 0x35) (queueBody (fun x r => r.setG (J.rd x.w) x.aDva)))
def execPopc (c : CtxId) (q : QIdx) (s : State) : Host.Outcome State Fault Refusal :=
  done (s.issue c q (opcIs 0x36) (plainBody (fun w _ a _ => popcOp w a)))
def execClz (c : CtxId) (q : QIdx) (s : State) : Host.Outcome State Fault Refusal :=
  done (s.issue c q (opcIs 0x37) (plainBody (fun w _ a _ => clzOp w a)))

/-! ## FLAGS and CVT (R233, R234, R285, R287) -/

def execFlagsRd (c : CtxId) (q : QIdx) (s : State) : Host.Outcome State Fault Refusal :=
  done (s.issue c q (opcIs 0x38) (queueBody (fun x r => r.setG (J.rd x.w) (BitVec.ofNat 64 r.flags.toNat))))

/-- FLAGS under a mask. -/
def flagsMasked (f a m : Byte) : Byte := (f &&& ~~~m) ||| (a &&& m)

def execFlagsWr (c : CtxId) (q : QIdx) (s : State) : Host.Outcome State Fault Refusal :=
  done (s.issue c q (opcIs 0x39) (queueBody (fun x r =>
    { r with flags := flagsMasked r.flags (BitVec.ofNat 8 x.aVal.toNat) (BitVec.ofNat 8 (J.imm2 x.w)) })))

/-- The source of random values of a queue's CVT. -/
def State.seRng (s : State) (c : CtxId) (q : QIdx) (seq : Word) : Rng :=
  if s.ce .seSrndCtrl 16 16 = 1 then { key := some (srndKey (s.ce .seSrndCtrl 14 0) c q seq), free := s.free }
  else { key := none, free := s.free }

/-- Fill of a scalar result: sign for an integer, zero for a float. -/
def cvtFill (f : Fmt) (code : Nat) : DWord :=
  match f with
  | .int n => extend n true code
  | _ => BitVec.ofNat 64 code

/-- CVT. -/
def cvtBody : JBody := fun c q x s =>
  let cv := cvOf (fld (J.imm2 x.w) 55 40)
  let v := x.aVal.toNat
  let draws := cv.rnd = 4 && !cv.same && cv.dst.draws (cv.src.decode 0 (v % 2 ^ cv.src.bits))
  let g := (s.seRng c q x.q.head).next 0 draws
  let o := cvtScalar cv v g.1
  some ((({ s with free := g.2.free }).updQ c q (fun r =>
    { r.setG (J.rd x.w) (cvtFill cv.dst o.1) with
      flags := stick (stick (stick r.flags Fl.unf o.2.unf) Fl.ovf o.2.ovf) Fl.inv o.2.inv })).advance c q x.w)

def execCvt (c : CtxId) (q : QIdx) (s : State) : Host.Outcome State Fault Refusal := done (s.issue c q (opcIs 0x3A) cvtBody)

/-! ## Pacing (R262 to R264) -/

def execTime (c : CtxId) (q : QIdx) (s : State) : Host.Outcome State Fault Refusal :=
  done (s.issue c q (opcIs 0xA0) (fun c q x s => some ((s.updQ c q (fun r => r.setG (J.rd x.w) s.now)).advance c q x.w)))

/-- DEADLINE (R263). -/
def deadlineOf (x : JIn) (now : DWord) : DWord :=
  if (J.md x.w).testBit 0 then x.aVal else if x.aVal = 0 then 0 else now + x.aVal

def execDeadline (c : CtxId) (q : QIdx) (s : State) : Host.Outcome State Fault Refusal :=
  done (s.issue c q (opcIs 0xA1) (fun c q x s =>
    some ((s.updQ c q (fun r => { r with deadline := deadlineOf x s.now })).advance c q x.w)))

def execBudget (c : CtxId) (q : QIdx) (s : State) : Host.Outcome State Fault Refusal :=
  done (s.issue c q (opcIs 0xA3) (fun c q x s =>
    some ((s.updQ c q (fun r => r.setG (J.rd x.w) (s.budgetNs c q))).advance c q x.w)))

/-- The number of a context's events. -/
def State.eventsOf (s : State) (c : CtxId) : Nat := match s.ctx? c with
  | some x => x.events
  | none => 0

/-- ADMIT: a refusal of MOD[0] = 1 errors the named event (R264). -/
def admitBody : JBody := fun c q x s =>
  let e := fld (J.imm2 x.w) 15 0
  if (J.md x.w).testBit 0 ∧ e ≥ s.eventsOf c then faultBody s c q Rsn.eventRange
  else
    let r := s.pcrAdmit c q x.q.head x.aVal x.bVal
    let s1 := if r.1 = 3 ∧ (J.md x.w).testBit 0 then r.2.attachEvent c q e Code.refusedAdmission x.q.head else r.2
    some (s1.result c q x.w r.1 none)

def execAdmitItem (c : CtxId) (q : QIdx) (s : State) : Host.Outcome State Fault Refusal :=
  done (s.issue c q (opcIs 0xA2) admitBody)

end Sys2Proof.Machine
end

