-- ==== Sys2Proof/Machine/JMem.lean ====
section
/-! DEFINITION. Meanings of the Jarud rows that reach memory: LOAD, STORE, ATOM, PROBE, TOUCH, MOVE, CONVERT (R183, R203,
R205, R235 to R245, R335, R336, R365). -/

namespace Sys2Proof.Machine

/-! ## Access requests of a thread -/

/-- A scalar access of an instruction becomes a request; HEAD is not moved. -/
def State.threadReq (s : State) (c : CtxId) (q : QIdx) (x : JIn) (a : DWord) (n : Nat) (rd wr flag : Bool) (p : Purpose) :
    Nat × State :=
  let i := s.newId
  (i.1, i.2.addReq
    { id := i.1, who := s.threadOf c, cluster := s.clusterOf c, ctx := c, queue := some q, seq := x.q.head, addr := a, len := n
      rd := rd, wr := wr, flag := flag, purpose := p, started := s.now })

/-- An access that fails before it begins, with XLATE_UNRESOLVED and a reason (R77, R203, R241). -/
def State.failAccess (s : State) (c : CtxId) (q : QIdx) (x : JIn) (a : DWord) (n : Nat) (rd wr : Bool) (reason : Byte) : State :=
  let i := s.threadReq c q x a n rd wr false (if wr then .store [] else .load 0 false)
  i.2.failXlate i.1 Code.xlateUnresolved reason 7 0 0

/-- Whether an earlier scalar access of a queue to overlapping bytes has not completed (R335). -/
def State.overlaps (s : State) (c : CtxId) (q : QIdx) (a n : Nat) : Bool :=
  s.reqs.any (fun r => r.ctx == c && r.queue == some q && decide (a < r.addr.toNat + r.len) && decide (r.addr.toNat < a + n) &&
    (match r.purpose with
     | .load _ _ => true
     | .store _ => r.phase != .accepted
     | .atom _ _ _ _ _ => true
     | _ => false))

/-- An orphaned context's access that needs a host path stalls its queue at the instruction (R183). -/
def State.stallFor (s : State) (c : CtxId) (a : Nat) : Bool :=
  match s.ctx? c with
  | some x => x.orph && s.needsHost c a
  | none => false

/-- A queue enters STALLED with HEAD at the instruction, which has not issued. -/
def State.stall (s : State) (c : CtxId) (q : QIdx) : State :=
  ({ s with issued := s.issued - 1 }).updQ c q (fun r => { r with state := .stalled })

/-- A scalar access: the check of a TOKEN operand, alignment, order, a stall, and then its request. -/
def scalarBody (n : JIn → Nat) (rd wr : Bool) (flag : JIn → Bool) (p : JIn → Purpose) : JBody := fun c q x s =>
  let k := n x
  let a := x.aDva
  match x.aTokenFault c with
  | some reason => some ((s.failAccess c q x a k rd wr reason))
  | none =>
    if a.toNat % k ≠ 0 then faultBody s c q Rsn.misalign
    else if s.overlaps c q a.toNat k then none
    else if s.stallFor c a.toNat then some (s.stall c q)
    else some ((s.threadReq c q x a k rd wr (flag x && !s.relaxedQ c q) (p x)).2.advance c q x.w)

/-- Bytes of a scalar access. -/
def scalarLen (x : JIn) : Nat := J.wid x.w / 8

def execLoad (c : CtxId) (q : QIdx) (s : State) : Host.Outcome State Fault Refusal :=
  done (s.issue c q (opcIs 0x40)
    (scalarBody scalarLen true false (fun _ => false) (fun x => .load (BitVec.ofNat 5 (J.rd x.w)) (J.sg x.w))))

/-- The bytes that a STORE writes. -/
def storeData (x : JIn) : List Byte :=
  if J.amb x.w = amInline then x.inline (fld (J.imm1 x.w) 7 0) (scalarLen x) else leBytes (scalarLen x) x.bVal.toNat

/-- STORE: an INLINE operand beyond the payload is a program fault. -/
def storeBody : JBody := fun c q x s =>
  if J.amb x.w = amInline ∧ inlineOver x.w (J.imm1 x.w) (scalarLen x) then faultBody s c q Rsn.inlineLen
  else scalarBody scalarLen false true (fun y => (J.md y.w).testBit 4) (fun y => .store (storeData y)) c q x s

def execStore (c : CtxId) (q : QIdx) (s : State) : Host.Outcome State Fault Refusal := done (s.issue c q (opcIs 0x41) storeBody)

/-- A word of ATOM with an operation. -/
def atomIs (op : Nat) (w : Nat) : Bool := decide (J.opc w = 0x42) && decide (fld (J.imm2 w) 2 0 = op)

/-- ATOM (R236). -/
def atomBody : JBody :=
  scalarBody scalarLen true true (fun _ => false)
    (fun x => .atom (BitVec.ofNat 5 (J.rd x.w)) (BitVec.ofNat 3 (fld (J.imm2 x.w) 2 0)) (J.sg x.w) x.bVal x.cVal)

def execAtomSwap (c : CtxId) (q : QIdx) (s : State) : Host.Outcome State Fault Refusal := done (s.issue c q (atomIs 0) atomBody)
def execAtomAdd (c : CtxId) (q : QIdx) (s : State) : Host.Outcome State Fault Refusal := done (s.issue c q (atomIs 1) atomBody)
def execAtomAnd (c : CtxId) (q : QIdx) (s : State) : Host.Outcome State Fault Refusal := done (s.issue c q (atomIs 2) atomBody)
def execAtomOr (c : CtxId) (q : QIdx) (s : State) : Host.Outcome State Fault Refusal := done (s.issue c q (atomIs 3) atomBody)
def execAtomXor (c : CtxId) (q : QIdx) (s : State) : Host.Outcome State Fault Refusal := done (s.issue c q (atomIs 4) atomBody)
def execAtomMin (c : CtxId) (q : QIdx) (s : State) : Host.Outcome State Fault Refusal := done (s.issue c q (atomIs 5) atomBody)
def execAtomMax (c : CtxId) (q : QIdx) (s : State) : Host.Outcome State Fault Refusal := done (s.issue c q (atomIs 6) atomBody)
def execAtomCas (c : CtxId) (q : QIdx) (s : State) : Host.Outcome State Fault Refusal := done (s.issue c q (atomIs 7) atomBody)

/-! ## PROBE and TOUCH (R239) -/

/-- The translation word of an address. -/
def State.probeWord (s : State) (c : CtxId) (a : Nat) (wr : Bool) : Nat :=
  match s.peekWalk c a with
  | .fail _ _ => 7 * 2
  | .leaves s1 _ e _ _ =>
    let ok := permits (!wr) wr false (some c) (s1.map Prod.snd) e
    let r := Pte.r e && (match s1 with | some p => Pte.r p.2 | none => true)
    let w := Pte.w e && (match s1 with | some p => Pte.w p.2 | none => true)
    (Pte.cls e).toNat * 256 + b2n ok * 64 + b2n w * 32 + b2n r * 16 + Pte.ts e * 2 + b2n (ok && decide (Pte.ts e = Ts.mapped))

/-- TOUCH's start of a service: the leaf becomes BUSY and no request waits for it. -/
def State.touchPage (s : State) (c : CtxId) (a : DWord) (wr : Bool) : State :=
  match s.peekWalk c a.toNat with
  | .leaves s1 k2 e ca vdix =>
    let ts := Pte.ts e
    if permits (!wr) wr false (some c) (s1.map Prod.snd) e && (ts == Ts.zero || ts == Ts.flashed || ts == Ts.host) &&
        s.freeFault.isSome then
      let i := s.newId
      i.2.startFault i.1
        { id := i.1, who := s.threadOf c, ctx := c, addr := a, len := 1, rd := !wr, wr := wr, purpose := .wait, started := s.now }
        k2 e ca vdix
    else s
  | .fail _ _ => s

/-- PROBE and TOUCH. -/
def probeBody (touch : Bool) : JBody := fun c q x s =>
  let wr := (J.md x.w).testBit 0
  let a := x.aDva
  let bad := (x.aTokenFault c).isSome
  let v := if bad then 14 else s.probeWord c a.toNat wr
  let s1 := if touch && !bad then s.touchPage c a wr else s
  some ((s1.updQ c q (fun r => r.setG (J.rd x.w) (BitVec.ofNat 64 v))).advance c q x.w)

def execProbe (c : CtxId) (q : QIdx) (s : State) : Host.Outcome State Fault Refusal :=
  done (s.issue c q (opcIs 0x44) (probeBody false))
def execTouch (c : CtxId) (q : QIdx) (s : State) : Host.Outcome State Fault Refusal :=
  done (s.issue c q (opcIs 0x45) (probeBody true))

/-! ## MOVE and CONVERT (R240 to R245) -/

/-- Mover channels that hold descriptors of a context (R365). -/
def State.descsOf (s : State) (c : CtxId) : Nat :=
  (s.map.descs.filter (fun d => d.chan.isSome && (match d.owner with
    | .queue x _ _ => x == c
    | _ => false))).length

/-- Whether a context may not place another descriptor now. -/
def State.descsFull (s : State) (c : CtxId) : Bool := decide (s.descsOf c ≥ s.ce .pcrOt 15 8)

/-- Length of a MOVE, CONVERT: IMM2[39:0], or gRC. -/
def moveLen (x : JIn) : Nat := if (J.md x.w).testBit 1 then x.cVal.toNat else fld (J.imm2 x.w) 39 0

/-- The descriptor of a MOVE or CONVERT. -/
def moveDesc (id : Nat) (c : CtxId) (q : QIdx) (x : JIn) : Desc :=
  let m := J.md x.w
  { id := id
    owner := .queue c q x.q.head
    src := if J.ama x.w = amInline then .inline (x.pay.drop (fld (J.imm0 x.w) 7 0)) else .dva x.aDva
    dst := .dva x.bDva
    conv := if m.testBit 2 then some (BitVec.ofNat 16 (fld (J.imm2 x.w) 55 40)) else none
    len := moveLen x
    paced := if m.testBit 3 then some (BitVec.ofNat 6 (fld (J.imm2 x.w) 61 56)) else none
    bbit := m.testBit 0
    status := if J.opc x.w = 0x49 then some (BitVec.ofNat 64 (leVal (x.pay.take 8))) else none }

/-- A queue's descriptor goes to MAP; the queue retires the instruction, or waits at it for a channel or, with B = 1, for
its writes (R244, R324). -/
def State.sendDesc (s : State) (c : CtxId) (q : QIdx) (w : Nat) (d : Desc) : State :=
  let s1 := s.pcrBytes c q (d.dstBytes d.len)
  let s2 := s1.waitAt c q w (.channel d.id)
  let p := s2.startDesc d
  if p.1 then
    if d.bbit then (match (p.2.queue c q).wait with
      | some (.channel _) => p.2.updQ c q (fun r => { r with wait := some (.moveB d.id) })
      | _ => p.2)
    else (match (p.2.queue c q).wait with
      | some (.channel _) => p.2.retireWait c q 0 0
      | _ => p.2)
  else p.2

/-- MOVE and CONVERT. -/
def moveBody : JBody := fun c q x s =>
  let i := s.newId
  let d := moveDesc i.1 c q x
  let inl := J.ama x.w = amInline
  if inl ∧ inlineOver x.w (J.imm0 x.w) (d.srcBytes d.len) then faultBody s c q Rsn.inlineLen
  else if J.opc x.w = 0x49 ∧ leVal (x.pay.take 8) % 16 ≠ 0 then faultBody s c q Rsn.misalign
  else if (J.md x.w).testBit 1 ∧ x.cVal.toNat ≥ 2 ^ 40 then
    some (s.failAccess c q x x.aDva 0 true false Rsn.lenRange)
  else if d.len = 0 then some (s.advance c q x.w)
  else
    match x.aTokenFault c, x.bTokenFault c with
    | some reason, _ => some (s.failAccess c q x x.aDva 1 true false reason)
    | none, some reason => some (s.failAccess c q x x.bDva 1 false true reason)
    | none, none =>
      if s.descsFull c then none
      else if (!inl && s.stallFor c x.aDva.toNat) || s.stallFor c x.bDva.toNat then some (s.stall c q)
      else some (i.2.sendDesc c q x.w d)

def execMove (c : CtxId) (q : QIdx) (s : State) : Host.Outcome State Fault Refusal := done (s.issue c q (opcIs 0x48) moveBody)
def execConvert (c : CtxId) (q : QIdx) (s : State) : Host.Outcome State Fault Refusal := done (s.issue c q (opcIs 0x49) moveBody)

end Sys2Proof.Machine
end

