-- ==== Sys2Proof/Machine/JSync.lean ====
section
/-! DEFINITION. Meanings of the fences, SIGNAL, waits, batons and locks (R248 to R255, R333, R341). -/

namespace Sys2Proof.Machine

/-! ## HURDLE (R248) -/

/-- Whether a mask of directions selects one; a mask of 0 selects all three. -/
def dirIn (m : BitVec 3) (d : Nat) : Bool := m = 0 || m.toNat.testBit d

/-- Whether a page of an address may lie in a selected direction. -/
def State.addrIn (s : State) (c : CtxId) (m : BitVec 3) (a : Nat) : Bool :=
  match s.pageCls c a with
  | some k => dirIn m (clsDir k)
  | none => true

/-- Whether a descriptor may access a selected direction: any page of its spans may. -/
def State.descIn (s : State) (c : CtxId) (m : BitVec 3) (d : Desc) : Bool :=
  let side (x : Side) (n : Nat) : Bool := match x with
    | .dva a => (rangeFrom 0 ((a.toNat % 4096 + n + 4095) / 4096)).any (fun k => s.addrIn c m (pageBase a.toNat 12 + 4096 * k))
    | _ => false
  side d.src (d.srcBytes d.len) || side d.dst (d.dstBytes d.len) || d.status.isSome || d.agg.isSome

/-- Whether every access that a queue issued before a place, in the selected directions, has completed. -/
def State.hurdleClear (s : State) (c : CtxId) (q : QIdx) (m : BitVec 3) (mark : Nat) : Bool :=
  (s.reqsBefore c q mark).all (fun r => r.phase == .accepted || (match r.tr with
    | some t => !dirIn m (clsDir t.cls)
    | none => false)) &&
  (s.descsBefore c q mark).all (fun d => !s.descIn c m d) &&
  !s.invsBefore c q mark &&
  ((s.heldOf c q).isEmpty || !(dirIn m 1 || (dirIn m 0 && (match s.ctx? c with
    | some x => x.hostCq
    | none => false))))

/-- What follows the hurdle of an instruction at HEAD, which then retires. -/
def State.hurdleEnd (s : State) (c : CtxId) (q : QIdx) (after : AfterHurdle) : State :=
  match after with
  | .nothing => s.retireWait c q 0 0
  | .eventReset e => (s.evWrite c e (Ev.mk 0 q 0 false 0)).retireWait c q 0 0
  | .lockRel k rd =>
    let r := s.lkRel k (.queue c q (initId (s.threadOf c)))
    r.2.retireWait c q rd r.1

/-- An instruction with a hurdle: it retires at once where nothing is outstanding. -/
def hurdleBody (dirs : JIn → BitVec 3) (after : JIn → AfterHurdle) : JBody := fun c q x s =>
  let s1 := s.waitAt c q x.w (.hurdle (dirs x) (after x) s.nextId)
  if s.hurdleClear c q (dirs x) s.nextId then some (s1.hurdleEnd c q (after x)) else some s1

def execHurdle (c : CtxId) (q : QIdx) (s : State) : Host.Outcome State Fault Refusal :=
  done (s.issue c q (opcIs 0x60) (hurdleBody (fun x => BitVec.ofNat 3 (J.md x.w)) (fun _ => .nothing)))

/-- HURDLE_RELEASE. -/
def State.hurdleRelease (s : State) (c : CtxId) (q : QIdx) : State :=
  match (s.queue c q).wait with
  | some (.hurdle m after mark) =>
    if s.resident c && s.hurdleClear c q m mark && (s.queue c q).state == .active then s.hurdleEnd c q after else s
  | _ => s

def execHurdleRelease (c : CtxId) (q : QIdx) (s : State) : Host.Outcome State Fault Refusal := done (s.hurdleRelease c q)

/-! ## SIGNAL (R249, R250, R341) -/

/-- The event that a SIGNAL names. -/
def signalEvent (x : JIn) : Nat := if (J.md x.w).testBit 0 then fld x.cVal.toNat 15 0 else fld (J.imm2 x.w) 15 0

/-- SIGNAL issues: it is held until R249 lets it write. -/
def signalBody : JBody := fun c q x s =>
  let e := signalEvent x
  if e ≥ s.eventsOf c then faultBody s c q Rsn.eventRange
  else
    let i := s.newId
    let h : Held :=
      { id := i.1, ctx := c, queue := q, seq := x.q.head, event := e, value := BitVec.ofNat 32 x.aVal.toNat, deadline := x.q.deadline }
    some ((({ i.2 with helds := i.2.helds ++ [h] }).pcrSigIssue c q i.1).advance c q x.w)

def execSignal (c : CtxId) (q : QIdx) (s : State) : Host.Outcome State Fault Refusal := done (s.issue c q (opcIs 0x61) signalBody)

/-- A SIGNAL writes its event word and its record. -/
def State.signalWrite (s : State) (h : Held) : State :=
  let late := decide (h.deadline ≠ 0 ∧ h.deadline.toNat < s.now.toNat)
  let s0 : State := { s with helds := s.helds.filter (fun k => decide (k.id ≠ h.id)) }
  let r := s0.evRead h.ctx h.event
  let err := decide (Ev.state r.1 = 2)
  let s1 := if err then r.2 else r.2.evWrite h.ctx h.event (Ev.mk h.value.toNat h.queue 0 late 1)
  let s2 := s1.cqPost h.ctx
    { event := BitVec.ofNat 16 h.event
      st := if err then 2 else 1
      late := late
      code := if err then BitVec.ofNat 8 (Ev.code r.1) else 0
      queue := h.queue
      seq := h.seq
      value := h.value
      lateness := if late then sat32 (s.now.toNat - h.deadline.toNat) else 0 }
  let s3 := (s2.updQ h.ctx h.queue (fun x => { x with sigs := x.sigs ++ [(h.id, h.event, h.seq)] })).finalSigs h.ctx h.queue
  s3.pcrSigDone h.id late

/-- SIGNAL_RELEASE: the queue's oldest held SIGNAL, while its completion queue has space. -/
def State.signalRelease (s : State) (c : CtxId) (q : QIdx) : State :=
  match (s.heldOf c q).head? with
  | some h =>
    let room := match s.ctx? c with
      | some x => x.recWait.isEmpty && s.cqSpace c
      | none => false
    if s.signalReady h && room then s.signalWrite h else s
  | none => s

def execSignalRelease (c : CtxId) (q : QIdx) (s : State) : Host.Outcome State Fault Refusal := done (s.signalRelease c q)

/-- EVENT.RESET (R253): a hurdle on all three directions, and then the write. -/
def eventResetBody : JBody := fun c q x s =>
  let e := fld (J.imm2 x.w) 15 0
  if e ≥ s.eventsOf c then faultBody s c q Rsn.eventRange
  else hurdleBody (fun _ => 0) (fun _ => .eventReset e) c q x s

def execEventReset (c : CtxId) (q : QIdx) (s : State) : Host.Outcome State Fault Refusal :=
  done (s.issue c q (opcIs 0x64) eventResetBody)

/-! ## Waits (R251, R252, R254) -/

/-- The time at which a wait of IMM2[47:16] nanoseconds ends; none where the field is 0. -/
def waitLimit (x : JIn) (now : DWord) : Option DWord :=
  let n := fld (J.imm2 x.w) 47 16
  if n = 0 then none else some (now + BitVec.ofNat 64 n)

/-- A queue that waits on an event looks at its word. -/
def State.evCheck (s : State) (c : CtxId) (q : QIdx) : State :=
  match (s.queue c q).wait with
  | some (.event e thr rd _) =>
    let r := s.evRead c e
    if evEnds r.1 thr then r.2.retireWait c q rd (BitVec.ofNat 64 r.1) else r.2
  | _ => s

/-- WAIT.EV. -/
def waitEvBody : JBody := fun c q x s =>
  let e := fld (J.imm2 x.w) 15 0
  if e ≥ s.eventsOf c then faultBody s c q Rsn.eventRange
  else
    some ((s.waitAt c q x.w (.event e (BitVec.ofNat 32 x.bVal.toNat) (BitVec.ofNat 5 (J.rd x.w)) (waitLimit x s.now))).evCheck c q)

def execWaitEv (c : CtxId) (q : QIdx) (s : State) : Host.Outcome State Fault Refusal := done (s.issue c q (opcIs 0x62) waitEvBody)

/-- The read of a queue that waits on a memory word; one is under way at a time. -/
def State.waitRead (s : State) (c : CtxId) (q : QIdx) (seq : Word) (a : DWord) : State :=
  if s.reqs.any (fun r => r.ctx == c && r.queue == some q && r.purpose == .wait) then s
  else
    let i := s.newId
    i.2.addReq
      { id := i.1, who := s.threadOf c, cluster := s.clusterOf c, ctx := c, queue := some q, seq := seq, addr := a, len := 8
        rd := true, wr := false, purpose := .wait, started := s.now }

/-- WAIT.MEM and BATON.TAKE, with the relation and signedness that they compare by. -/
def waitMemBody (rel : JIn → Nat) (sg : JIn → Bool) : JBody := fun c q x s =>
  let a := x.aDva
  match x.aTokenFault c with
  | some reason => some (s.failAccess c q x a 8 true false reason)
  | none =>
    if a.toNat % 8 ≠ 0 then faultBody s c q Rsn.misalign
    else if s.overlaps c q a.toNat 8 then none
    else if s.stallFor c a.toNat then some (s.stall c q)
    else
      some ((s.waitAt c q x.w (.mem a (BitVec.ofNat 3 (rel x)) (sg x) x.bVal (BitVec.ofNat 5 (J.rd x.w)) (waitLimit x s.now) 0)).waitRead
        c q x.q.head a)

def execWaitMem (c : CtxId) (q : QIdx) (s : State) : Host.Outcome State Fault Refusal :=
  done (s.issue c q (opcIs 0x63) (waitMemBody (fun x => fld (J.imm2 x.w) 2 0) (fun x => J.sg x.w)))

def execBatonTake (c : CtxId) (q : QIdx) (s : State) : Host.Outcome State Fault Refusal :=
  done (s.issue c q (opcIs 0x68) (waitMemBody (fun _ => 0) (fun _ => false)))

/-- WAIT_REREAD: a waiting queue reads its word, or its event, again. -/
def State.reread (s : State) (c : CtxId) (q : QIdx) : State :=
  let r := s.queue c q
  if !s.resident c || r.state != .active then s
  else
    match r.wait with
    | some (.mem a _ _ _ _ _ _) => if s.stallFor c a.toNat then s.updQ c q (fun x => { x with state := .stalled, wait := none })
                                  else s.waitRead c q r.head a
    | some (.event _ _ _ _) => s.evCheck c q
    | _ => s

def execWaitReread (c : CtxId) (q : QIdx) (s : State) : Host.Outcome State Fault Refusal := done (s.reread c q)

/-- A wait whose limit has come, with what it writes to gd: the event word, or the last word read. -/
def State.waitTimeout (s : State) (c : CtxId) (q : QIdx) : State :=
  let r := s.queue c q
  if !s.resident c || r.state != .active then s
  else
    match r.wait with
    | some (.event e _ rd (some t)) =>
      if s.reached t then let x := s.evRead c e; x.2.retireWait c q rd (BitVec.ofNat 64 x.1) else s
    | some (.mem _ _ _ _ rd (some t) last) =>
      if s.reached t then
        let s1 := s.dropReqs (fun k => k.ctx == c && k.queue == some q && k.purpose == .wait)
        s1.retireWait c q rd last
      else s
    | _ => s

def execWaitTimeout (c : CtxId) (q : QIdx) (s : State) : Host.Outcome State Fault Refusal := done (s.waitTimeout c q)

/-- BATON.GIVE (R254): a flag write, or a data write of a relaxed queue (R336). -/
def execBatonGive (c : CtxId) (q : QIdx) (s : State) : Host.Outcome State Fault Refusal :=
  done (s.issue c q (opcIs 0x69)
    (scalarBody (fun _ => 8) false true (fun _ => true) (fun x => .store (leBytes 8 x.bVal.toNat))))

/-! ## Locks (R255) -/

/-- Whether a lock lies in the range of a context's virtual device. -/
def State.lockIn (s : State) (c : CtxId) (k : Nat) : Bool :=
  let g := (s.vdev (s.ctxVdix c)).grant
  decide (g.lkBase.toNat ≤ k ∧ k < g.lkBase.toNat + g.lkCount.toNat)

/-- The lock that an instruction names. -/
def lockOf (x : JIn) : Nat := fld x.aVal.toNat 11 0

/-- LOCK.TRY and, where the lock is held by another, the wait of LOCK.ACQ. -/
def lockBody (wait : Bool) : JBody := fun c q x s =>
  let k := lockOf x
  let me : LockOwner := .queue c q (initId (s.threadOf c))
  if !s.lockIn c k then some (s.result c q x.w 2 none)
  else if !s.runs Blk.lkt then none
  else
    let r := s.lkTry k me
    if r.1 = 5 ∧ wait then
      if s.lkt.waiters.length ≥ lkWaiterMax then none
      else
        let lim := waitLimit x s.now
        let s1 : State := { s with lkt := { s.lkt with waiters := s.lkt.waiters ++ [{ lk := k, who := me, limit := lim }] } }
        some (s1.waitAt c q x.w (.lock k (BitVec.ofNat 5 (J.rd x.w)) lim))
    else some (r.2.result c q x.w r.1 none)

def execLockAcq (c : CtxId) (q : QIdx) (s : State) : Host.Outcome State Fault Refusal :=
  done (s.issue c q (opcIs 0x6C) (lockBody true))
def execLockTry (c : CtxId) (q : QIdx) (s : State) : Host.Outcome State Fault Refusal :=
  done (s.issue c q (opcIs 0x6D) (lockBody false))

/-- LOCK.REL: a hurdle on all three directions, and then the release. -/
def lockRelBody : JBody := fun c q x s =>
  let k := lockOf x
  if !s.lockIn c k then some (s.result c q x.w 2 none)
  else if !s.runs Blk.lkt then none
  else hurdleBody (fun _ => 0) (fun y => .lockRel k (BitVec.ofNat 5 (J.rd y.w))) c q x s

def execLockRel (c : CtxId) (q : QIdx) (s : State) : Host.Outcome State Fault Refusal :=
  done (s.issue c q (opcIs 0x6E) lockRelBody)

end Sys2Proof.Machine
end

