-- ==== Sys2Proof/Machine/Tbl.lean ====
section
/-! DEFINITION. Writing and reading the tables (R50 to R58, R64 to R79, R256 to R261): frame allocation, TBL and INV
instructions, the return of empty child tables. -/

namespace Sys2Proof.Machine

/-! ## The frame pool (R50, R70, R73, R74) -/

/-- First frame and number of frames of the pool. -/
def poolFirst : Nat := 16384
def poolFrames : Nat := 507904

/-- Free frames (XLT_TST_FREE). -/
def State.tstFree (s : State) : Nat := poolFrames - s.xlt.frames.length

/-- The least number from `n` that a list of rising keys does not hold. -/
def firstGap {α : Type} : Map α → Nat → Nat
  | [], n => n
  | (k, _) :: m, n => if k = n then firstGap m (n + 1) else if k < n then firstGap m n else n

/-- TST_LOW follows the number of free frames. -/
def State.tstCheck (s : State) : State :=
  s.condFault { src := Src.tstLow } (decide (s.tstFree < s.rf .xltTstLowmark 18 0))

/-- A change of the number of valid entries of a table, in its record and in the pointer entry that names it (R56). -/
def State.vcount (s : State) (frame : Nat) (f : Nat → Nat) : State :=
  match s.xlt.frames.look frame with
  | none => s
  | some x =>
    let n := f x.vcount
    let s1 : State := { s with xlt := { s.xlt with frames := s.xlt.frames.put frame { x with vcount := n } } }
    match x.parent with
    | some p => s1.putPte (pteKey p.1 p.2) (Pte.set (s1.pte (pteKey p.1 p.2)) 41 32 n)
    | none => s1

/-- A frame allocated and cleared: a root, or a child with its pointer entry written (R69). -/
def State.allocFrame (s : State) (level : Nat) (stage2 gran : Bool) (parent : Option (Nat × Nat)) : Nat × State :=
  let n := firstGap s.xlt.frames poolFirst
  let f : Frame := { level := level, stage2 := stage2, gran := gran, parent := parent }
  let s1 : State := { s with xlt := { s.xlt with frames := s.xlt.frames.put n f } }
  let s2 := match parent with
    | some p => (s1.putPte (pteKey p.1 p.2) (BitVec.ofNat 128 (1 + b2n gran * 4 + n * 16))).vcount p.1 (· + 1)
    | none => s1
  (n, s2.tstCheck)

/-- A frame returns to the pool with its entries cleared. -/
def State.freeFrame (s : State) (n : Nat) : State :=
  ({ s with xlt := { s.xlt with
      frames := s.xlt.frames.del n
      entries := s.xlt.entries.filter (fun e => decide (e.1 / 512 ≠ n))
      unlinks := s.xlt.unlinks.filter (fun u => decide (u.frame ≠ n)) } }).tstCheck

/-- The tables of a tree, root first: the frames whose chain of parents ends at a root. -/
def State.treeFrames (s : State) (root : Nat) : List Nat :=
  let up (n : Nat) : Nat := match (s.xlt.frames.look n).bind Frame.parent with
    | some p => p.1
    | none => n
  (s.xlt.frames.filter (fun e => up (up (up (up (up e.1)))) == root)).map Prod.fst

/-- Every table of a tree returns to the pool. -/
def State.freeTree (s : State) (root : Nat) : State := forAll (s.treeFrames root) s State.freeFrame

/-! ## Empty child tables (R72) -/

/-- A child table whose last valid entry has gone waits to be unlinked; a root table never is. -/
def State.unlinkIfEmpty (s : State) (frame : Nat) (leaf : Option (Nat × DWord × Nat)) : State :=
  match s.xlt.frames.look frame with
  | none => s
  | some x =>
    if x.vcount ≠ 0 ∨ x.parent.isNone ∨ s.xlt.unlinks.any (fun u => u.frame == frame) then s
    else
      let u : Unlink := match leaf with
        | some (own, a, l) => { frame := frame, stage2 := x.stage2, owner := own, addr := a, lsize := l }
        | none => { frame := frame, stage2 := x.stage2, owner := 0, addr := 0, lsize := 12, invDone := true }
      { s with xlt := { s.xlt with unlinks := s.xlt.unlinks ++ [u] } }

/-- TABLE_CHILD_UNLINK: step 2 of R72. -/
def State.childUnlink (s : State) (frame : Nat) : State :=
  match s.xlt.unlinks.find? (fun u => u.frame == frame), s.xlt.frames.look frame with
  | some u, some x =>
    match x.parent with
    | some p =>
      if u.invDone && !u.cleared && x.vcount == 0 then
        let s1 := (s.putPte (pteKey p.1 p.2) 0).vcount p.1 (· - 1)
        let s2 : State := { s1 with xlt := { s1.xlt with
          unlinks := s1.xlt.unlinks.map (fun v => if v.frame = frame then { v with cleared := true } else v) } }
        s2.unlinkIfEmpty p.1 none
      else s
    | none => s
  | _, _ => s

def execTableChildUnlink (frame : BitVec 19) (s : State) : Host.Outcome State Fault Refusal := done (s.childUnlink frame.toNat)

/-- TABLE_FRAME_FREE: step 3 of R72. A walk reads the tables in one command, so none is under way. -/
def State.frameFree (s : State) (frame : Nat) : State :=
  if s.xlt.unlinks.any (fun u => u.frame == frame && u.cleared) then s.freeFrame frame else s

def execTableFrameFree (frame : BitVec 19) (s : State) : Host.Outcome State Fault Refusal := done (s.frameFree frame.toNat)

/-! ## What a write may hold (R57, R58, R64, R69) -/

/-- The bits [hi:lo] of an entry are 0. -/
def zeroBits (n hi lo : Nat) : Bool := fld n hi lo == 0

/-- A stage-1 leaf that is refused with result 1. -/
def leaf1Bad (e : PTE) : Bool :=
  let n := e.toNat
  !(zeroBits n 95 84 && zeroBits n 63 60 && zeroBits n 15 14 && zeroBits n 11 10 && zeroBits n 7 7) ||
  Pte.size e > 4 || Pte.capn e * 4096 % 2 ^ Pte.lsize e ≠ 0

/-- Whether a class can be named with an index and a span of bytes (R46, R444). -/
def State.praIn (s : State) (cls idx off len : Nat) : Bool :=
  match cls with
  | 1 => idx == 0 && decide (off + len ≤ stagingSize)
  | 3 => decide (idx < 16) && decide (off + len ≤ 0x1000000000)
  | 4 => zeroBits idx 21 16
  | 5 => zeroBits idx 21 20
  | 6 => idx == 0 && off % 16384 == 0 && decide (off + len ≤ s.ftcCap * 16384)
  | 7 => zeroBits idx 23 16 && off == 0
  | 8 => zeroBits idx 21 0 && s.cohWindow (fld idx 23 22) off len
  | 9 => true
  | 0x0A =>
    match s.ddl.tiles.look (fld idx 23 16) with
    | some t => decide (fld idx 15 0 < t.1.toNat) && decide (off + len ≤ t.2.toNat * 1024)
    | none => false
  | _ => false

/-- A stage-2 leaf that is refused with result 1. -/
def State.leaf2Bad (s : State) (e : PTE) : Bool :=
  let n := e.toNat
  let ts := Pte.ts e
  let cls := (Pte.cls e).toNat
  let idx := (Pte.index e).toNat
  let off := Pte.offpn e * 4096
  !(zeroBits n 127 100 && zeroBits n 31 30 && zeroBits n 15 15) || Pte.size e > 4 || ts > 3 ||
  off % 2 ^ Pte.lsize e ≠ 0 ||
  (if ts = Ts.zero then cls ≠ 0 || idx ≠ 0 || off ≠ 0 || Pte.size e > 2
   else if ts = Ts.flashed then cls ≠ 6 || Pte.size e > 2 || !s.praIn cls idx off (2 ^ Pte.lsize e)
   else if ts = Ts.host then cls ≠ 5 || !s.praIn cls idx off (2 ^ Pte.lsize e)
   else cls = 6 || !s.praIn cls idx off (2 ^ Pte.lsize e))

/-- A range without what a range at one of its ends covers. -/
def rangeLess (base size b n : Nat) : Nat × Nat :=
  if n = 0 ∨ b + n ≤ base ∨ base + size ≤ b then (base, size)
  else if b ≤ base then (b + n, base + size - (b + n))
  else (base, b - base)

/-- A grant without the resources of another (R488, R489); ceilings fall to the lower one. -/
def grantLess (g x : Grant) : Grant :=
  let stg := rangeLess g.stgBase.toNat g.stgSize.toNat x.stgBase.toNat x.stgSize.toNat
  let lk := rangeLess g.lkBase.toNat g.lkCount.toNat x.lkBase.toNat x.lkCount.toNat
  let rc := rangeLess g.rcBase.toNat g.rcCount.toNat x.rcBase.toNat x.rcCount.toNat
  let fl := rangeLess g.flBase.toNat g.flCount.toNat x.flBase.toNat x.flCount.toNat
  let hbm := (rangeFrom 0 g.hbm.length).map (fun c =>
    let a := g.hbm.getD c (0, 0)
    let b := x.hbm.getD c (0, 0)
    let r := rangeLess a.1.toNat a.2.toNat b.1.toNat b.2.toNat
    (BitVec.ofNat 7 r.1, BitVec.ofNat 7 r.2))
  { g with
    shareMax := if x.shareMax < g.shareMax then x.shareMax else g.shareMax
    slots := if x.slots < g.slots then x.slots else g.slots
    members := g.members.filter (fun p => !x.members.contains p)
    stgBase := BitVec.ofNat 12 stg.1
    stgSize := BitVec.ofNat 12 stg.2
    lkBase := BitVec.ofNat 12 lk.1
    lkCount := BitVec.ofNat 13 lk.2
    rcBase := BitVec.ofNat 16 rc.1
    rcCount := BitVec.ofNat 16 rc.2
    links := g.links &&& ~~~x.links
    flBase := BitVec.ofNat 34 fl.1
    flCount := BitVec.ofNat 34 fl.2
    tiles := g.tiles &&& ~~~x.tiles
    hbm := hbm }

/-- What BND allocates from: the grant without what is being removed (R488 step 1). -/
def VDev.usable (d : VDev) : Grant :=
  match d.removing with
  | some x => grantLess d.grant x
  | none => d.grant

/-- Whether the resource of a stage-2 leaf lies inside a grant (R67, R474, R476, R488). -/
def State.inGrant (s : State) (v : Vdix) (e : PTE) : Bool :=
  let g := (s.vdev v).usable
  let idx := (Pte.index e).toNat
  let off := Pte.offpn e * 4096
  let len := 2 ^ Pte.lsize e
  match (Pte.cls e).toNat with
  | 1 => decide (g.stgBase.toNat * 0x200000 ≤ off) && decide (off + len ≤ (g.stgBase.toNat + g.stgSize.toNat) * 0x200000)
  | 3 =>
    match g.hbm[idx]? with
    | some h => decide (h.1.toNat * 2 ^ 30 ≤ off) && decide (off + len ≤ (h.1.toNat + h.2.toNat) * 2 ^ 30)
    | none => false
  | 6 =>
    match s.ftc.ranges.look (off / 16384) with
    | some r => r.vdix == v && r.units == flashUnits (Pte.lsize e)
    | none => false
  | 7 => g.members.contains (BitVec.ofNat 16 (fld idx 15 0))
  | 9 => decide (g.rcBase.toNat ≤ fld idx 15 0) && decide (fld idx 15 0 < g.rcBase.toNat + g.rcCount.toNat)
  | 0x0A => g.tiles.toNat.testBit (32 * fld idx 23 16 + fld idx 15 0)
  | 4 => fld idx 23 22 == fnPort g.func
  | 5 => fld idx 23 22 == fnPort g.func
  | 8 => fld idx 23 22 == fnPort g.func
  | _ => true

/-- Whether an OWNER is a defined context of a virtual device (R69). -/
def State.ownerIn (s : State) (v : Vdix) (c : CtxId) : Bool :=
  match s.ctx? c with
  | some x => x.vdix == v
  | none => false

/-! ## Where a leaf is written (R55, R69) -/

/-- An entry as a table write sees it: one of a poisoned line reads as 0. -/
def State.pteSeen (s : State) (key : Nat) : PTE := if s.ptePoison key then 0 else s.pte key

/-- What a write's descent meets: a refusal with result 1, the place of the leaf, or the table below which tables are
missing, with its level. -/
inductive Place where
  | refuse
  | at_ (frame : Nat)
  | missing (frame level : Nat)
  deriving DecidableEq, Repr

/-- The descent of a leaf write from a table to the leaf's level. -/
def State.findPlace (s : State) (stage2 : Bool) (a tl : Nat) (tg : Bool) : Nat → Nat → Nat → Bool → Place
  | 0, _, _, _ => .refuse
  | fuel + 1, frame, level, gran =>
    let e := s.pteSeen (pteKey frame (levelIndex level gran stage2 a))
    if level = tl then (if Pte.v e && !Pte.t e then .refuse else .at_ frame)
    else if !Pte.v e then .missing frame level
    else if Pte.t e then .refuse
    else if Pte.g e != (decide (level - 1 = tl) && tg) then .refuse
    else State.findPlace s stage2 a tl tg fuel (Pte.frame e) (level - 1) (Pte.g e)

/-- Missing tables allocated, down to the leaf's level: the leaf's table and the state. -/
def State.buildTo (s : State) (stage2 : Bool) (a tl : Nat) (tg : Bool) : Nat → Nat → Nat → Bool → Nat × State
  | 0, frame, _, _ => (frame, s)
  | fuel + 1, frame, level, gran =>
    if level = tl then (frame, s)
    else
      let g := decide (level - 1 = tl) && tg
      let r := s.allocFrame (level - 1) stage2 g (some (frame, levelIndex level gran stage2 a))
      State.buildTo r.2 stage2 a tl tg fuel r.1 (level - 1) g

/-! ## What a write ends (R105, R132, R138, R379, R621) -/

/-- Requests that stall at a RELAY leaf look again. -/
def State.relayAgain (s : State) : State :=
  { s with reqs := s.reqs.map (fun r => if r.phase = .relay then r.rewalk else r) }

/-- A valid stage-2 leaf has been replaced. -/
def State.leafGone (s : State) (v : Vdix) (ca key : Nat) (old : PTE) : State :=
  let l := Pte.lsize old
  let base := pageBase ca l
  let flash (t : State) (e : PTE) : State := if Pte.cls e = 6 then t.rangeDec (Pte.offpn e * 4096) else t
  if Pte.ts old = Ts.mapped ∧ Pte.cls old = 2 then s.placeWaits (Pte.offpn old * 4096) v base l
  else if Pte.ts old = Ts.flashed then flash s old
  else if Pte.ts old = Ts.relay then s.relayAgain
  else if Pte.ts old = Ts.busy then
    match s.xlt.faults.find? (fun e => e.2.key == key && e.2.hostPage.isNone) with
    | some (i, p) =>
      let s1 := if Pte.ts p.leaf = Ts.flashed then flash s p.leaf else s
      if p.svc = .host then s1.pfEnd i else s1
    | none => s
  else s

/-- A child table that is written to again is not freed (R72). -/
def State.keepChild (s : State) (frame : Nat) : State :=
  { s with xlt := { s.xlt with unlinks := s.xlt.unlinks.filter (fun u => decide (u.frame ≠ frame) || u.cleared) } }

/-- An entry replaced in a table, with the counts of its table. -/
def State.entrySet (s : State) (frame index : Nat) (e : PTE) : State :=
  let old := s.pteSeen (pteKey frame index)
  let s1 := s.putPte (pteKey frame index) e
  if Pte.v e && !Pte.v old then s1.vcount frame (· + 1)
  else if !Pte.v e && Pte.v old then s1.vcount frame (· - 1)
  else s1

/-! ## TBL.WRITE (R68 to R71, R257) -/

/-- A V = 0 write: the leaf that covers the address is replaced, at whatever level it lies. -/
def State.tblClear (s : State) (stage2 : Bool) (own root level a : Nat) (e : PTE) : State :=
  match s.descend stage2 a 5 root level false with
  | .leaf k old =>
    let l := Pte.lsize old
    let s1 := s.entrySet (k / 512) (k % 512) e
    let s2 := if stage2 then s1.leafGone (BitVec.ofNat 8 own) a k old else s1
    s2.unlinkIfEmpty (k / 512) (some (own, BitVec.ofNat 64 (pageBase a l), l))
  | _ => s

/-- The lap parity that a write gives a leaf (R65). -/
def State.withLp (s : State) (e : PTE) : PTE :=
  let cls := Pte.cls e
  let lap := match s.ctx? (Pte.owner e) with
    | some x => x.lap
    | none => 0
  Pte.set e 9 9 (if cls = 3 ∨ cls = 6 then lap.toNat % 2 else 0)

/-- A leaf write after its value checks: result code and state. -/
def State.tblLeaf (s : State) (stage2 : Bool) (own root level a : Nat) (e : PTE) : DWord × State :=
  let tl := sizeLevel (Pte.size e)
  let tg := sizeGran (Pte.size e)
  let v : Vdix := BitVec.ofNat 8 own
  let p := s.findPlace stage2 a tl tg 5 root level false
  let need := match p with
    | .missing _ k => k - tl
    | _ => 0
  let index := levelIndex tl tg stage2 a
  let old := match p with
    | .at_ f => s.pteSeen (pteKey f index)
    | _ => 0
  let named := stage2 && Pte.ts e == Ts.flashed
  let flash := Pte.offpn e * 4096
  let same := Pte.leaf old && Pte.ts old == Ts.flashed && Pte.offpn old == Pte.offpn e
  let count := match s.ftc.ranges.look (flash / 16384) with
    | some r => r.count
    | none => 0
  if p = .refuse then (1, s)
  else if stage2 && (!s.ownerIn v (Pte.owner e) || !s.inGrant v e) then (2, s)
  else if need > s.tstFree ∨ (named ∧ !same ∧ count ≥ 255) then (3, s)
  else
    let r := match p with
      | .missing f k => s.buildTo stage2 a tl tg 5 f k (match s.xlt.frames.look f with
          | some x => x.gran
          | none => false)
      | .at_ f => (f, s)
      | .refuse => (0, s)
    let s1 := if named then r.2.rangeInc flash else r.2
    let s2 := (s1.keepChild r.1).entrySet r.1 index (if stage2 then s.withLp e else e)
    (0, if stage2 && Pte.leaf old then s2.leafGone v a (pteKey r.1 index) old else s2)

/-- Whether an address lies outside what a stage reaches. -/
def addrOut (stage2 short : Bool) (a : Nat) : Bool :=
  if stage2 then decide (a ≥ 2 ^ 56) || short && decide (fld a 55 48 ≠ 0)
  else decide (a ≥ 2 ^ 57) || short && decide (fld a 56 48 ≠ 0)

/-- A write of one entry to a tree: result code and state. -/
def State.tblEntry (s : State) (stage2 short : Bool) (own root a : Nat) (e : PTE) : DWord × State :=
  let level := if short then 3 else 4
  if addrOut stage2 short a then (1, s)
  else if !Pte.v e then (0, s.tblClear stage2 own root level a e)
  else if !Pte.t e then (1, s)
  else if (if stage2 then s.leaf2Bad e else leaf1Bad e) then (1, s)
  else s.tblLeaf stage2 own root level a e

/-- The function of a control context; none for any other context (R256). -/
def State.ctlFn (s : State) (c : CtxId) : Option FnId :=
  match s.ctx? c with
  | some x => if x.ctl then some x.func else none
  | none => none

/-- Whether a context, or a virtual device, lies in the scope of a function (R67). -/
def State.ctxIn (s : State) (f : FnId) (c : CtxId) : Bool := s.ctxFn c == some f
def State.vdevIn (s : State) (f : FnId) (v : Vdix) : Bool := (s.vdev v).vv && (s.vdev v).grant.func == f

/-- The result of TBL.WRITE. -/
def State.tblWriteRes (s : State) (c : CtxId) (stage2 : Bool) (n : Nat) (a : DWord) (e : PTE) : DWord × State :=
  match s.ctlFn c with
  | none => (2, s)
  | some f =>
    if stage2 then
      let v : Vdix := BitVec.ofNat 8 n
      let d := s.vdev v
      if s.vdevIn f v then s.tblEntry true d.grant.s2d v.toNat d.s2root.toNat a.toNat e else (2, s)
    else
      match s.ctx? (BitVec.ofNat 14 n) with
      | some x =>
        if x.func = f then s.tblEntry false x.s1d (n % 2 ^ 14) x.s1root.toNat a.toNat e else (2, s)
      | none => (2, s)

/-- TBL.WRITE: the entry comes from two registers or 16 payload bytes. -/
def tblWriteBody : JBody := fun c q x s =>
  let inl := decide (J.amb x.w = amInline)
  if inl && inlineOver x.w (J.imm1 x.w) 16 then faultBody s c q Rsn.inlineLen
  else if !s.runs Blk.xlt then none
  else
    let e : PTE := BitVec.ofNat 128 (
      if inl then leVal (x.inline (fld (J.imm1 x.w) 7 0) 16)
      else (x.q.gr (J.rb x.w)).toNat + (x.q.gr (J.rb x.w + 1)).toNat * 2 ^ 64)
    let st2 := (J.md x.w).testBit 0
    let r := s.tblWriteRes c st2 (fld (J.imm2 x.w) (if st2 then 7 else 13) 0) x.aVal e
    some (r.2.result c q x.w r.1 none)

def execTblWrite (c : CtxId) (q : QIdx) (s : State) : Host.Outcome State Fault Refusal :=
  done (s.issue c q (opcIs 0x80) tblWriteBody)

/-! ## TBL.READ (R258) -/

/-- Fields placed at bit offsets, as a number. -/
def packed : List (Nat × Nat) → Nat
  | [] => 0
  | (sh, v) :: r => v * 2 ^ sh + packed r

/-- STATE of a queue record. -/
def qstateCode : QState → Nat
  | .undefined => 0
  | .active => 1
  | .broken => 2
  | .stalled => 3

/-- A queue record of the context table entry (R157), 16 bytes. -/
def Queue.packed (q : Queue) : Nat :=
  Machine.packed [(12, fld q.rdva.toNat 56 12), (7, if q.state = .undefined then 0 else q.lsize), (4, q.dcls.toNat), (3, b2n q.rlx)
    , (0, qstateCode q.state), (64, q.head.toNat), (96, q.tail.toNat)]

/-- The residency record at 0xC0 (R157), 64 bytes. -/
def Ctx.packedTail (x : Ctx) : Nat :=
  packed [(0, x.slot.getD 0), (6, b2n x.slot.isSome), (7, b2n x.evict), (8, b2n x.wait), (9, b2n x.pin), (10, b2n x.orph)
    , (11, b2n x.ctl), (12, b2n x.rlxcap), (13, b2n x.defunct), (64, x.lastdb.toNat), (128, x.cookie.toNat)
    , (192, if x.orph then x.orphend.toNat else 0), (256, fld x.evdva.toNat 56 0), (320, fld x.cqdva.toNat 56 0)
    , (384, fld x.dcqdva.toNat 56 0), (448, x.lev), (456, x.lcq), (464, x.ldcq), (480, x.vec.toNat), (491, b2n x.cqen)]

/-- A context table entry (R53, R157), 256 bytes. -/
def Ctx.packed (x : Ctx) : Nat :=
  Machine.packed ([(0, b2n x.tv), (1, b2n x.s1d), (8, x.vdix.toNat), (16, x.func.toNat), (32, x.gen.toNat), (64, x.lap.toNat)
    , (96, b2n x.sweep), (128, x.s1root.toNat), (1536, x.packedTail)] ++
    ((rangeFrom 0 8).map (fun i => (512 + 128 * i, (x.queues.getD i {}).packed))))

/-- STATE of a virtual-device record. -/
def vstateCode : VState → Nat
  | .free => 0
  | .prepared => 1
  | .bound => 2
  | .fenced => 3
  | .unbinding => 4

/-- A virtual-device table entry (R54, R474), 256 bytes. -/
def VDev.packed (d : VDev) : Nat :=
  let g := d.grant
  Machine.packed ([(0, b2n d.vv), (1, b2n g.s2d), (32, g.svdid.toNat), (64, d.s2root.toNat), (96, g.home.toNat)
    , (512, vstateCode d.st), (515, b2n g.multi), (516, b2n g.isHome), (520, g.func.toNat), (544, g.shareMax.toNat)
    , (560, g.slots.toNat), (576, d.leaseExp.toNat), (640, g.members.length), (672, g.stgBase.toNat), (688, g.stgSize.toNat)
    , (704, g.lkBase.toNat), (720, g.lkCount.toNat), (736, g.rcBase.toNat), (752, g.rcCount.toNat), (768, g.links.toNat)
    , (832, g.flBase.toNat), (896, g.flCount.toNat), (1024, g.tiles.toNat)] ++
    (((rangeFrom 0 16).zip g.hbm).map (fun p => (1280 + 16 * p.1, p.2.1.toNat + p.2.2.toNat * 256))))

/-- A sequence descriptor (R76), 64 bytes. -/
def SeqDesc.packed (d : SeqDesc) : Nat :=
  Machine.packed [(0, d.ctx.toNat), (14, 1), (32, d.obj.toNat), (64, d.base.toNat), (128, d.lstride), (136, d.lblock)
    , (160, d.limit), (192, d.head), (224, d.hot)]

/-- A counter's word (R174). -/
def Counter.packed (k : Counter) : Nat :=
  Machine.packed [(50, k.ctx.toNat), (30, k.obj.toNat), (28, k.st.toNat), (14, k.href.toNat), (0, k.dref.toNat)]

/-- 16 bytes of a record, from a byte offset. -/
def recPart (n off : Nat) : DWord × DWord := (BitVec.ofNat 64 (fld n (8 * off + 63) (8 * off)), BitVec.ofNat 64 (fld n (8 * off + 127) (8 * off + 64)))

/-- A leaf as TBL.READ returns it: both words 0 where none covers the address. -/
def leafPart (f : Found) : DWord × DWord :=
  match f with
  | .leaf _ e => recPart e.toNat 0
  | _ => (0, 0)

/-- The record that TBL.READ names, within a function's scope: a result code, or its 16 bytes. -/
def State.tblReadRes (s : State) (f : FnId) (sel n off : Nat) (a : DWord) : Except DWord (DWord × DWord) :=
  let c : CtxId := BitVec.ofNat 14 n
  let v : Vdix := BitVec.ofNat 8 n
  match sel with
  | 0 =>
    match s.ctx? c with
    | some x => if x.func ≠ f then .error 2 else if addrOut false x.s1d a.toNat then .ok (0, 0)
                else .ok (leafPart (s.stage1 x.s1d x.s1root.toNat a.toNat))
    | none => .error 2
  | 1 =>
    let d := s.vdev v
    if !s.vdevIn f v then .error 2
    else if addrOut true d.grant.s2d a.toNat then .ok (0, 0)
    else .ok (leafPart (s.stage2 d.grant.s2d d.s2root.toNat a.toNat))
  | 2 =>
    match s.ctx? c with
    | some x => if x.func = f then .ok (recPart x.packed off) else .error 2
    | none => .error 2
  | 3 => if s.vdevIn f v then .ok (recPart (s.vdev v).packed off) else .error 2
  | 4 =>
    if off ≥ 0x40 then .error 1
    else match s.xlt.seqs.look (fld a.toNat 16 0) with
      | some d => if s.ctxIn f d.ctx then .ok (recPart d.packed off) else .error 2
      | none => .error 2
  | _ =>
    match s.xlt.counters.look (fld a.toNat 19 0) with
    | some k => if s.ctxIn f k.ctx then .ok (BitVec.ofNat 64 k.packed, 0) else .error 2
    | none => .error 2

/-- TBL.READ. -/
def tblReadBody : JBody := fun c q x s =>
  if !s.runs Blk.xlt then none
  else
    let i := J.imm2 x.w
    let r : Except DWord (DWord × DWord) := match s.ctlFn c with
      | none => .error 2
      | some f => s.tblReadRes f (fld (J.md x.w) 2 0) (fld i 13 0) (fld i 23 16) x.aVal
    some (match r with
      | .error code => s.result c q x.w code none
      | .ok p => (s.updQ c q (fun r => r.setG (J.rd x.w + 2) p.2)).result c q x.w 0 (some p.1))

def execTblRead (c : CtxId) (q : QIdx) (s : State) : Host.Outcome State Fault Refusal :=
  done (s.issue c q (opcIs 0x81) tblReadBody)

/-! ## TBL.FQSET (R140, R259) -/

/-- Vectors of a function's MSI-X table (R406, R410). -/
def fnVectors : Nat := 2048

/-- Staging pages of a span of a context's DVAs: each 4 KiB page's SMS address, where every page is MAPPED, of class
SMS_STAGING and owned by the context (R140, R156). -/
def State.stagingPages (s : State) (c : CtxId) (a : Nat) : Nat → Option (List Nat)
  | 0 => some []
  | n + 1 =>
    match s.peekWalk c a, State.stagingPages s c (a + 4096) n with
    | .leaves _ _ e ca _, some rest =>
      if Pte.ts e = Ts.mapped ∧ Pte.cls e = 1 ∧ Pte.owner e = c then
        some ((stagingBase + Pte.offpn e * 4096 + pageBase ca 12 % 2 ^ Pte.lsize e) :: rest)
      else none
    | _, _ => none

/-- 4 KiB pages that a span meets. -/
def pagesOf (a len : Nat) : Nat := (a % 4096 + len + 4095) / 4096

/-- The result of TBL.FQSET. -/
def State.fqsetRes (s : State) (c : CtxId) (f : FnId) (a : DWord) (n : Nat) (vec : Nat) : DWord × State :=
  let old := s.xlt.faultQs.look f.toNat
  if n = 0 then
    (0, { s with xlt := { s.xlt with faultQs := s.xlt.faultQs.del f.toNat } })
  else if n < 6 ∨ n > 16 ∨ a.toNat % (64 * 2 ^ n) ≠ 0 ∨ vec ≥ fnVectors then (1, s)
  else if old.isSome then (2, s)
  else
    match s.stagingPages c a.toNat (pagesOf a.toNat (64 + 64 * 2 ^ n)) with
    | none => (2, s)
    | some ps =>
      let fq : FaultQ := { ctx := c, pages := ps, base := a, lrec := n, vec := BitVec.ofNat 11 vec }
      (0, { s with xlt := { s.xlt with faultQs := s.xlt.faultQs.put f.toNat fq } })

/-- TBL.FQSET: a removed queue's waiting HOST_REQUEST records are dropped, and their faults wait for their limit. -/
def tblFqsetBody : JBody := fun c q x s =>
  if !s.runs Blk.xlt then none
  else
    let r := match s.ctlFn c with
      | none => (2, s)
      | some f => s.fqsetRes c f x.aVal (fld (J.imm2 x.w) 4 0) (fld (J.imm2 x.w) 26 16)
    some (r.2.result c q x.w r.1 none)

def execTblFqset (c : CtxId) (q : QIdx) (s : State) : Host.Outcome State Fault Refusal :=
  done (s.issue c q (opcIs 0x82) tblFqsetBody)

/-! ## TBL.SEQ (R76 to R79, R260) -/

/-- Descriptors of the sequence descriptor area. -/
def seqMax : Nat := 131072

/-- An image of a descriptor whose values are refused with result 1. -/
def seqBad (n : Nat) : Bool :=
  let ls := fld n 132 128
  let lb := fld n 140 136
  let block := ls + lb
  !(zeroBits n 31 15 && zeroBits n 63 52 && zeroBits n 127 121 && zeroBits n 135 133 && zeroBits n 159 141 &&
    zeroBits n 191 183 && zeroBits n 223 214 && zeroBits n 511 247) ||
  ls < 6 || ls > 20 || lb > 12 || !([12, 16, 21, 25, 30].contains block) || fld n 120 64 % 2 ^ block ≠ 0 ||
  fld n 182 160 = 0 || fld n 182 160 > 4194304 || fld n 246 224 % 2 ^ lb ≠ 0

/-- The result of a creation: code, index and state. -/
def State.seqCreate (s : State) (f : FnId) (n : Nat) : DWord × Nat × State :=
  let c : CtxId := BitVec.ofNat 14 (fld n 13 0)
  if seqBad n then (1, 0, s)
  else if !s.ctxIn f c then (2, 0, s)
  else
    let i := firstGap s.xlt.seqs 0
    if i ≥ seqMax then (3, 0, s)
    else
      let d : SeqDesc :=
        { ctx := c, obj := BitVec.ofNat 20 (fld n 51 32), base := BitVec.ofNat 64 (fld n 120 64), lstride := fld n 132 128
          lblock := fld n 140 136, limit := fld n 182 160, head := 0, hot := fld n 246 224 }
      (0, i, { s with xlt := { s.xlt with seqs := s.xlt.seqs.put i d } })

/-- TBL.SEQ with MOD[0] = 0. -/
def seqCreateBody : JBody := fun c q x s =>
  if inlineOver x.w (J.imm0 x.w) 64 then faultBody s c q Rsn.inlineLen
  else if !s.runs Blk.xlt then none
  else
    let r := match s.ctlFn c with
      | none => (2, 0, s)
      | some f => s.seqCreate f (leVal (x.inline (fld (J.imm0 x.w) 7 0) 64))
    some (r.2.2.result c q x.w r.1 (some (BitVec.ofNat 64 r.2.1)))

def execTblSeqCreate (c : CtxId) (q : QIdx) (s : State) : Host.Outcome State Fault Refusal :=
  done (s.issue c q (fun w => opcIs 0x83 w && !(J.md w).testBit 0) seqCreateBody)

/-- TBL.SEQ with MOD[0] = 1. -/
def seqFreeBody : JBody := fun c q x s =>
  if !s.runs Blk.xlt then none
  else
    let i := fld x.aVal.toNat 16 0
    let ok := match s.ctlFn c, s.xlt.seqs.look i with
      | some f, some d => s.ctxIn f d.ctx
      | _, _ => false
    some (if ok then ({ s with xlt := { s.xlt with seqs := s.xlt.seqs.del i } } : State).result c q x.w 0 none
          else s.result c q x.w 2 none)

def execTblSeqFree (c : CtxId) (q : QIdx) (s : State) : Host.Outcome State Fault Refusal :=
  done (s.issue c q (fun w => opcIs 0x83 w && (J.md w).testBit 0) seqFreeBody)

/-! ## INV (R95, R96, R99, R102, R256, R261) -/

/-- The operation that MOD[3:0] names. -/
def invOpOf (n : Nat) : Option InvOp :=
  match n with
  | 0 => some .page
  | 1 => some .range
  | 2 => some .ctx
  | 3 => some .s2page
  | 4 => some .s2range
  | 5 => some .vdev
  | 6 => some .all
  | 7 => some .l0fn
  | _ => none

/-- The scope that an operation takes from IMM2. -/
def invScope (op : InvOp) (n : Nat) : Nat :=
  match op with
  | .page => fld n 13 0
  | .range => fld n 13 0
  | .ctx => fld n 13 0
  | .l0fn => fld n 9 0
  | .all => 0
  | _ => fld n 7 0

/-- Whether an operation's scope lies with a function. -/
def State.invIn (s : State) (f : FnId) (op : InvOp) (n : Nat) : Bool :=
  match op with
  | .page => s.ctxIn f (BitVec.ofNat 14 n)
  | .range => s.ctxIn f (BitVec.ofNat 14 n)
  | .ctx => s.ctxIn f (BitVec.ofNat 14 n)
  | .l0fn => f.toNat == n
  | .all => true
  | _ => s.vdevIn f (BitVec.ofNat 8 n)

/-- The result code with which an INV is refused, if it is. -/
def State.invRefused (s : State) (c : CtxId) (op : Option InvOp) (n : Nat) : Option DWord :=
  match s.ctlFn c with
  | none =>
    if (op = some .page ∨ op = some .range) ∧ n = c.toNat then none else some 2
  | some f =>
    match op with
    | none => some 1
    | some .all => some 1
    | some o => if s.invIn f o n then none else some 2

/-- INV: its result is written at acceptance; a range of length 0 is complete at once. -/
def invBody : JBody := fun c q x s =>
  let op := invOpOf (J.md x.w)
  let n := match op with
    | some o => invScope o (J.imm2 x.w)
    | none => 0
  match s.invRefused c op n, op with
  | some code, _ => some (s.result c q x.w code none)
  | none, none => some (s.result c q x.w 1 none)
  | none, some o =>
    let len := fld x.bVal.toNat 31 0
    if (o = .range ∨ o = .s2range) ∧ len = 0 then some (s.result c q x.w 0 none)
    else if !s.runs Blk.xlt || !s.invRoom then none
    else
      let i : Inv := { id := 0, src := .queue c q, op := o, scope := n, addr := x.aVal, len := len }
      some ((s.invAdd i).result c q x.w 0 none)

/-- Words of INV with an operation code. -/
def invIs (n w : Nat) : Bool := opcIs 0x88 w && decide (J.md w = n)

def execInvPage (c : CtxId) (q : QIdx) (s : State) : Host.Outcome State Fault Refusal := done (s.issue c q (invIs 0) invBody)
def execInvRange (c : CtxId) (q : QIdx) (s : State) : Host.Outcome State Fault Refusal := done (s.issue c q (invIs 1) invBody)
def execInvCtx (c : CtxId) (q : QIdx) (s : State) : Host.Outcome State Fault Refusal := done (s.issue c q (invIs 2) invBody)
def execInvS2page (c : CtxId) (q : QIdx) (s : State) : Host.Outcome State Fault Refusal := done (s.issue c q (invIs 3) invBody)
def execInvS2range (c : CtxId) (q : QIdx) (s : State) : Host.Outcome State Fault Refusal := done (s.issue c q (invIs 4) invBody)
def execInvVdev (c : CtxId) (q : QIdx) (s : State) : Host.Outcome State Fault Refusal := done (s.issue c q (invIs 5) invBody)
/-- INV.ALL, and the reserved operations, which are refused like it. -/
def execInvAll (c : CtxId) (q : QIdx) (s : State) : Host.Outcome State Fault Refusal :=
  done (s.issue c q (fun w => invIs 6 w || opcIs 0x88 w && decide (J.md w > 7)) invBody)
def execInvL0fn (c : CtxId) (q : QIdx) (s : State) : Host.Outcome State Fault Refusal := done (s.issue c q (invIs 7) invBody)

end Sys2Proof.Machine
end

