-- ==== Sys2Proof/Machine/Crg.lean ====
section
/-! DEFINITION. Meanings of the coherence commands: ring requests, snoops, host requests to CXL.mem windows, host snoops
and answers, and the windows themselves (R434 to R453). -/

namespace Sys2Proof.Machine

/-! ## Requests (R434, R438, R440, R441) -/

/-- Entries of a home's tracker that any request may take, and all of them; requests of an agent. -/
def trackOpen : Nat := 224
def trackEntries : Nat := 256
def agentMax : Nat := 16

/-- Whether two tracks are the same request. -/
def Track.same (a b : Track) : Bool := a.line == b.line && a.agent == b.agent

/-- A request enters its home's tracker. -/
def State.trackAdd (s : State) (t : Track) : State :=
  ({ s with crg := { s.crg with tracks := s.crg.tracks ++ [t] } }).trackRun t.line trackMax

/-- A request arrives at its home: with a credit into the entry reserved for it, else into a free entry, else it is
answered RETRY. -/
def State.cohRequest (s : State) (t : Track) : State :=
  let all := s.crg.tracks ++ s.crg.retry
  let inUse := s.crg.tracks.filter (fun x => x.home == t.home)
  let held := inUse.length + (s.crg.credits.filter (fun x => x.home == t.home)).length
  if s.crg.credits.any (fun x => x.same t && x.req == t.req) then
    ({ s with crg := { s.crg with credits := s.crg.credits.filter (fun x => !x.same t) } }).trackAdd { t with reserved := true }
  else if !s.lineCoherent t.line || all.any (fun x => x.same t) then s
  else if t.agent < 40 ∧ ((all ++ s.crg.credits).filter (fun x => x.agent == t.agent)).length ≥ agentMax then s
  else if (inUse.filter (fun x => !x.reserved)).length ≥ trackOpen ∨ held ≥ trackEntries then
    if t.agent ≥ 40 then s
    else { s with crg := { s.crg with retry := s.crg.retry ++ [t], cntRetry := satInc s.crg.cntRetry } }
  else s.trackAdd t

/-- An agent's request: none is issued from a frozen region, and new HOST_COH accesses wait while CRG is disabled. -/
def State.agentRequest (s : State) (a : BitVec 6) (line : Nat) (req : CohReq) (data : List Byte) : State :=
  let stopped : Bool := match agentRegion a.toNat with
    | some r => s.regionFrozen r
    | none => false
  if a.toNat ≥ 40 ∨ stopped ∨ (crgHome line < 4 ∧ !s.runs Blk.crg) then s
  else s.cohRequest { home := crgHome line, line := line, agent := a.toNat, req := req, data := data }

/-- A control core's copy of a line. -/
def State.copyOf (s : State) (a : BitVec 6) (line : Nat) : Moesi :=
  match s.crg.lines.find? (fun c => c.agent == a.toNat && c.line == line) with
  | some c => c.st
  | none => .i

def execRds (agent : BitVec 6) (line : Nat) (s : State) : Host.Outcome State Fault Refusal :=
  done (s.agentRequest agent line .rds [])
def execRdx (agent : BitVec 6) (line : Nat) (s : State) : Host.Outcome State Fault Refusal :=
  done (s.agentRequest agent line .rdx [])
/-- UPG: from a holder in S or O. -/
def execUpg (agent : BitVec 6) (line : Nat) (s : State) : Host.Outcome State Fault Refusal :=
  done (if s.copyOf agent line = .s ∨ s.copyOf agent line = .o then s.agentRequest agent line .upg [] else s)
def execRdna (agent : BitVec 6) (line : Nat) (s : State) : Host.Outcome State Fault Refusal :=
  done (s.agentRequest agent line .rdna [])
/-- WRLINE: a full line from a transient agent. -/
def execWrline (agent : BitVec 6) (line : Nat) (data : List Byte) (s : State) : Host.Outcome State Fault Refusal :=
  done (if data.length = 64 ∧ !ctlAgent agent.toNat then s.agentRequest agent line .wrline data else s)
/-- WBM: from a holder in M or O, whose data it carries. -/
def execWbm (agent : BitVec 6) (line : Nat) (data : List Byte) (s : State) : Host.Outcome State Fault Refusal :=
  done (if data.length = 64 ∧ (s.copyOf agent line = .m ∨ s.copyOf agent line = .o) then s.agentRequest agent line .wbm data
        else s)

/-! ## Snoops (R435, R442) -/

/-- A holder's state after a snoop, and whether it supplies data (R435). -/
def snooped (st : Moesi) (req : CohReq) : Moesi × Bool :=
  match req with
  | .rds =>
    match st with
    | .m => (.o, true)
    | .o => (.o, true)
    | .e => (.s, true)
    | x => (x, false)
  | .rdna => (st, st == .m || st == .o || st == .e)
  | .wrline => (.i, false)
  | .wbm => (st, false)
  | _ => (.i, st == .m || st == .o)

/-- A holder answers a snoop. -/
def State.snoopAnswer (s : State) (a line : Nat) (t : Track) (c : CLine) : State :=
  let r := snooped c.st t.req
  (s.setLineCopy a line r.1 c.data c.hold).updTrack line t.agent (fun x =>
    { x with
      pending := dropFrom x.pending a
      answered := addTo x.answered a
      supplied := if r.2 then some c.data else x.supplied })

/-- Whether a hold keeps a snoop waiting. -/
def CLine.holds (c : CLine) (req : CohReq) : Bool := c.hold && (c.st == .m || c.st == .e) && (snooped c.st req).1 != c.st

/-- SNOOP_RECEIVE. -/
def State.snoopReceive (s : State) (a line : Nat) : State :=
  match s.activeTrack line, s.crg.lines.find? (fun c => c.agent == a && c.line == line) with
  | some t, some c => if t.pending.contains a && !c.holds t.req then s.snoopAnswer a line t c else s
  | some t, none =>
    if t.pending.contains a then
      s.updTrack line t.agent (fun x => { x with pending := dropFrom x.pending a, answered := addTo x.answered a })
    else s
  | none, _ => s

def execSnoopReceive (agent : BitVec 6) (line : Nat) (s : State) : Host.Outcome State Fault Refusal :=
  done (s.snoopReceive agent.toNat line)

/-- SNOOP_RESPONSE: the last one grants the line (R436). -/
def State.snoopResponse (s : State) (a line : Nat) : State :=
  match s.activeTrack line with
  | some t =>
    if t.answered.contains a then
      (s.updTrack line t.agent (fun x => { x with answered := dropFrom x.answered a })).trackRun line trackMax
    else s
  | none => s

def execSnoopResponse (agent : BitVec 6) (line : Nat) (s : State) : Host.Outcome State Fault Refusal :=
  done (s.snoopResponse agent.toNat line)

/-- HOLD_EXPIRE: a snoop that waits is answered. -/
def State.holdExpire (s : State) (a line : Nat) : State :=
  let free (c : CLine) : CLine := if c.agent = a ∧ c.line = line then { c with hold := false } else c
  ({ s with crg := { s.crg with lines := s.crg.lines.map free } }).snoopReceive a line

def execHoldExpire (agent : BitVec 6) (line : Nat) (s : State) : Host.Outcome State Fault Refusal :=
  done (s.holdExpire agent.toNat line)

/-! ## CXL.mem (R425, R449 to R451, R453) -/

/-- Whether a port's host can use CXL on link A. -/
def State.cxlUp (s : State) (p : PortId) : Bool := (s.link (2 * p.toNat)).cxl && (s.link (2 * p.toNat)).dlup

/-- The SMS line that an offset of a window names, and the window's context; none outside a valid window. -/
def State.winLine (s : State) (p : PortId) (n : BitVec 1) (off : Nat) : Option (Nat × CtxId) :=
  match s.crg.wins.look (2 * p.toNat + n.toNat) with
  | some w =>
    if w.valid && decide (off < w.units * 0x200000) then (pageAddr w.pages off).map (fun a => (a / 64, w.ctx)) else none
  | none => none

/-- A host's request to a window that is not served: poison or nothing, and a record unless the link is frozen. -/
def State.winMiss (s : State) (p : PortId) (read : Bool) : State :=
  let s1 := if read then s.emit (.cxlMem p.toNat (List.replicate 64 0) true) else s
  if (s.link (2 * p.toNat)).frozen then s1
  else s1.raise
    { src := Src.cohMemwinRange, who := .host (State.linkPf (2 * p.toNat)), acc := if read then .read else .write, akind := .host }

/-- A host's request to a window, as a ring request on its behalf. -/
def State.winRequest (s : State) (p : PortId) (n : BitVec 1) (off : Nat) (read : Bool) (req : CohReq) (op : HostOp)
    (data : List Byte) (poison : Bool) : State :=
  if !s.cxlUp p then s
  else if (s.link (2 * p.toNat)).frozen then s.winMiss p read
  else
    match s.winLine p n off with
    | none => s.winMiss p read
    | some x =>
      let op' := if s.runs Blk.crg then op else match op with
        | .read _ => HostOp.read .i
        | o => o
      let req' := if s.runs Blk.crg then req else if read then .rdna else .wrline
      s.cohRequest
        { home := crgHome x.1, line := x.1, agent := 40 + p.toNat, req := req', op := some op', tag := x.2, data := data
          poison := poison }

/-- MEMRD: MetaValue 0 is Invalid, 2 Any, 3 Shared (CXL 3.1; PRESUMED, notes/assumptions/31). -/
def State.memrd (s : State) (p : PortId) (n : BitVec 1) (off : Nat) (mv : BitVec 2) : State :=
  if mv = 2 then s.winRequest p n off true .rdx (.read .m) [] false
  else if mv = 3 then s.winRequest p n off true .rds (.read .s) [] false
  else s.winRequest p n off true .rdna (.read .i) [] false

def execMemrd (p : PortId) (n : BitVec 1) (off : BitVec 33) (mv : BitVec 2) (s : State) : Host.Outcome State Fault Refusal :=
  done (s.memrd p n off.toNat mv)
def execMemrddata (p : PortId) (n : BitVec 1) (off : BitVec 33) (s : State) : Host.Outcome State Fault Refusal :=
  done (s.winRequest p n off.toNat true .rdna (.read .i) [] false)

/-- MEMWR: WbM for a line that the filter records as the host's, else WrLine. -/
def State.memwr (s : State) (p : PortId) (n : BitVec 1) (off : Nat) (data : List Byte) (poison : Bool) : State :=
  if data.length ≠ 64 then s
  else
    let mine := match s.winLine p n off with
      | some x => (s.filterOf p.toNat).any (fun e => e.line == x.1)
      | none => false
    s.winRequest p n off false (if mine then .wbm else .wrline) .write data poison

def execMemwr (p : PortId) (n : BitVec 1) (off : BitVec 33) (data : List Byte) (poison : Bool) (s : State) :
    Host.Outcome State Fault Refusal := done (s.memwr p n off.toNat data poison)
def execMeminv (p : PortId) (n : BitVec 1) (off : BitVec 33) (s : State) : Host.Outcome State Fault Refusal :=
  done (s.winRequest p n off.toNat false .rdx .inv [] false)

/-- BISNP_RESPONSE: a dirty line is written to SMS, and the filter entry follows the state that the host keeps. -/
def State.bisnpResponse (s : State) (p line : Nat) (dirty : Option (List Byte)) (keep : Moesi) : State :=
  if !(s.filterOf p).any (fun e => e.line == line) then s
  else
    let s1 := match dirty with
      | some d => if d.length = 64 then s.smsWrite (64 * line) d none false else s
      | none => s
    let s2 := s1.filterSet p line keep
    let wake (t : Track) : Track := {
      t with
      bisnp := if t.line = line ∧ t.bisnp = some p then none else t.bisnp
      room := t.room && decide (t.agent ≠ 40 + p) }
    let s3 : State := { s2 with crg := { s2.crg with tracks := s2.crg.tracks.map wake } }
    forAll (line :: (s2.crg.tracks.filter (fun t => t.room && t.agent == 40 + p)).map Track.line) s3
      (fun t l => t.trackRun l trackMax)

def execBisnpResponse (p : PortId) (line : Nat) (dirty : Option (List Byte)) (keep : Moesi) (s : State) :
    Host.Outcome State Fault Refusal := done (s.bisnpResponse p.toNat line dirty keep)

/-! ## CXL.cache (R445) -/

/-- HOST_SNOOP: SnpData, SnpInv and SnpCur come as RdS, RdX and RdNA. -/
def State.hostSnoop (s : State) (p : PortId) (line : Nat) (req : CohReq) : State :=
  if !s.cxlUp p || (s.link (2 * p.toNat)).frozen || !(req == .rds || req == .rdx || req == .rdna) then s
  else
    s.cohRequest { home := p.toNat, line := hostLine p.toNat (64 * (line % 2 ^ 42)), agent := 44 + p.toNat, req := req, op := some .snoop }

def execHostSnoop (p : PortId) (line : Nat) (req : CohReq) (s : State) : Host.Outcome State Fault Refusal :=
  done (s.hostSnoop p line req)

/-- Requests that access a HOST_COH line of a port. -/
def State.reqsOnLine (s : State) (p line : Nat) : List Nat :=
  (s.reqs.filter (fun r => r.phase == .sent && (match r.tr with
    | some t => t.cls == 8 && fld t.idx.toNat 23 22 == p && (linesOf (r.targetOff t) r.len).contains line
    | none => false))).map Req.id

/-- HCA_HOST_RESPONSE: the line is allocated as asked, or the wait has timed out and the access fails. -/
def State.hcaResponse (s : State) (p line : Nat) (data : List Byte) (ok poison : Bool) : State :=
  match s.activeTrack (hostLine p (64 * line)) with
  | none => s
  | some t =>
    if !t.hostWait then s
    else if !ok then
      let s1 := forAll (s.reqsOnLine p line) s (fun u i => u.failReq i Code.hostPathFailed 0)
      ((s1.trackEnd t).trackRun t.line trackMax).raise
        { src := Src.hpxCto (2 * p), addr := BitVec.ofNat 64 (64 * line), acc := .read, akind := .host, code := Code.hostPathFailed }
    else
      let st : Moesi := if t.req = .rds then .s else .m
      let old := match s.hcaLine p line with
        | some h => h.data
        | none => data
      let h : HLine := { port := p, line := line, st := st, data := if data.length = 64 then data else old, poison := poison }
      let s1 := if t.req = .rdna then s else s.hcaFill h
      (s1.trackEnd t).trackRun t.line trackMax

def execHcaHostResponse (p : PortId) (line : Nat) (data : List Byte) (ok : Bool) (poison : Bool) (s : State) :
    Host.Outcome State Fault Refusal := done (s.hcaResponse p.toNat line data ok poison)

/-! ## Windows (R448, R452, R453, R456) -/

/-- Whether a writer may write CRG_MEMWIN of a port (R456). -/
def winWriter (who : Who) (p : PortId) : Bool :=
  match who with
  | .core _ => true
  | .host f => f == State.linkPf (2 * p.toNat)
  | _ => false

/-- Whether a window's context lies in its writer's scope (R448). -/
def State.winScope (s : State) (who : Who) (c : CtxId) : Bool :=
  match who with
  | .host f => s.ctxIn f c
  | _ => (s.ctx? c).isSome

/-- The window that a port's registers describe, where every page translates (R448). -/
def State.winOpen (s : State) (who : Who) (p n : Nat) (c : CtxId) : Option MemWin :=
  let units := s.rf .crgMemwinSize 11 0 [p, n]
  let dva := s.rf .crgMemwinDvaLo 31 21 [p, n] * 2 ^ 21 + s.rf .crgMemwinDvaHi 24 0 [p, n] * 2 ^ 32
  if units = 0 ∨ units > 2048 ∨ !s.winScope who c then none
  else (s.stagingPages c dva (units * 512)).map (fun ps =>
    { valid := true, ctx := c, dva := BitVec.ofNat 64 dva, units := units, pages := ps })

/-- MEMWIN_VALID_SET: the write of a control register with valid 1. -/
def State.memwinSet (s : State) (who : Who) (p : PortId) (n : BitVec 1) (v : Word) : State :=
  let ix := [p.toNat, n.toNat]
  let a := regAddr .crgMemwinCtrl ix
  let k := 2 * p.toNat + n.toNat
  let c := fld v.toNat 13 0
  s.writeBy (winWriter who p) who .crgMemwinCtrl ix (fun s =>
  if !v.toNat.testBit 31 then s
  else if (s.crg.wins.look k).isSome then
    if c = s.rf .crgMemwinCtrl 13 0 ix then s else s.cfgReject who a
  else
    let s1 := s.putReg .crgMemwinCtrl ix c
    match s1.winOpen who p.toNat n.toNat (BitVec.ofNat 14 c) with
    | some w => ({ s1 with crg := { s1.crg with wins := s1.crg.wins.put k w } }).putReg .crgMemwinCtrl ix (c + 2 ^ 31)
    | none => s1.cfgReject who a)

def execMemwinValidSet (who : Who) (p : PortId) (n : BitVec 1) (v : Word) (s : State) : Host.Outcome State Fault Refusal :=
  done (s.memwinSet who p n v)

/-- MEMWIN_VALID_CLEAR. -/
def State.memwinClear (s : State) (who : Who) (p : PortId) (n : BitVec 1) : State :=
  s.writeBy (winWriter who p) who .crgMemwinCtrl [p.toNat, n.toNat] (fun t => t.winEnd (2 * p.toNat + n.toNat))

def execMemwinValidClear (who : Who) (p : PortId) (n : BitVec 1) (s : State) : Host.Outcome State Fault Refusal :=
  done (s.memwinClear who p n)

end Sys2Proof.Machine
end

