-- ==== Sys2Proof/Machine/Life.lean ====
section
/-! DEFINITION. Doorbells and residency (R22 to R24, R159 to R171, R475): how a host's write becomes a TAIL, and how a
context gains and loses its slot. -/

namespace Sys2Proof.Machine

/-! ## Doorbells (R22 to R24, R159, R160) -/

/-- BAR2 offset of a doorbell page's register. -/
def bellAddr (c : CtxId) (q : QIdx) (off : Nat) : DWord := BitVec.ofNat 64 ((c.toNat * 8 + q.toNat) * 4096 + off)

/-- An accepted doorbell value: TAIL and LASTDB; a pending code finds its event; a context without a slot joins the
waiting room; one that is being evicted has its doorbell held (R23, R165). -/
def State.bellTake (s : State) (c : CtxId) (q : QIdx) (v : Word) : State :=
  let s1 := ((s.updCtx c (fun x => (x.updQ q (fun r => { r with tail := v })))).updCtx c (fun x => { x with lastdb := s.now })).attachLate c q
  match s1.ctx? c with
  | none => s1
  | some x =>
    if x.evict then s1.updCtx c (fun y => { y with heldDb := true })
    else if x.slot.isNone && !x.wait then s1.roomTail c
    else s1

/-- A doorbell value for a queue: accepted within the ring, else discarded and recorded as DB_RANGE. -/
def State.bellCheck (s : State) (f : FnId) (c : CtxId) (q : QIdx) (v : Word) : State :=
  let r := s.queue c q
  if (v - r.head).toNat ≤ 2 ^ r.lsize then s.bellTake c q v
  else s.raise { src := Src.dbRange, who := .host f, addr := bellAddr c q 0, acc := .write, akind := .bar2 }

/-- A doorbell write that HPX serves. A write during Q.RESET is applied after it (R162). -/
def State.bellWrite (s : State) (f : FnId) (c : CtxId) (q : QIdx) (off : Nat) (v : Word) : State :=
  let r := s.queue c q
  let mine : Bool := match s.ctx? c with
    | some x => x.func == f && !x.defunct && x.teardown == .none
    | none => false
  if !mine || r.state == .undefined || off ≠ 0 then
    s.raise { src := Src.cfgReject, who := .host f, addr := bellAddr c q off, acc := .write, akind := .bar2 }
  else if r.resetting.isSome then s.updQ c q (fun x => { x with heldTail := some v })
  else s.bellCheck f c q v

/-- DOORBELL_WRITE. -/
def State.doorbell (s : State) (f : FnId) (c : CtxId) (q : QIdx) (off : Nat) (v : Word) : State :=
  s.inbound f true (bellAddr c q off) .write .bar2 (fun t => t.bellWrite f c q off v)

def execDoorbellWrite (f : FnId) (c : CtxId) (q : QIdx) (off : BitVec 12) (v : Word) (s : State) :
    Host.Outcome State Fault Refusal := done (s.doorbell f c q off.toNat v)

/-! ## Admission (R165, R166, R475) -/

/-- Whether a context is idle: every queue has HEAD = TAIL and nothing that it issued is outstanding. -/
def State.idle (s : State) (c : CtxId) : Bool :=
  match s.ctx? c with
  | none => false
  | some x =>
    x.queues.all (fun r => r.head == r.tail && r.wait.isNone) &&
    !s.reqs.any (fun r => r.ctx == c && r.queue.isSome) && !s.helds.any (fun h => h.ctx == c) &&
    !s.map.descs.any (fun d => match d.owner with
      | .queue k _ _ => k == c
      | _ => false) &&
    !s.xlt.invs.any (fun i => match i.src with
      | .queue k _ => k == c
      | _ => false)

/-- Slots outside frozen regions that hold no context. -/
def State.freeSlots (s : State) : List Nat :=
  (rangeFrom 0 64).filter (fun n => !s.regionFrozen (slotRegion n) && !s.ctxs.any (fun e => e.2.slot == some n))

/-- The contexts of a virtual device that are resident. -/
def State.residents (s : State) (v : Vdix) : Nat := (s.ctxs.filter (fun e => e.2.vdix == v && e.2.slot.isSome)).length

/-- Whether a context may be evicted for another (R166, R475): `only` restricts the choice to one virtual device. -/
def State.evictable (s : State) (only : Option Vdix) (e : Nat × Ctx) : Bool :=
  let x := e.2
  match x.slot with
  | none => false
  | some n =>
    !x.pin && !x.evict && !x.restoring && !s.regionFrozen (slotRegion n) && (only.isNone || only == some x.vdix) &&
    (s.idle (BitVec.ofNat 14 e.1) || decide (s.since x.since ≥ s.rf .dqeCtrl 15 8 * 1000))

/-- The victim that R166 chooses. -/
def State.victimFor (s : State) (only : Option Vdix) : Option Nat :=
  let key (e : Nat × Ctx) : Nat :=
    ((if s.idle (BitVec.ofNat 14 e.1) then 0 else 1) * 2 ^ 64 + e.2.lastdb.toNat) * 64 + e.2.slot.getD 0
  (leastBy key (s.ctxs.filter (s.evictable only))).map Prod.fst

/-- What DQE does for the waiting room now. -/
inductive Pick where
  | none
  | take (c slot : Nat)
  | evict (victim : Nat)
  deriving DecidableEq, Repr

/-- The waiting room gone through from its head: a context whose virtual device holds all its SLOTS needs a victim among
that virtual device's contexts, and is passed over where there is none or an eviction is already under way. -/
def State.pickFrom (s : State) : List Nat → Pick
  | [] => .none
  | c :: rest =>
    match s.ctxs.look c with
    | none => State.pickFrom s rest
    | some x =>
      if s.residents x.vdix ≥ (s.vdev x.vdix).grant.slots.toNat then
        match s.dqe.victim, s.victimFor (some x.vdix) with
        | none, some v => .evict v
        | _, _ => State.pickFrom s rest
      else
        match s.freeSlots, s.dqe.victim, s.victimFor none with
        | n :: _, _, _ => .take c n
        | [], none, some v => .evict v
        | _, _, _ => .none

/-- A context takes a slot; its spill record is being restored. -/
def State.takeSlot (s : State) (c : CtxId) (n : Nat) : State :=
  let s1 := (s.updCtx c (fun x => { x with
    slot := some n
    restoring := true
    wait := false
    since := s.now
    pin := x.pin || x.pinWait
    pinWait := false }))
  ({ s1 with dqe := { s1.dqe with room := s1.dqe.room.filter (fun k => decide (k ≠ c.toNat)) } }).roomRefill 1

/-- CONTEXT_ADMIT: the context at the head takes a free slot, or a victim is chosen for it. -/
def State.contextAdmit (s : State) : State :=
  if !s.runs Blk.dqe then s
  else
    match s.pickFrom s.dqe.room with
    | .none => s
    | .take c n => s.takeSlot (BitVec.ofNat 14 c) n
    | .evict v => { s with dqe := { s.dqe with victim := some v } }

def execContextAdmit (s : State) : Host.Outcome State Fault Refusal := done s.contextAdmit

/-! ## Eviction and restore (R167, R170, R171) -/

/-- EVICTION_START: a victim that has been pinned meanwhile is let go. -/
def State.evictionStart (s : State) : State :=
  match s.dqe.victim with
  | none => s
  | some v =>
    match s.ctxs.look v with
    | none => { s with dqe := { s.dqe with victim := none } }
    | some x =>
      if x.evict then s
      else if x.pin || x.slot.isNone || x.restoring then { s with dqe := { s.dqe with victim := none } }
      else s.updCtx (BitVec.ofNat 14 v) (fun y => { y with evict := true })

def execEvictionStart (s : State) : Host.Outcome State Fault Refusal := done s.evictionStart

/-- Whether a context has work that brings it back into the waiting room without a doorbell. -/
def Ctx.hasWork (x : Ctx) : Bool := x.heldDb || x.queues.any (fun r => (r.state == .active && r.head != r.tail) || r.rwait)

/-- EVICTION_SPILL_DONE. -/
def State.spillDone (s : State) (c : CtxId) : State :=
  match s.ctx? c with
  | none => s
  | some x =>
    if !x.evict then s
    else
      let s1 := (s.leaveSlot c).updCtx c (fun y =>
        { y with queues := y.queues.map (fun r => { r with rwait := r.wait.isSome }) })
      match s1.ctx? c with
      | none => s1
      | some y =>
        let s2 := s1.updCtx c (fun z => { z with heldDb := false })
        if y.pinWait then s2.roomAhead c false
        else if y.hasWork then s2.roomTail c
        else s2

def execEvictionSpillDone (c : CtxId) (s : State) : Host.Outcome State Fault Refusal := done (s.spillDone c)

/-- SPILL_RESTORE_DONE: the thread runs again, and event waits look at their words. -/
def State.restoreDone (s : State) (c : CtxId) : State :=
  match s.ctx? c with
  | none => s
  | some x =>
    if !x.restoring then s
    else
      let s1 := s.updCtx c (fun y =>
        { y with restoring := false, queues := y.queues.map (fun r => { r with rwait := false }) })
      forAll allQ ((s1.askGrants c).lateBudget c) (fun t q => t.evCheck c q)

def execSpillRestoreDone (c : CtxId) (s : State) : Host.Outcome State Fault Refusal := done (s.restoreDone c)

end Sys2Proof.Machine
end

