-- ==== Sys2Proof/Machine/End.lean ====
section
/-! DEFINITION. How queues are reset, counters reclaimed and contexts torn down (R161, R162, R174 to R185, R315, R466,
R492, R523, R540, R541). -/

namespace Sys2Proof.Machine

/-! ## Released pages (R178, R540) -/

/-- First address that a table covers. -/
def State.frameBase (s : State) : Nat → Nat → Nat
  | 0, _ => 0
  | fuel + 1, n =>
    match (s.xlt.frames.look n).bind Frame.parent with
    | some p =>
      let x := (s.xlt.frames.look p.1).getD { level := 0, stage2 := false }
      State.frameBase s fuel p.1 + p.2 * 2 ^ levelLog x.level x.gran
    | none => 0

/-- Valid leaves of a tree, with their keys and the addresses that they cover. -/
def State.leavesOf (s : State) (root : Nat) : List (Nat × Nat × PTE) :=
  (s.treeFrames root).flatMap (fun n =>
    match s.xlt.frames.look n with
    | none => []
    | some x =>
      (s.xlt.entries.filter (fun e => decide (e.1 / 512 = n) && Pte.leaf e.2)).map (fun e =>
        (e.1, s.frameBase 5 n + e.1 % 512 * 2 ^ levelLog x.level x.gran, e.2)))

/-- A leaf cleared by the HTU. -/
def State.dropLeaf (s : State) (own : Nat) (x : Nat × Nat × PTE) : State :=
  (s.entrySet (x.1 / 512) (x.1 % 512) 0).unlinkIfEmpty (x.1 / 512) (some (own, BitVec.ofNat 64 x.2.1, Pte.lsize x.2.2))

/-- A table that a cleared leaf has left to be unlinked, if it has. -/
def State.emptied (s : State) (key : Nat) : List Nat :=
  if s.xlt.unlinks.any (fun u => u.frame == key / 512 && !u.cleared) then [key / 512] else []

/-- A stage-2 leaf cleared with its page released. -/
def State.releaseLeaf (s : State) (v : Vdix) (counter : Option Nat) (x : Nat × Nat × PTE) : Released × State :=
  let e := x.2.2
  let s1 := (s.dropLeaf v.toNat x).leafGone v x.2.1 x.1 e
  let up := Pte.ts e == Ts.mapped
  let off := Pte.offpn e * 4096
  ({ hbm := if up && Pte.cls e == 3 then
        [{ chan := (Pte.index e).toNat, page := off / 4096, lsize := Pte.lsize e, vdix := v, counter := counter }] else []
     places := if up && Pte.cls e == 2 then [off] else []
     frames := s1.emptied x.1 }, s1)

/-- Two releases together. -/
def Released.join (a b : Released) : Released :=
  { hbm := a.hbm ++ b.hbm, places := a.places ++ b.places, frames := a.frames ++ b.frames }

/-- Leaves released one after the other. -/
def State.releaseAll (s : State) (v : Vdix) (counter : Option Nat) (xs : List (Nat × Nat × PTE)) : Released × State :=
  forAll xs (({} : Released), s) (fun t x =>
    let r := t.2.releaseLeaf v counter x
    (t.1.join r.1, r.2))

/-- No access can reach what was released any more: HBM pages wait to be scrubbed, places are free, and empty tables may
be unlinked. -/
def State.releasedDone (s : State) (r : Released) : State :=
  let s1 := forAll r.places s State.freePlace
  { s1 with
    xlt := { s1.xlt with
      placeWait := s1.xlt.placeWait.filter (fun p => !r.places.contains p.1)
      unlinks := s1.xlt.unlinks.map (fun u => if r.frames.contains u.frame then { u with invDone := true } else u) }
    sec := { s1.sec with scrub := s1.sec.scrub ++ r.hbm } }

/-- Whether two spans of addresses meet. -/
def spansMeet (a n b m : Nat) : Bool := decide (a < b + m ∧ b < a + n)

/-- The CA span of a stage-1 leaf. -/
def leafSpan (x : Nat × Nat × PTE) : Nat × Nat := (Pte.capn x.2.2 * 4096, 2 ^ Pte.lsize x.2.2)

/-- The reclamation of an object (R178 steps 1 and 2): its leaves are cleared; the pages of the context that they reached
and no other leaf of it reaches are released; one INV.RANGE covers the cleared leaves. -/
def State.reclaim (s : State) (i : Nat) (k : Counter) : State :=
  match s.ctx? k.ctx with
  | none => s
  | some x =>
    let all := s.leavesOf x.s1root.toNat
    let mine := all.filter (fun l => Pte.obj l.2.2 == k.obj.toNat)
    let rest := all.filter (fun l => Pte.obj l.2.2 != k.obj.toNat)
    match mine with
    | [] => s
    | l0 :: _ =>
      let s1 := forAll mine s (fun t l => t.dropLeaf k.ctx.toNat l)
      let root2 := (s.vdev x.vdix).s2root.toNat
      let meets (ls : List (Nat × Nat × PTE)) (l2 : Nat × Nat × PTE) : Bool :=
        ls.any (fun l => spansMeet (leafSpan l).1 (leafSpan l).2 l2.2.1 (2 ^ Pte.lsize l2.2.2))
      let gone := (s1.leavesOf root2).filter (fun l =>
        Pte.owner l.2.2 == k.ctx && !Pte.shared l.2.2 && meets mine l && !meets rest l)
      let r := s1.releaseAll x.vdix (some i) gone
      let lo := mine.foldl (fun m l => min m l.2.1) l0.2.1
      let hi := mine.foldl (fun m l => max m (l.2.1 + 2 ^ Pte.lsize l.2.2)) 0
      let rel := r.1.join { frames := mine.flatMap (fun l => r.2.emptied l.1) }
      let s2 : State := { r.2 with xlt := { r.2.xlt with reclaim := r.2.xlt.reclaim.put i rel } }
      s2.invInternal .range k.ctx.toNat (BitVec.ofNat 64 lo) (.reclaim i) ((hi - lo) / 4096)

/-! ## The end of a context (R179, R181, R523) -/

/-- Whether a context has a LIVE counter. -/
def State.hasLive (s : State) (c : CtxId) : Bool := s.xlt.counters.any (fun e => e.2.ctx == c && e.2.st == 1)

/-- The last step of a teardown begins: the context's translations are invalidated. -/
def State.undefineStart (s : State) (c : CtxId) : State :=
  (s.updCtx c (fun x => { x with teardown := .inval })).invInternal .ctx c.toNat 0 (.undefine c)

/-- The translations of a context that ends are gone: the pages that it owns alone are released, and the tag sweep
begins. -/
def State.ctxPurge (s : State) (c : CtxId) : State :=
  match s.ctx? c with
  | none => s
  | some x =>
    let ls := (s.leavesOf (s.vdev x.vdix).s2root.toNat).filter (fun l => Pte.owner l.2.2 == c && !Pte.shared l.2.2)
    let r := s.releaseAll x.vdix none ls
    (r.2.releasedDone r.1).updCtx c (fun y => { y with teardown := .sweep })

/-- The end of a virtual device that is being unbound begins once its last context is gone (R476). -/
def State.vdevCheck (s : State) (v : Vdix) : State :=
  if (s.vdev v).st = .unbinding ∧ s.ctxs.all (fun e => e.2.vdix != v) then s.invInternal .vdev v.toNat 0 (.vdevGone v)
  else s

/-- TAG_SWEEP_DONE: the context's lines are unowned, its tables and descriptors are free, GEN advances, and the ID is
undefined. Records that still wait for space are written first. -/
def State.tagSweepDone (s : State) (c : CtxId) : State :=
  match s.ctx? c with
  | none => s
  | some x =>
    if x.teardown ≠ .sweep ∨ !x.recWait.isEmpty then s
    else
      let s1 := s.freeTree x.s1root.toNat
      let lines := s1.mem.lines.map (fun e => (e.1, if e.2.tag = c then { e.2 with tag := 0, owned := false } else e.2))
      let sweep := match s1.sec.sweep with
        | some w => if w.ctx = c then none else some w
        | none => none
      let s2 : State := { s1 with
        mem := { s1.mem with lines := lines.filter (fun e => e.2 != {}) }
        xlt := { s1.xlt with
          seqs := s1.xlt.seqs.filter (fun e => e.2.ctx != c)
          counters := s1.xlt.counters.filter (fun e => e.2.ctx != c || e.2.st != 1)
          faultQs := s1.xlt.faultQs.filter (fun e => e.2.ctx != c) }
        sec := { s1.sec with
          gens := s1.sec.gens.put c.toNat (x.gen + 1)
          sweep := sweep
          sweepQ := s1.sec.sweepQ.filter (fun k => k != c)
          regs := s1.sec.regs.filter (fun e => e.2.ctx != c) }
        dqe := { s1.dqe with attachBan := s1.dqe.attachBan.del c.toNat }
        ctxs := s1.ctxs.del c.toNat }
      s2.vdevCheck x.vdix

def execTagSweepDone (c : CtxId) (s : State) : Host.Outcome State Fault Refusal := done (s.tagSweepDone c)

/-- A DEFUNCT context whose last counter has become DYING completes its teardown (R179 step 5). -/
def State.defunctCheck (s : State) (c : CtxId) : State :=
  match s.ctx? c with
  | some x => if x.defunct && x.teardown == .counters && !s.hasLive c then s.undefineStart c else s
  | none => s

/-- A counter becomes DYING, and its object is reclaimed. -/
def State.toDying (s : State) (i : Nat) : State :=
  match s.xlt.counters.look i with
  | none => s
  | some k =>
    let s1 : State := { s with xlt := { s.xlt with counters := s.xlt.counters.put i { k with st := 2 } } }
    (s1.reclaim i k).defunctCheck k.ctx

/-- COUNTER_FREE: every page of the object has been released and scrubbed. A counter that is FREE has no record. -/
def State.counterFree (s : State) (i : Nat) : State :=
  match s.xlt.counters.look i with
  | none => s
  | some k =>
    if k.st = 2 ∧ (s.xlt.reclaim.look i).isNone ∧ !s.sec.scrub.any (fun x => x.counter == some i) then
      { s with xlt := { s.xlt with counters := s.xlt.counters.del i } }
    else s

def execCounterFree (i : BitVec 20) (s : State) : Host.Outcome State Fault Refusal := done (s.counterFree i.toNat)

/-! ## Counters (R174 to R178, R408) -/

/-- A counter's word; that of a FREE counter is 0. -/
def State.counterWord (s : State) (i : Nat) : DWord :=
  match s.xlt.counters.look i with
  | some k => BitVec.ofNat 64 k.packed
  | none => 0

/-- Both reference counts of a LIVE counter written; at 0 and 0 it is DYING. -/
def State.putRefs (s : State) (i : Nat) (k : Counter) (href dref : Nat) : State :=
  let k1 : Counter := { k with href := BitVec.ofNat 14 href, dref := BitVec.ofNat 14 dref }
  let s1 : State := { s with xlt := { s.xlt with counters := s.xlt.counters.put i k1 } }
  if href = 0 ∧ dref = 0 then s1.toDying i else s1

/-- REFCNT_RANGE for an atomic that is not performed (R177). -/
def State.refRange (s : State) (f : FaultIn) : State := s.raise { f with src := Src.refcntRange, acc := .atomic }

/-- BAR2 offset of a counter. -/
def counterAddr (i : Nat) : DWord := BitVec.ofNat 64 (0x20000000 + 8 * i)

/-- A host's AtomicOp on a counter: it is performed where its checks pass and its compare matches; the old word goes
back in every case. -/
def State.hostCounter (s : State) (f : FnId) (i : Nat) (new : DWord) (matched : Bool) : State :=
  let old := s.counterWord i
  let s1 := s.emit (.hostReply f old)
  let other (w : DWord) : Nat := w.toNat - fld w.toNat 27 14 * 2 ^ 14
  match s.xlt.counters.look i with
  | some k =>
    if k.st = 1 ∧ s.ctxFn k.ctx = some f ∧ other new = other old then
      if matched then s1.putRefs i k (fld new.toNat 27 14) k.dref.toNat else s1
    else s1.refRange { src := 0, who := .host f, addr := counterAddr i, akind := .bar2 }
  | none => s1.refRange { src := 0, who := .host f, addr := counterAddr i, akind := .bar2 }

/-- A host's AtomicOp to a counter's address. -/
def State.hostAtomic (s : State) (f : FnId) (i : Nat) (new : DWord → DWord) (matches_ : DWord → Bool) : State :=
  s.inbound f false (counterAddr i) .atomic .bar2 (fun t =>
    t.hostCounter f i (new (t.counterWord i)) (matches_ (t.counterWord i)))

/-- HOST_COUNTER_FETCHADD. -/
def execHostCounterFetchadd (f : FnId) (i : BitVec 20) (v : DWord) (s : State) : Host.Outcome State Fault Refusal :=
  done (s.hostAtomic f i.toNat (fun w => w + v) (fun _ => true))

/-- HOST_COUNTER_CAS. -/
def execHostCounterCas (f : FnId) (i : BitVec 20) (cmp new : DWord) (s : State) : Host.Outcome State Fault Refusal :=
  done (s.hostAtomic f i.toNat (fun _ => new) (fun w => w == cmp))

/-- HOST_COUNTER_SWAP. -/
def execHostCounterSwap (f : FnId) (i : BitVec 20) (new : DWord) (s : State) : Host.Outcome State Fault Refusal :=
  done (s.hostAtomic f i.toNat (fun _ => new) (fun _ => true))

/-! ## Resetting a queue (R162, R466) -/

/-- A result reaches the lifecycle instruction that waits for it. -/
def State.replyTo (s : State) (r : Option (CtxId × QIdx × BitVec 5)) (code : DWord) : State :=
  match r with
  | some (c, q, rd) =>
    match (s.queue c q).wait with
    | some (.lifecycle _) => s.retireWait c q rd code
    | _ => s
  | none => s

/-- Step 1 of R162: the queue stops issue. What waits at HEAD ends. -/
def State.resetStart (s : State) (c : CtxId) (q : QIdx) (x : Resetting) : State :=
  let s1 := (s.endWaiting c q).updQ c q (fun r => { r with wait := none, rwait := false, wlen := 1, resetting := some x })
  let s2 := (s1.dropParties (fun k y => k == c && y == q)).rstCause 0 5 c.toNat
  { s2 with lkt := { s2.lkt with waiters := s2.lkt.waiters.filter (fun w => !ownerQueue c q w.who) } }

/-- Whether everything that step 2 of R162 waits for has ended: descriptors, writes and held SIGNALs of the queue. -/
def State.queueDrained (s : State) (c : CtxId) (q : QIdx) : Bool :=
  !s.map.descs.any (fun d => match d.owner with
    | .queue k y _ => k == c && y == q
    | _ => false) &&
  !s.reqs.any (fun r => r.ctx == c && r.queue == some q && r.writes) && (s.heldOf c q).isEmpty

/-- The flow of a queue toward a package. -/
def State.queueFlow (s : State) (c : CtxId) (q : QIdx) (p : PkgId) : FlowKey :=
  { pkg := p, dev := false, ctx := c, gen := s.genOf c, queue := q }

/-- FLOWRESET goes to a package (R466). -/
def State.flowReset (s : State) (k : FlowKey) : State :=
  let f := s.txFlow k
  (s.putTx { f with resetting := true, unacked := [{ seq := f.next, req := 0, sent := s.now }] }).emit
    (.relay 9 k k.pkg f.next 0 [] false)

/-- Packages whose FLOWRESET has still to be sent, and whether one that was sent has still to be answered. -/
def State.unreset (s : State) (c : CtxId) (q : QIdx) : List PkgId :=
  (s.queue c q).wrote.filter (fun p => !(s.txFlow (s.queueFlow c q p)).resetting)
def State.resetsOut (s : State) (c : CtxId) (q : QIdx) : Bool :=
  (s.queue c q).wrote.any (fun p =>
    let f := s.txFlow (s.queueFlow c q p)
    f.resetting && !f.unacked.isEmpty)

/-- Step 3 of R162: the first PENDING event of the SIGNALs that were not executed. -/
def State.discardedEvent (s : State) (c : CtxId) (q : QIdx) : Option Nat :=
  match s.ctx? c with
  | none => none
  | some x =>
    let r := x.q q
    let evs := r.discarded.map (fun d => d.2.1) ++ (s.scanSignals c r x.events r.ahead r.head r.ahead).map Prod.fst
    evs.find? (fun e => Ev.state (s.evRead c e).1 == 0)

/-- The queue record that a reset leaves. -/
def Queue.cleared (r : Queue) : Queue :=
  { state := .active, rdva := r.rdva, ring := r.ring, lsize := r.lsize, dcls := r.dcls, rlx := r.rlx, head := r.tail, tail := r.tail
    rlxGrant := r.rlxGrant, highGrant := r.highGrant }

/-- Steps 3 to 5 of R162, with what a destroyed queue loses besides. -/
def State.resetFinish (s : State) (c : CtxId) (q : QIdx) (x : Resetting) : State :=
  let r := s.queue c q
  let s1 := match s.discardedEvent c q with
    | some e => s.attachEvent c q e x.code (if r.state = QState.broken then r.bseq else r.head)
    | none => s
  let s2 := (s1.dropReqs (fun k => k.ctx == c && k.queue == some q)).lkAbandon (ownerQueue c q)
  let keys := r.wrote.map (s.queueFlow c q)
  let s3 : State := { s2 with ofp := { s2.ofp with tx := s2.ofp.tx.filter (fun f => !keys.contains f.key) } }
  if x.destroy then
    let s4 := s3.updQ c q (fun _ => {})
    { s4 with dqe := { s4.dqe with
      rlxWait := s4.dqe.rlxWait.filter (fun p => p != (c.toNat, q.toNat))
      highWait := s4.dqe.highWait.filter (fun p => p != (c.toNat, q.toNat)) } }
  else
    let s4 := s3.updQ c q Queue.cleared
    match r.heldTail, s4.ctx? c with
    | some v, some y => if y.teardown = .none then s4.bellCheck y.func c q v else s4
    | _, _ => s4

/-! ## Teardown in a package-local virtual device (R179) -/

/-- A LIVE counter's DREF is set to 0, and it reclaims where HREF is 0 too (R179 step 3). -/
def State.dropDref (s : State) (i : Nat) : State :=
  match s.xlt.counters.look i with
  | some k => s.putRefs i k k.href.toNat 0
  | none => s

/-- The LIVE counters of a context. -/
def State.liveOf (s : State) (c : CtxId) : List Nat :=
  (s.xlt.counters.filter (fun e => e.2.ctx == c && e.2.st == 1)).map Prod.fst

/-- The context-end record (R179 step 4). -/
def State.endRecord (s : State) (c : CtxId) : State := s.cqPost c { kind := true }

/-- Steps 3 to 5 of R179, once every queue is reset. -/
def State.tearStep (s : State) (c : CtxId) : State :=
  match s.ctx? c with
  | none => s
  | some x =>
    if x.teardown ≠ .resets ∨ x.queues.any (fun r => r.resetting.isSome) then s
    else
      let s1 := (forAll (s.liveOf c) s State.dropDref).endRecord c
      let s2 := (s1.updCtx c (fun y => { y with reply := none })).replyTo x.reply 0
      if s2.hasLive c then s2.updCtx c (fun y => { y with teardown := .counters, defunct := true })
      else s2.undefineStart c

/-- Q_RESET_DRAINED. -/
def State.resetDrained (s : State) (c : CtxId) (q : QIdx) : State :=
  match (s.queue c q).resetting with
  | none => s
  | some x =>
    if !s.queueDrained c q then s
    else
      match s.unreset c q with
      | p :: ps => forAll (p :: ps) s (fun t k => t.flowReset (t.queueFlow c q k))
      | [] =>
        if s.resetsOut c q then s
        else ((s.resetFinish c q x).replyTo x.replyTo 0).tearStep c

def execQResetDrained (c : CtxId) (q : QIdx) (s : State) : Host.Outcome State Fault Refusal := done (s.resetDrained c q)

/-- A round slot is freed, and its generation advances (R316). -/
def State.freeRound (s : State) (slot : Nat) : State :=
  { s with map := { s.map with
      rounds := s.map.rounds.del slot
      gens := s.map.gens.put slot ((s.map.gens.look slot).getD 0 + 1) } }

/-- CONTRIBs of this HTU's own parties that still send to a round of it. -/
def State.contribsOf (s : State) (slot : Nat) : List Nat :=
  (s.map.descs.filter (fun d => match d.agg with
    | some a => a.home && decide (a.party < 64) && (s.roundOf a.handle).map Prod.fst == some slot
    | none => false)).map Desc.id

/-- The rounds of a result context end with it: no record and no result (R315). -/
def State.roundsEnd (s : State) (c : CtxId) : State :=
  forAll ((s.map.rounds.filter (fun e => e.2.ctx == c)).map Prod.fst) s (fun t k =>
    (forAll (t.contribsOf k) t (fun u d => u.failDesc d Code.aggQuorumLost)).freeRound k)

/-- What every teardown does first (R139, R170, R171, R179 step 1, R315, R452). -/
def State.tearAway (s : State) (c : CtxId) : State :=
  let s1 := ((s.roomLeave c).leaveSlot c).updCtx c (fun x => { x with pin := false, pinWait := false, heldDb := false })
  ((s1.winsEnd c).roundsEnd c).pfHostEnd (fun p => p.ctx == c) Code.contextAborted 0

/-- R179 begins. -/
def State.destroyStart (s : State) (c : CtxId) (reply : Option (CtxId × QIdx × BitVec 5)) : State :=
  let s1 := (s.updCtx c (fun x => { x with teardown := .resets, reply := reply })).tearAway c
  let s2 := forAll allQ s1 (fun t q =>
    let r := t.queue c q
    if r.state = .undefined then t
    else
      match r.resetting with
      | some x => t.updQ c q (fun y => { y with resetting := some { x with code := Code.contextAborted } })
      | none => t.resetStart c q { code := Code.contextAborted })
  s2.tearStep c

/-! ## Forced abort in a multi-package virtual device (R181, R492) -/

/-- Every request, held SIGNAL and descriptor of a context is cancelled. -/
def State.cancelWork (s : State) (c : CtxId) : State :=
  let s1 : State := { s with
    helds := s.helds.filter (fun h => h.ctx != c)
    map := { s.map with descs := s.map.descs.filter (fun d => match d.owner with
      | .queue k _ _ => k != c
      | _ => true) } }
  let ids := s1.map.descs.map Desc.id
  let s2 : State := { s1 with map := { s1.map with chanWait := s1.map.chanWait.filter (fun k => ids.contains k) } }
  (s2.dropReqs (fun r => r.ctx == c && r.s2only.isNone)).lkAbandon (fun o => allQ.any (fun q => ownerQueue c q o))

/-- The 50 µs and 1 ms steps of R181, for one queue: the SIGNALs not executed are discarded, held ones among them. -/
def State.abortQueue (s : State) (c : CtxId) (q : QIdx) : State :=
  let r := s.queue c q
  if r.state = .undefined then s
  else
    let s1 := (s.endWaiting c q).discardFlags c q
    let s2 := match s1.discardedEvent c q with
      | some e => s1.attachEvent c q e Code.contextAborted (if r.state = QState.broken then r.bseq else r.head)
      | none => s1
    let s3 := match r.resetting with
      | some x => s2.replyTo x.replyTo 0
      | none => s2
    s3.updQ c q (fun x => { x.cleared with state := .broken })

/-- The forced abort begins: ABORT goes to every member. -/
def State.abortStart (s : State) (c : CtxId) (reply : Option (CtxId × QIdx × BitVec 5)) : State :=
  match s.ctx? c with
  | none => s
  | some x =>
    let members := (s.vdev x.vdix).grant.members.filter (fun p => p != s.ownPkg)
    let s1 := (s.updCtx c (fun y => { y with teardown := .abort members s.now })).tearAway c
    let s2 := (forAll allQ s1 (fun t q => t.abortQueue c q)).cancelWork c
    let s3 := ((s2.dropParties (fun k _ => k == c)).replyTo reply 0).rstCause 0 5 c.toNat
    let s4 : State := { s3 with ofp := { s3.ofp with tx := s3.ofp.tx.filter (fun f => !(f.key.ctx == c && f.key.gen == x.gen)) } }
    forAll members s4 (fun t p =>
      let k : FlowKey := { pkg := p, dev := true, ctx := c, gen := x.gen, queue := 0 }
      t.emit (.relay 13 k p 0 0 [] false))

/-- FORCED_ABORT_MEMBER_TIMEOUT: at 20 ms members that have not confirmed count as lapsed. -/
def State.abortTimeout (s : State) (c : CtxId) : State :=
  match s.ctx? c with
  | some x =>
    match x.teardown with
    | .abort _ t => if s.since t ≥ 20000000 then s.updCtx c (fun y => { y with teardown := .abort [] t }) else s
    | _ => s
  | none => s

def execForcedAbortMemberTimeout (c : CtxId) (s : State) : Host.Outcome State Fault Refusal := done (s.abortTimeout c)

/-- FORCED_ABORT_FINAL: the counters are FREE, the context-end record is written, and the context's translations are
invalidated. -/
def State.abortFinal (s : State) (c : CtxId) : State :=
  match s.ctx? c with
  | some x =>
    match x.teardown with
    | .abort [] _ =>
      let mine := (s.xlt.counters.filter (fun e => e.2.ctx == c)).map Prod.fst
      let s1 : State := { s with xlt := { s.xlt with
        counters := s.xlt.counters.filter (fun e => e.2.ctx != c)
        reclaim := s.xlt.reclaim.filter (fun e => !mine.contains e.1) } }
      let left := (s.xlt.reclaim.filter (fun e => mine.contains e.1)).foldl (fun r e => r.join e.2) ({} : Released)
      ((s1.endRecord c).releasedDone left).undefineStart c
    | _ => s
  | none => s

def execForcedAbortFinal (c : CtxId) (s : State) : Host.Outcome State Fault Refusal := done (s.abortFinal c)

/-! ## Orphans (R182, R185) -/

/-- The contexts that a test names become orphaned. -/
def State.orphan (s : State) (which : Ctx → Bool) : State :=
  let until_ := s.after (s.rf .dqeCtrl 31 16 * 1000000000)
  { s with ctxs := s.ctxs.map (fun e =>
      (e.1, if which e.2 && !e.2.orph then { e.2 with orph := true, orphend := until_ } else e.2)) }

/-- A context ends without a lifecycle instruction: the lease of an orphan, or the end of its virtual device. -/
def State.tearDown (s : State) (c : CtxId) : State :=
  match s.ctx? c with
  | none => s
  | some x =>
    if (s.vdev x.vdix).grant.multi then
      (match x.teardown with
       | .abort _ _ => s
       | .inval => s
       | .sweep => s
       | _ => s.abortStart c none)
    else
      let s1 : State := { s with xlt := { s.xlt with counters := s.xlt.counters.map (fun e =>
        (e.1, if e.2.ctx = c ∧ e.2.st = 1 then { e.2 with href := 0 } else e.2)) } }
      if x.teardown = .none then s1.destroyStart c none
      else if x.teardown = .counters then (forAll (s1.liveOf c) s1 State.dropDref).defunctCheck c
      else s1

/-- ORPHAN_LEASE_EXPIRE. -/
def State.orphanExpire (s : State) (c : CtxId) : State :=
  match s.ctx? c with
  | some x => if x.orph && s.reached x.orphend then s.tearDown c else s
  | none => s

def execOrphanLeaseExpire (c : CtxId) (s : State) : Host.Outcome State Fault Refusal := done (s.orphanExpire c)

end Sys2Proof.Machine
end

