-- ==== Sys2Proof/Machine/Lifecycle.lean ====
section
/-! DEFINITION. Meanings of the lifecycle instructions and of REF.ADD (R153 to R156, R163, R170, R176, R184, R238, R265 to
R267). A code is 0 done, 1 refused encoding, 2 refused scope or state, 3 no resource. -/

namespace Sys2Proof.Machine

/-- The context and the queue that a word names. -/
def lifeCtx (x : JIn) : CtxId := BitVec.ofNat 14 (fld (J.imm2 x.w) 13 0)
def lifeQ (x : JIn) : QIdx := BitVec.ofNat 3 (fld (J.imm2 x.w) 18 16)

/-- A lifecycle instruction: a context whose CTL is 0 takes a program fault (R155). -/
def lifeBody (act : FnId → CtxId → QIdx → JIn → State → State) : JBody := fun c q x s =>
  match s.ctlFn c with
  | none => faultBody s c q Rsn.priv
  | some f => some (act f c q x s)

/-- A context in a function's scope that takes lifecycle instructions: neither DEFUNCT nor being torn down. -/
def State.lifeIn (s : State) (f : FnId) (n : CtxId) : Option Ctx :=
  match s.ctx? n with
  | some x => if x.func = f ∧ x.defunct = false ∧ x.teardown = .none then some x else none
  | none => none

/-- CTX.CREATE. -/
def ctxCreate (f : FnId) (c : CtxId) (q : QIdx) (x : JIn) (s : State) : State :=
  let n := lifeCtx x
  let v : Vdix := BitVec.ofNat 8 (fld (J.imm2 x.w) 31 24)
  let short := (J.md x.w).testBit 0
  if (s.ctx? n).isSome || !s.vdevIn f v then s.result c q x.w 2 none
  else if s.tstFree = 0 then s.result c q x.w 3 none
  else
    let r := s.allocFrame (if short then 3 else 4) false false none
    let d := r.2.draw
    let new : Ctx :=
      { s1d := short
        vdix := v
        func := f
        gen := (s.sec.gens.look n.toNat).getD 0
        lap := s.lapStored false n.toNat
        s1root := BitVec.ofNat 19 r.1
        rlxcap := (J.md x.w).testBit 1
        cookie := d.1 }
    ({ d.2 with ctxs := d.2.ctxs.put n.toNat new } : State).result c q x.w 0 (some d.1)

def execCtxCreate (c : CtxId) (q : QIdx) (s : State) : Host.Outcome State Fault Refusal :=
  done (s.issue c q (opcIs 0xC0) (lifeBody ctxCreate))

/-- Pages of a host completion queue: MAPPED pages of any class (R156). -/
def State.anyPages (s : State) (c : CtxId) (a : Nat) : Nat → Option (List (Byte × BitVec 24 × Nat))
  | 0 => some []
  | n + 1 =>
    match s.peekWalk c a, State.anyPages s c (a + 4096) n with
    | .leaves _ _ e ca _, some rest =>
      if Pte.ts e = Ts.mapped then
        some ((Pte.cls e, Pte.index e, Pte.offpn e * 4096 + pageBase ca 12 % 2 ^ Pte.lsize e) :: rest)
      else none
    | _, _ => none

/-- An image of CTX.EVSET whose values are refused with result 1. -/
def evsetBad (n : Nat) : Bool :=
  let lev := fld n 196 192
  let lcq := fld n 204 200
  let ldcq := fld n 212 208
  !(zeroBits n 63 57 && zeroBits n 127 121 && zeroBits n 191 185 && zeroBits n 199 197 && zeroBits n 207 205 &&
    zeroBits n 223 213 && zeroBits n 239 235 && zeroBits n 255 241) ||
  lev < 6 || lev > 16 || ldcq < 6 || ldcq > 16 || (n.testBit 240 && (lcq < 6 || lcq > 16)) ||
  fld n 56 0 % (8 * 2 ^ lev) ≠ 0

/-- The result of CTX.EVSET. -/
def State.evsetRes (s : State) (f : FnId) (c : CtxId) (n : Nat) : DWord × State :=
  let lev := fld n 196 192
  let lcq := fld n 204 200
  let ldcq := fld n 212 208
  let en := n.testBit 240
  if evsetBad n then (1, s)
  else
    match s.lifeIn f c with
    | none => (2, s)
    | some x =>
      if x.evset then (2, s)
      else
        let ev := fld n 63 0
        let cq := fld n 127 64
        let dcq := fld n 191 128
        match s.stagingPages c ev (pagesOf ev (8 * 2 ^ lev)), s.stagingPages c dcq (pagesOf dcq (64 + 32 * 2 ^ ldcq)),
            (if en then s.anyPages c (cq / 4096 * 4096) (pagesOf cq (64 + 32 * 2 ^ lcq)) else some []) with
        | some ps, some ds, some hs =>
          (0, s.updCtx c (fun y => { y with
            evset := true
            evdva := BitVec.ofNat 64 ev
            cqdva := BitVec.ofNat 64 cq
            dcqdva := BitVec.ofNat 64 dcq
            lev := lev
            lcq := lcq
            ldcq := ldcq
            vec := BitVec.ofNat 11 (fld n 234 224)
            cqen := en
            evPages := ps
            dcqPages := ds
            cqPages := hs }))
        | _, _, _ => (2, s)

/-- CTX.EVSET. -/
def ctxEvsetBody : JBody := fun c q x s =>
  match s.ctlFn c with
  | none => faultBody s c q Rsn.priv
  | some f =>
    if inlineOver x.w (J.imm0 x.w) 32 then faultBody s c q Rsn.inlineLen
    else
      let r := s.evsetRes f (lifeCtx x) (leVal (x.inline (fld (J.imm0 x.w) 7 0) 32))
      some (r.2.result c q x.w r.1 none)

def execCtxEvset (c : CtxId) (q : QIdx) (s : State) : Host.Outcome State Fault Refusal :=
  done (s.issue c q (opcIs 0xC1) ctxEvsetBody)

/-- The result of Q.CREATE. -/
def State.qCreateRes (s : State) (f : FnId) (n : CtxId) (k : QIdx) (dva : DWord) (lsize : Nat) (rlx : Bool) (dcls : Nat) :
    DWord × State :=
  if dcls ≥ 4 ∨ lsize < 7 ∨ lsize > 16 ∨ dva.toNat ≥ 2 ^ 57 ∨ dva.toNat % 4096 ≠ 0 then (1, s)
  else
    match s.lifeIn f n with
    | none => (2, s)
    | some x =>
      let r := x.q k
      if !x.evset || r.state != .undefined || r.resetting.isSome || (rlx && !x.rlxcap) then (2, s)
      else
        match s.stagingPages n dva.toNat (pagesOf dva.toNat (32 * 2 ^ lsize)) with
        | none => (2, s)
        | some ps =>
          if rlx ∧ (x.queues.filter Queue.rlx).length ≥ 2 then (3, s)
          else
            let new : Queue := { state := .active, rdva := dva, ring := ps, lsize := lsize, dcls := BitVec.ofNat 3 dcls, rlx := rlx }
            (0, ((s.updQ n k (fun _ => new)).askRlx n k).askHigh n k)

/-- Q.CREATE. -/
def qCreate (f : FnId) (c : CtxId) (q : QIdx) (x : JIn) (s : State) : State :=
  let md := J.md x.w
  let r := s.qCreateRes f (lifeCtx x) (lifeQ x) x.aVal (fld (J.imm2 x.w) 28 24) (md.testBit 0) (fld md 3 1)
  r.2.result c q x.w r.1 none

def execQCreate (c : CtxId) (q : QIdx) (s : State) : Host.Outcome State Fault Refusal :=
  done (s.issue c q (opcIs 0xC8) (lifeBody qCreate))

/-- Q.RESET and Q.DESTROY: they retire after step 5 of R162. -/
def qReset (destroy : Bool) (f : FnId) (c : CtxId) (q : QIdx) (x : JIn) (s : State) : State :=
  let n := lifeCtx x
  let k := lifeQ x
  let ok : Bool := match s.lifeIn f n with
    | some y => !(n == c && k == q) && (y.q k).state != .undefined && (y.q k).resetting.isNone
    | none => false
  if !ok then s.result c q x.w 2 none
  else
    let rd : BitVec 5 := BitVec.ofNat 5 (J.rd x.w)
    (s.waitAt c q x.w (.lifecycle rd)).resetStart n k { code := Code.queueBroken, replyTo := some (c, q, rd), destroy := destroy }

def execQReset (c : CtxId) (q : QIdx) (s : State) : Host.Outcome State Fault Refusal :=
  done (s.issue c q (opcIs 0xC9) (lifeBody (qReset false)))

def execQDestroy (c : CtxId) (q : QIdx) (s : State) : Host.Outcome State Fault Refusal :=
  done (s.issue c q (opcIs 0xCB) (lifeBody (qReset true)))

/-- Q.RESUME: the access at which the queue stopped is issued again. -/
def qResume (f : FnId) (c : CtxId) (q : QIdx) (x : JIn) (s : State) : State :=
  let n := lifeCtx x
  let k := lifeQ x
  match s.lifeIn f n with
  | none => s.result c q x.w 2 none
  | some y =>
    if (n == c && k == q) || (y.q k).state != .stalled || (y.q k).resetting.isSome then s.result c q x.w 2 none
    else
      let s1 := (s.updQ n k (fun r => { r with state := .active })).result c q x.w 0 none
      if y.slot.isNone && !y.wait then s1.roomTail n else s1

def execQResume (c : CtxId) (q : QIdx) (s : State) : Host.Outcome State Fault Refusal :=
  done (s.issue c q (opcIs 0xCA) (lifeBody qResume))

/-! ## Pins (R18, R170) -/

/-- Contexts that are pinned or whose pin awaits admission. -/
def State.pinned (s : State) : Nat := (s.ctxs.filter (fun e => e.2.pin || e.2.pinWait)).length

/-- The most pins that are allowed now. -/
def State.pinLimit (s : State) : Nat :=
  let open_ := ([0, 1, 2, 3].filter (fun r => !s.regionFrozen r)).length
  if open_ = 4 then 48 else min 48 (16 * open_ - 16)

/-- CTX.PIN. -/
def ctxPin (f : FnId) (c : CtxId) (q : QIdx) (x : JIn) (s : State) : State :=
  let n := lifeCtx x
  match s.lifeIn f n with
  | none => s.result c q x.w 2 none
  | some y =>
    let own := (s.ctxs.filter (fun e => e.2.vdix == y.vdix && (e.2.pin || e.2.pinWait))).length
    if y.pin || y.pinWait then s.result c q x.w 0 none
    else if s.pinned + 1 > s.pinLimit ∨ own + 1 ≥ (s.vdev y.vdix).grant.slots.toNat then s.result c q x.w 3 none
    else
      let s1 := s.result c q x.w 0 none
      if y.slot.isSome ∧ !y.evict then s1.updCtx n (fun z => { z with pin := true })
      else
        let s2 := s1.updCtx n (fun z => { z with pinWait := true })
        if y.evict then s2 else s2.roomAhead n false

def execCtxPin (c : CtxId) (q : QIdx) (s : State) : Host.Outcome State Fault Refusal :=
  done (s.issue c q (opcIs 0xC2) (lifeBody ctxPin))

/-- CTX.UNPIN. -/
def ctxUnpin (f : FnId) (c : CtxId) (q : QIdx) (x : JIn) (s : State) : State :=
  match s.lifeIn f (lifeCtx x) with
  | none => s.result c q x.w 2 none
  | some _ => (s.updCtx (lifeCtx x) (fun z => { z with pin := false, pinWait := false })).result c q x.w 0 none

def execCtxUnpin (c : CtxId) (q : QIdx) (s : State) : Host.Outcome State Fault Refusal :=
  done (s.issue c q (opcIs 0xC3) (lifeBody ctxUnpin))

/-! ## Re-attach (R184) -/

/-- Attaches to a context are refused until a time. -/
def State.attachBanned (s : State) (n : CtxId) : Bool :=
  match s.dqe.attachBan.look n.toNat with
  | some t => !s.reached t
  | none => false

/-- CTX.ATTACH: HOST faults that waited for the host are taken up again. -/
def ctxAttach (f : FnId) (c : CtxId) (q : QIdx) (x : JIn) (s : State) : State :=
  let n := lifeCtx x
  match s.ctx? n with
  | none => s.result c q x.w 2 none
  | some y =>
    if fnPort y.func ≠ fnPort f ∨ y.defunct ∨ y.teardown ≠ .none ∨ s.attachBanned n then s.result c q x.w 2 none
    else if x.aVal ≠ y.cookie then
      let s1 : State := { s with dqe := { s.dqe with attachBan := s.dqe.attachBan.put n.toNat (s.after 100000000) } }
      (s1.result c q x.w 2 none).raise
        { src := Src.attachReject, who := s.threadOf c, ctx := some c, queue := some q, iseq := x.q.head }
    else
      let s1 := (s.updCtx n (fun z => { z with orph := false, orphend := 0, func := f })).result c q x.w 0 none
      let es := (s1.xlt.faults.filter (fun e => e.2.ctx == n && e.2.svc == .host)).map Prod.fst
      forAll es s1 (fun t e =>
        match t.xlt.faults.look e with
        | some p => if p.prgWaits then (t.updPf e (fun z => { z with func := f })).hostFaultStart e false else t
        | none => t)

def execCtxAttach (c : CtxId) (q : QIdx) (s : State) : Host.Outcome State Fault Refusal :=
  done (s.issue c q (opcIs 0xC4) (lifeBody ctxAttach))

/-- ATTACH_LOCKOUT_EXPIRE. -/
def execAttachLockoutExpire (c : CtxId) (s : State) : Host.Outcome State Fault Refusal :=
  done (match s.dqe.attachBan.look c.toNat with
    | some t => if s.reached t then { s with dqe := { s.dqe with attachBan := s.dqe.attachBan.del c.toNat } } else s
    | none => s)

/-! ## Destruction and counters -/

/-- CTX.DESTROY. -/
def ctxDestroy (f : FnId) (c : CtxId) (q : QIdx) (x : JIn) (s : State) : State :=
  let n := lifeCtx x
  match s.ctx? n with
  | none => s.result c q x.w 2 none
  | some y =>
    if y.func ≠ f ∨ y.ctl then s.result c q x.w 2 none
    else if y.defunct then s.result c q x.w 0 none
    else if y.teardown ≠ .none then s.result c q x.w 2 none
    else
      let rd : BitVec 5 := BitVec.ofNat 5 (J.rd x.w)
      let s1 := s.waitAt c q x.w (.lifecycle rd)
      if (s.vdev y.vdix).grant.multi then s1.abortStart n (some (c, q, rd)) else s1.destroyStart n (some (c, q, rd))

def execCtxDestroy (c : CtxId) (q : QIdx) (s : State) : Host.Outcome State Fault Refusal :=
  done (s.issue c q (opcIs 0xC5) (lifeBody ctxDestroy))

/-- Counters of the die. -/
def counterMax : Nat := 1048576

/-- OBJ.COUNT. -/
def objCount (f : FnId) (c : CtxId) (q : QIdx) (x : JIn) (s : State) : State :=
  let n := lifeCtx x
  let i := firstGap s.xlt.counters 0
  if (s.lifeIn f n).isNone then s.result c q x.w 2 none
  else if i ≥ counterMax then s.result c q x.w 3 none
  else
    let k : Counter := { ctx := n, obj := BitVec.ofNat 20 x.aVal.toNat, st := 1, href := 1, dref := 0 }
    let s1 : State := { s with xlt := { s.xlt with counters := s.xlt.counters.put i k } }
    s1.result c q x.w 0 (some (BitVec.ofNat 64 i))

def execObjCount (c : CtxId) (q : QIdx) (s : State) : Host.Outcome State Fault Refusal :=
  done (s.issue c q (opcIs 0xCC) (lifeBody objCount))

/-- REF.ADD: the issuing context is compared with the word's CTX field before anything else. -/
def refAddBody : JBody := fun c q x s =>
  let i := fld x.aVal.toNat 19 0
  let old := s.counterWord i
  let down := (J.md x.w).testBit 0
  if fld old.toNat 63 50 ≠ c.toNat then faultBody s c q Rsn.priv
  else
    let s1 := s.result c q x.w old none
    let refused := s1.refRange { src := 0, who := s.threadOf c, ctx := some c, queue := some q, iseq := x.q.head }
    some (match s.xlt.counters.look i with
      | some k =>
        let d := k.dref.toNat
        if k.st ≠ 1 ∨ (down ∧ d = 0) ∨ (!down ∧ d = 16383) then refused
        else s1.putRefs i k k.href.toNat (if down then d - 1 else d + 1)
      | none => refused)

def execRefAdd (c : CtxId) (q : QIdx) (s : State) : Host.Outcome State Fault Refusal :=
  done (s.issue c q (opcIs 0x43) refAddBody)

end Sys2Proof.Machine
end

