-- ==== Sys2Proof/Machine/Agg.lean ====
section
/-! DEFINITION. Meanings of AGG and of the events of an aggregation round (R246, R247, R292 to R316). -/

namespace Sys2Proof.Machine

/-! ## Memory of the result context -/

/-- Bytes of a span of a context's own pages (R296): MAPPED leaves with OWNER the context and SHARED = 0; none where a page
is not one. Bytes that lie outside the memory that the model holds are free. -/
def State.ownedBytes (s : State) (c : CtxId) : Nat → Nat → Nat → Option (List Byte × State)
  | 0, _, _ => some ([], s)
  | fuel + 1, a, n =>
    if n = 0 then some ([], s)
    else
      let k := min n (4096 - a % 4096)
      match s.peekWalk c a with
      | .fail _ _ => none
      | .leaves _ _ e ca _ =>
        if Pte.ts e ≠ Ts.mapped ∨ Pte.owner e ≠ c ∨ Pte.shared e then none
        else
          let off := Pte.offpn e * 4096 + ca % 2 ^ Pte.lsize e
          let r : List Byte × State := match (Pte.cls e).toNat with
            | 1 => let x := s.smsRead (stagingBase + off) k (some c) .hw; (x.1, x.2.2)
            | 2 => let x := s.smsRead (tierBase + off) k (some c) .hw; (x.1, x.2.2)
            | 3 => s.hbmRead (Pte.index e) off c (Pte.lp e) k
            | 0x0A => s.tileRead (Pte.index e) off k
            | _ => s.drawBytes k
          match State.ownedBytes r.2 c fuel (a + k) (n - k) with
          | some t => some (r.1 ++ t.1, t.2)
          | none => none

/-- The held pages of ACC or REC: own pages of class SMS_STAGING or HBM. -/
def State.roundPages (s : State) (c : CtxId) (a : Nat) : Nat → Option (List (Byte × BitVec 24 × Nat))
  | 0 => some []
  | n + 1 =>
    match s.peekWalk c a, State.roundPages s c (a + 4096) n with
    | .leaves _ _ e ca _, some rest =>
      if Pte.ts e = Ts.mapped ∧ Pte.owner e = c ∧ !Pte.shared e ∧ (Pte.cls e = 1 ∨ Pte.cls e = 3) then
        some ((Pte.cls e, Pte.index e, Pte.offpn e * 4096 + pageBase ca 12 % 2 ^ Pte.lsize e) :: rest)
      else none
    | _, _ => none

/-! ## OPEN (R292 to R296, R303) -/

/-- Slots of a home. -/
def roundMax : Nat := 16

/-- A round descriptor that is refused with code 1. -/
def roundBad (n : Nat) : Bool :=
  let mode := fld n 1 0
  let p := fld n 14 8
  let quorum := fld n 22 16
  let deg := fld n 28 24
  let rfmt := fld n 44 40
  let els := fld n 96 64
  let ls := fld n 131 128
  !(zeroBits n 7 3 && zeroBits n 15 15 && zeroBits n 23 23 && zeroBits n 31 29 && zeroBits n 63 50 && zeroBits n 127 97 &&
    zeroBits n 159 132 && zeroBits n 255 249 && zeroBits n 319 313 && zeroBits n 383 377 && zeroBits n 511 441) ||
  mode > 1 || p < 3 || p > 64 || quorum < 3 || quorum > p || deg < 1 || deg > (p - 1) / 2 ||
  !(rfmt ≤ 0x10 || rfmt = 0x11 + mode) || (n.testBit 45 && rfmt ≠ 0x09 && rfmt ≠ 0x0A) || fld n 48 46 > 4 ||
  ls < 10 || ls > 14 || els < 1 || els > 2 ^ 18 * 2 ^ ls || fld n 312 256 % 64 ≠ 0 || fld n 440 384 % 64 ≠ 0

/-- Entries of a party list. -/
def listEntries : Nat → List Byte → List Nat
  | 0, _ => []
  | n + 1, bs => leVal (bs.take 8) :: listEntries n (bs.drop 8)

/-- A party list that is refused with code 1. -/
def listBad (es : List Nat) : Bool :=
  es.any (fun e => !(zeroBits e 15 14 && zeroBits e 63 32)) || !decide (es.Nodup)

/-- Bytes of the accumulator. -/
def accBytes (mode : Bool) (n : Nat) : Nat := n * (aggW mode / 8)

/-- A handle (R292). -/
def roundHandle (pkg : PkgId) (gen : BitVec 12) (slot : Nat) : Word := BitVec.ofNat 32 (pkg.toNat * 65536 + gen.toNat * 16 + slot)

/-- The result of OPEN: code, handle and state. -/
def State.aggOpen (s : State) (c : CtxId) (a : Nat) : DWord × DWord × State :=
  if a % 64 ≠ 0 then (1, 0, s)
  else
    match s.ownedBytes c 2 a 64 with
    | none => (2, 0, s)
    | some d =>
      let n := leVal d.1
      if roundBad n then (1, 0, d.2)
      else
        let p := fld n 14 8
        let mode := n.testBit 0
        let els := fld n 96 64
        let acc := fld n 312 256
        let rec_ := fld n 440 384
        match d.2.ownedBytes c 3 (fld n 248 192) (8 * p) with
        | none => (2, 0, d.2)
        | some l =>
          let es := listEntries p l.1
          if listBad es then (1, 0, l.2)
          else
            match l.2.roundPages c (acc / 4096 * 4096) (pagesOf acc (accBytes mode els)),
                l.2.roundPages c (rec_ / 4096 * 4096) (pagesOf rec_ 320) with
            | some ap, some rp =>
              let slot := firstGap l.2.map.rounds 0
              if slot ≥ roundMax ∨ l.2.rf .mapAggCtrl 8 8 = 0 then (3, 0, l.2)
              else
                let gen := (l.2.map.gens.look slot).getD 0
                let h := roundHandle s.ownPkg gen slot
                let e1 := l.2.draw
                let e2 := e1.2.draw
                let info := ((((h.toNat * 2 ^ 16 + s.ownPkg.toNat) * 2 ^ 16 + c.toNat) * 2 ^ 32 + (s.genOf c).toNat) * 2 ^ 64
                  + e1.1.toNat) * 2 ^ 64 + e2.1.toNat
                let r : Round :=
                  { ctx := c
                    mode := mode
                    strict := n.testBit 2
                    quorum := fld n 22 16
                    deg := fld n 28 24
                    scale := (BitVec.ofNat 8 (fld n 39 32)).toInt
                    rfmt := BitVec.ofNat 5 (fld n 44 40)
                    rsub := n.testBit 45
                    rrnd := BitVec.ofNat 3 (fld n 48 46)
                    rnanm := n.testBit 49
                    n := els
                    lstripe := fld n 131 128
                    tmo := BitVec.ofNat 64 (fld n 191 160)
                    acc := BitVec.ofNat 64 acc
                    res := BitVec.ofNat 64 (fld n 376 320)
                    recDva := BitVec.ofNat 64 rec_
                    accPages := ap
                    recPages := rp
                    openAt := s.now
                    key := kdf256 (beBytes 32 Config.aggRoot.toNat) "ZHT1-AGG" (beBytes 28 info)
                    parties := es.map (fun x => { ctx := BitVec.ofNat 14 (fld x 13 0), pkg := BitVec.ofNat 16 (fld x 31 16) }) }
                let s1 : State := { e2.2 with map := { e2.2.map with rounds := e2.2.map.rounds.put slot r } }
                (0, BitVec.ofNat 64 h.toNat, s1.roundHead slot)
            | _, _ => (2, 0, l.2)

/-- AGG's words with an operation. -/
def aggIs (n w : Nat) : Bool := opcIs 0x50 w && decide (fld (J.md w) 2 0 = n)

/-- AGG OPEN: it waits while the entropy source is unavailable (R526). -/
def aggOpenBody : JBody := fun c q x s =>
  if !s.sec.entropy || !s.runs Blk.map then none
  else
    let r := s.aggOpen c x.aDva.toNat
    some (r.2.2.result c q x.w r.1 (some r.2.1))

/-- AGG OPEN, and the reserved operations, which take the fault of a reserved encoding before their body. -/
def execAggOpen (c : CtxId) (q : QIdx) (s : State) : Host.Outcome State Fault Refusal :=
  done (s.issue c q (fun w => aggIs 0 w || opcIs 0x50 w && decide (fld (J.md w) 2 0 > 4)) aggOpenBody)

/-! ## JOIN (R297) -/

/-- The index of a listed party. -/
def Round.listed (r : Round) (c : CtxId) (pkg : PkgId) : Option Nat :=
  (r.parties.findIdx? (fun p => p.ctx == c && p.pkg == pkg))

/-- A party changed. -/
def Round.updParty (r : Round) (i : Nat) (f : Party → Party) : Round := { r with parties := modAt f r.parties i }

/-- The home's checks of JOIN, and the join: code, party index and state. -/
def State.roundJoin (s : State) (h : Word) (c : CtxId) (q : QIdx) (pkg : PkgId) : DWord × Nat × State :=
  match s.roundOf h with
  | none => (2, 0, s)
  | some (slot, r) =>
    if r.joinedCount ≥ 64 then (3, 0, s)
    else
      match r.listed c pkg with
      | none => (2, 0, s)
      | some i =>
        let p := r.parties.getD i { ctx := 0, pkg := 0 }
        if r.cut ∨ r.marked ≠ 0 ∨ p.dropped ∨ (p.joined ∧ p.queue ≠ q) then (2, 0, s)
        else if p.joined then (6, 0, s)
        else (0, i, s.updRound slot (fun r => r.updParty i (fun p => { p with joined := true, queue := q })))

/-- What a queue of this HTU keeps of a round of another home that it has joined. -/
def State.joinAway (s : State) (h : Word) (c : CtxId) (q : QIdx) (a : JoinAns) : State :=
  let j : Joined :=
    { handle := h, ctx := c, queue := q, party := a.party.toNat, mode := a.mode, p := a.p.toNat, deg := a.deg.toNat
      scale := a.scale.toInt, n := a.n.toNat, lstripe := a.lstripe.toNat, secret := a.secret }
  if a.code ≠ 0 then s
  else
    let old (k : Joined) : Bool := k.ctx == c && k.queue == q && (k.handle == h || k.dropped)
    { s with map := { s.map with joined := s.map.joined.filter (fun k => !old k) ++ [j] } }

/-- The handle that operand A names. -/
def aggHandle (x : JIn) : Word := BitVec.ofNat 32 x.aVal.toNat

/-- Whether a handle's home is this HTU. -/
def State.homeHere (s : State) (h : Word) : Bool := fld h.toNat 31 16 == s.ownPkg.toNat

/-- AGG JOIN of a queue of this HTU: toward another home it retires with the home's answer. -/
def aggJoinBody (ans : Option JoinAns) : JBody := fun c q x s =>
  let h := aggHandle x
  if !s.runs Blk.map then none
  else if s.homeHere h then
    let r := s.roundJoin h c q s.ownPkg
    some (r.2.2.result c q x.w r.1 (some (BitVec.ofNat 64 r.2.1)))
  else
    match ans with
    | none => none
    | some a => some ((s.joinAway h c q a).result c q x.w (BitVec.ofNat 64 a.code.toNat) (some (BitVec.ofNat 64 a.party.toNat)))

/-- A JOIN that comes from another package: refused where no attested link leads there (R303). The answer goes back. -/
def State.joinFrom (s : State) (pkg : PkgId) (h : Word) (c : CtxId) (q : QIdx) : State :=
  let r : DWord × Nat × State := if (s.routeUp pkg).isEmpty then (2, 0, s) else s.roundJoin h c q pkg
  let k : FlowKey := { pkg := pkg, dev := true, ctx := c, gen := 0, queue := q }
  r.2.2.emit (.relay 13 k pkg h (BitVec.ofNat 64 (r.1.toNat + r.2.1 * 256)) [] false)

def execAggJoin (c : CtxId) (q : QIdx) (via : AggVia) (s : State) : Host.Outcome State Fault Refusal :=
  done (match via with
    | .here ans => s.issue c q (aggIs 1) (aggJoinBody ans)
    | .remote pkg h => s.joinFrom pkg h c q)

/-! ## CONTRIB (R247, R298) -/

/-- The elements of a CONTRIB. -/
def contribLen (x : JIn) : Nat := if (J.md x.w).testBit 4 then x.cVal.toNat else fld (J.imm2 x.w) 39 0

/-- The place of a joined queue in a round: whether the home is here, the party's index, its cursor, N and LSTRIPE. -/
def State.partyOf (s : State) (h : Word) (c : CtxId) (q : QIdx) : Option (Bool × Nat × Nat × Nat × Nat) :=
  if s.homeHere h then
    match s.roundOf h with
    | none => none
    | some (_, r) =>
      match r.listed c s.ownPkg with
      | none => none
      | some i =>
        let p := r.parties.getD i { ctx := 0, pkg := 0 }
        if p.joined ∧ p.queue = q ∧ !p.dropped then some (true, i, p.cursor, r.n, r.lstripe) else none
  else
    (s.map.joined.find? (fun j => j.handle == h && j.ctx == c && j.queue == q && !j.dropped)).map (fun j =>
      (false, j.party, j.cursor, j.n, j.lstripe))

/-- Whether a round of this HTU is marked failed (R315). -/
def State.roundMarked (s : State) (h : Word) : Bool :=
  s.homeHere h && (match s.roundOf h with
    | some (_, r) => decide (r.marked ≠ 0)
    | none => false)

/-- The cursor of a party advanced. -/
def State.cursorTo (s : State) (h : Word) (c : CtxId) (q : QIdx) (home : Bool) (i n : Nat) : State :=
  if home then
    match s.roundOf h with
    | some (slot, r) => { s with map := { s.map with rounds := s.map.rounds.put slot (r.updParty i (fun p => { p with cursor := n })) } }
    | none => s
  else
    { s with map := { s.map with joined := s.map.joined.map (fun j =>
        if j.handle = h ∧ j.ctx = c ∧ j.queue = q then { j with cursor := n } else j) } }

/-- A CONTRIB that sends nothing fails with AGG_QUORUM_LOST (R225, R247). -/
def State.contribFail (s : State) (c : CtxId) (q : QIdx) (seq : Word) : State :=
  s.breakQueue c q s.nextId seq Code.aggQuorumLost

/-- AGG CONTRIB. -/
def aggContribBody : JBody := fun c q x s =>
  let n := contribLen x
  let h : Word := BitVec.ofNat 32 x.bVal.toNat
  let conv : BitVec 16 := BitVec.ofNat 16 (fld (J.imm2 x.w) 55 40)
  let inl := J.ama x.w = amInline
  let i := s.newId
  if inl ∧ inlineOver x.w (J.imm0 x.w) ((cvOf conv.toNat).src.spanBytes n) then faultBody s c q Rsn.inlineLen
  else if n = 0 then some (s.advance c q x.w)
  else if (J.md x.w).testBit 4 ∧ n ≥ 2 ^ 40 then some (s.failAccess c q x x.aDva 0 true false Rsn.lenRange)
  else
    match s.partyOf h c q with
    | none => some (s.contribFail c q x.q.head)
    | some (home, party, cursor, total, ls) =>
      if s.roundMarked h then some (s.contribFail c q x.q.head)
      else if cursor + n > total ∨ (n % 2 ^ ls ≠ 0 ∧ cursor + n ≠ total) then
        some ((s.contribFail c q x.q.head).raise
          { src := Src.aggPoison, who := s.threadOf c, reason := Rsn.aggAlign, code := Code.aggQuorumLost, ctx := some c
            queue := some q, iseq := x.q.head })
      else
        match x.aTokenFault c with
        | some reason => some (s.failAccess c q x x.aDva 1 true false reason)
        | none =>
          if s.descsFull c then none
          else if !inl && s.stallFor c x.aDva.toNat then some (s.stall c q)
          else
            let d : Desc :=
              { id := i.1
                owner := .queue c q x.q.head
                src := if inl then .inline (x.pay.drop (fld (J.imm0 x.w) 7 0)) else .dva x.aDva
                dst := .inline []
                conv := some conv
                len := n
                bbit := (J.md x.w).testBit 3
                agg := some { handle := h, party := party, first := cursor, home := home } }
            some ((i.2.cursorTo h c q home party (cursor + n)).sendDesc c q x.w d)

def execAggContrib (c : CtxId) (q : QIdx) (s : State) : Host.Outcome State Fault Refusal :=
  done (s.issue c q (aggIs 2) aggContribBody)

/-! ## The end of a round (R309 to R316) -/

/-- CONTRIBs of parties that are dropped fail: the home refuses their stripes (R307). -/
def State.refuseDropped (s : State) (slot : Nat) : State :=
  match s.map.rounds.look slot with
  | none => s
  | some r =>
    let lost (id : Nat) : Bool := match (s.desc? id).bind Desc.agg with
      | some a => match r.parties[a.party]? with
        | some p => p.dropped || r.marked != 0
        | none => true
      | none => false
    forAll ((s.contribsOf slot).filter lost) s (fun t d => t.failDesc d Code.aggQuorumLost)

/-- The cutoff: every joined party that is not complete is dropped and settled. -/
def State.cutoff (s : State) (slot : Nat) : State :=
  match s.map.rounds.look slot with
  | none => s
  | some r =>
    if r.cut then s
    else
      (s.updRound slot (fun r => { r with
        cut := true
        st := .closing
        parties := r.parties.map (fun p => if p.joined && !p.dropped && p.commits != r.stripes then p.drop else p) })).refuseDropped slot

/-- AGG_CUTOFF_TIMEOUT. -/
def execAggCutoffTimeout (slot : BitVec 4) (s : State) : Host.Outcome State Fault Refusal :=
  done (match s.map.rounds.look slot.toNat with
    | some r => if r.tmo ≠ 0 ∧ s.reached (r.openAt + r.tmo * 1000) then s.cutoff slot.toNat else s
    | none => s)

/-- The whole record of a round that ends (R313). -/
def Round.record (r : Round) (time : DWord) : List Byte :=
  let bits (f : Party → Bool) : Nat := (r.parties.zip (rangeFrom 0 64)).foldl (fun n p => if f p.1 then n + 2 ^ p.2 else n) 0
  let commits : List Nat := r.parties.map Party.commits ++ List.replicate (64 - r.parties.length) 0
  r.head ++ leBytes 8 (bits Party.joined) ++ leBytes 8 r.clamped ++ leBytes 8 r.nans ++ leBytes 4 (sat32 r.rovf).toNat ++
  leBytes 4 (sat32 r.runf).toNat ++ leBytes 8 time.toNat ++ leBytes 16 0 ++ commits.flatMap (leBytes 4)

/-- The outcome reaches the CLOSE that carries it, and the slot is free (R314, R316). -/
def State.roundOutcome (s : State) (slot : Nat) : State :=
  match s.map.rounds.look slot with
  | none => s
  | some r =>
    match r.closer with
    | none => s
    | some id =>
      let s1 := s.freeRound slot
      if r.st = .released then s1.delDesc id
      else s1.failDesc id (if r.reason = 5 then r.outCode else Code.aggQuorumLost)

/-- A round ends with a state and a reason: its record is written. -/
def State.roundFinish (s : State) (slot : Nat) (st : RState) (reason : Nat) (code : Byte) : State :=
  match s.map.rounds.look slot with
  | none => s
  | some r =>
    let r1 : Round := { r with st := st, reason := reason, outCode := code, releasing := false }
    let s1 : State := { s with map := { s.map with rounds := s.map.rounds.put slot r1 } }
    (s1.heldWrite r.ctx r.recPages r.recDva.toNat 3 r.recDva.toNat (r1.record s.now)).roundOutcome slot

/-- AGG_RELEASE_START: the conditions of R310 in their order; where none holds the release begins. -/
def State.releaseStart (s : State) (slot : Nat) : State :=
  match s.map.rounds.look slot with
  | none => s
  | some r =>
    if !r.cut ∨ r.st ≠ .closing ∨ r.releasing then s
    else if r.strict ∧ r.completeCount < r.parties.length then s.roundFinish slot .failed 2 0
    else if r.completeCount < r.quorum then s.roundFinish slot .failed 1 0
    else if r.marked ≠ 0 then s.roundFinish slot .failed r.marked 0
    else { s with map := { s.map with rounds := s.map.rounds.put slot { r with releasing := true } } }

def execAggReleaseStart (slot : BitVec 4) (s : State) : Host.Outcome State Fault Refusal := done (s.releaseStart slot.toNat)

/-- The sum of one element without the blind and the masks of split pairs (R311), modulo 2^W. -/
def Round.sumAt (r : Round) (e acc : Nat) : Nat :=
  let p := r.parties.length
  let in_ (i : Nat) : Bool := match r.parties[i]? with
    | some x => decide (x.commits > e / 2 ^ r.lstripe)
    | none => false
  let corr : Int := ((rangeFrom 0 p).map (fun i =>
    ((partners p r.deg i).filter (fun j => decide (i < j))).map (fun j =>
      let m : Int := pairWord r.mode r.key i j e
      if in_ i && !in_ j then -m else if in_ j && !in_ i then m else 0))).flatten.sum
  (((acc : Int) - (blindWord r.mode r.key e : Int) + corr) % (2 ^ aggW r.mode : Int)).toNat

/-- An element's value: the signed sum times 2^SCALE. -/
def Round.valueAt (r : Round) (sum : Nat) : Num :=
  let v : Int := (BitVec.ofNat (aggW r.mode) sum).toInt
  .fin (decide (v < 0)) v.natAbs r.scale

/-- Released elements in a format that is not microscaled: codes and flags. -/
def relCodes (f : Fmt) (rnd : Nat) (nanm : Bool) : List Num → Nat → Rng → List (Nat × CvFlags) × Rng
  | [], _, g => ([], g)
  | v :: vs, e, g =>
    let r := g.next e (rnd = 4 && f.draws v)
    let t := relCodes f rnd nanm vs (e + 1) r.2
    (f.encode rnd nanm r.1 v :: t.1, t.2)

/-- Released elements in a microscaled format: bytes and flags. -/
def relBlocks (f : Fmt) (rnd : Nat) (nanm : Bool) : Nat → List Num → Nat → Rng → List Byte × List CvFlags × Rng
  | 0, _, _, g => ([], [], g)
  | fuel + 1, vs, e, g =>
    if vs.isEmpty then ([], [], g)
    else
      let blk := vs.take 32
      let b := mxEncode f rnd nanm blk e g
      let t := relBlocks f rnd nanm fuel (vs.drop 32) (e + 32) b.2.2
      (BitVec.ofNat 8 b.1 :: packElems f.bits (b.2.1.map Prod.fst ++ List.replicate (32 - blk.length) 0) ++ t.1
      , b.2.1.map Prod.snd ++ t.2.1, t.2.2)

/-- The result of a round from its accumulator words: bytes, and the numbers of elements that raised OVF and UNF. -/
def Round.released (r : Round) (acc : List Nat) (g : Rng) : List Byte × Nat × Nat × Rng :=
  let sums := (acc.zip (rangeFrom 0 acc.length)).map (fun x => r.sumAt x.2 x.1)
  if r.rfmt.toNat ≥ 0x11 then (wordBytes r.mode (sums.map (fun x => BitVec.ofNat 64 x)), 0, 0, g)
  else
    let f := fmtOf r.rfmt.toNat r.rsub
    let vs := sums.map r.valueAt
    if f.mx then
      let b := relBlocks f r.rrnd.toNat r.rnanm (vs.length / 32 + 1) vs 0 g
      let k := countFlags b.2.1
      (b.1, k.1, k.2.1, b.2.2)
    else
      let b := relCodes f r.rrnd.toNat r.rnanm vs 0 g
      let k := countFlags (b.1.map Prod.snd)
      (packElems f.bits (b.1.map Prod.fst), k.1, k.2.1, b.2)

/-- What the pages of RES say before the result is written. -/
inductive ResPages where
  | ok
  | absent (a : Nat)
  | fail
  deriving DecidableEq, Repr

/-- The pages of a span that a context writes. -/
def State.resPages (s : State) (c : CtxId) (a : Nat) : Nat → ResPages
  | 0 => .ok
  | n + 1 =>
    match s.peekWalk c a with
    | .fail _ _ => .fail
    | .leaves s1 _ e _ _ =>
      if !permits false true false (some c) (s1.map Prod.snd) e then .fail
      else if Pte.ts e ≠ Ts.mapped then .absent a
      else State.resPages s c (a + 4096) n

/-- A result written page by page (R62, R312); what lies outside the memory that the model holds leaves it. -/
def State.resWrite (s : State) (c : CtxId) : Nat → Nat → List Byte → State
  | 0, _, _ => s
  | fuel + 1, a, bs =>
    if bs.isEmpty then s
    else
      let k := 4096 - a % 4096
      match s.peekWalk c a with
      | .fail _ _ => s
      | .leaves s1 k2 e ca _ =>
        let t := s.markLeaves s1 k2 e true
        let off := Pte.offpn e * 4096 + ca % 2 ^ Pte.lsize e
        let part := bs.take k
        let u := match (Pte.cls e).toNat with
          | 1 => t.smsWrite (stagingBase + off) part (some (Pte.owner e)) false
          | 2 => t.smsWrite (tierBase + off) part (some (Pte.owner e)) false
          | 3 => t.hbmWrite (Pte.index e) off (Pte.owner e) (Pte.lp e) part
          | 0x0A => t.tileWrite (Pte.index e) off part
          | _ => t.emit (.extWrite (Pte.cls e) (Pte.index e) (BitVec.ofNat 64 off) part)
        State.resWrite u c fuel (a + k) (bs.drop k)

/-- The release: ACC is read and set to 0, the result is written, and the round ends. A page of RES that is not present
has its service started, and the release goes on after it. -/
def State.releaseDone (s : State) (slot : Nat) (r : PassFail) (code : Byte) : State :=
  match s.map.rounds.look slot with
  | none => s
  | some x =>
    if !x.releasing then s
    else
      let bytes := accBytes x.mode x.n
      let a0 := x.acc.toNat
      let acc := s.heldRead x.ctx x.accPages a0 (bytes / 4096 + 2) a0 bytes
      if acc.2.1 then
        (acc.2.2.raise { src := Src.aggAccPoison, code := Code.aggQuorumLost, ctx := some x.ctx }).roundFinish slot .failed 4 0
      else if r = .fail then s.roundFinish slot .failed 5 code
      else
        let out := x.released (bytesWords x.mode x.n acc.1) { key := none, free := acc.2.2.free }
        let a := x.res.toNat
        let pages := pagesOf a out.1.length
        match s.resPages x.ctx (a / 4096 * 4096) pages with
        | .fail => s.roundFinish slot .failed 5 Code.xlateUnresolved
        | .absent b => s.touchPage x.ctx (BitVec.ofNat 64 b) true
        | .ok =>
          let s1 : State := { acc.2.2 with
            free := out.2.2.2.free
            map := { acc.2.2.map with rounds := acc.2.2.map.rounds.put slot { x with rovf := out.2.1, runf := out.2.2.1 } } }
          let s2 := s1.heldWrite x.ctx x.accPages a0 (bytes / 4096 + 2) a0 (List.replicate bytes 0)
          (s2.resWrite x.ctx (pages + 1) a out.1).roundFinish slot .released 0 0

/-- AGG_RELEASE_DONE. -/
def execAggReleaseDone (slot : BitVec 4) (r : PassFail) (code : Byte) (s : State) : Host.Outcome State Fault Refusal :=
  done (s.releaseDone slot.toNat r code)

/-! ## CLOSE and LEAVE (R247, R306, R309, R314) -/

/-- AGG CLOSE: the CLOSE that takes the cutoff, or the first one after it, carries the outcome. -/
def aggCloseBody : JBody := fun c q x s =>
  let h := aggHandle x
  if !s.runs Blk.map then none
  else
    match s.roundOf h with
    | none => some (s.result c q x.w 2 none)
    | some (slot, r) =>
      if r.ctx ≠ c then some (s.result c q x.w 2 none)
      else if r.closer.isSome then some (s.result c q x.w 0 none)
      else
        let i := s.newId
        let d : Desc :=
          { id := i.1, owner := .queue c q x.q.head, src := .inline [], dst := .inline [], len := 1
            agg := some { handle := h, party := 64, first := 0, home := true } }
        let s1 : State := { i.2 with map := { i.2.map with
          descs := i.2.map.descs ++ [d], rounds := i.2.map.rounds.put slot { r with closer := some i.1 } } }
        let s2 := (s1.cutoff slot).result c q x.w 0 none
        some (if r.st = .released ∨ r.st = .failed then s2.roundOutcome slot else s2)

def execAggClose (c : CtxId) (q : QIdx) (s : State) : Host.Outcome State Fault Refusal :=
  done (s.issue c q (aggIs 3) aggCloseBody)

/-- A party leaves. -/
def State.partyLeave (s : State) (h : Word) (i : Nat) : State :=
  match s.roundOf h with
  | some (slot, _) => s.updRound slot (fun r => r.updParty i Party.drop)
  | none => s

/-- AGG LEAVE: earlier CONTRIBs of the queue are sent first. Toward another home, the home is told. -/
def aggLeaveBody : JBody := fun c q x s =>
  let h := aggHandle x
  let sending := s.map.descs.any (fun d => (match d.owner with
      | .queue k y _ => k == c && y == q
      | _ => false) && (match d.agg with
      | some a => a.handle == h && decide (a.party < 64)
      | none => false))
  match s.partyOf h c q with
  | none => some (s.result c q x.w 2 none)
  | some (home, i, _, _, _) =>
    if sending || !s.runs Blk.map then none
    else if home then some ((s.partyLeave h i).result c q x.w 0 none)
    else
      let pkg : PkgId := BitVec.ofNat 16 (fld h.toNat 31 16)
      let k : FlowKey := { pkg := pkg, dev := true, ctx := c, gen := s.genOf c, queue := q }
      let s1 : State := { s with map := { s.map with joined := s.map.joined.map (fun j =>
        if j.handle = h ∧ j.ctx = c ∧ j.queue = q then { j with dropped := true, secret := 0 } else j) } }
      some ((s1.emit (.relay 13 k pkg h 4 [] false)).result c q x.w 0 none)

/-- A LEAVE that comes from another package. -/
def State.leaveFrom (s : State) (pkg : PkgId) (h : Word) (c : CtxId) (q : QIdx) : State :=
  match s.roundOf h with
  | some (slot, r) =>
    match r.listed c pkg with
    | some i => s.updRound slot (fun r => r.updParty i (fun p => if p.joined && p.queue == q && !p.dropped then p.drop else p))
    | none => s
  | none => s

def execAggLeave (c : CtxId) (q : QIdx) (via : AggVia) (s : State) : Host.Outcome State Fault Refusal :=
  done (match via with
    | .here _ => s.issue c q (aggIs 4) aggLeaveBody
    | .remote pkg h => s.leaveFrom pkg h c q)

/-! ## Stripes (R293, R301, R305, R315) -/

/-- A round is marked failed: its CONTRIBs fail (R315). -/
def State.markRound (s : State) (slot reason : Nat) : State :=
  (s.updRound slot (fun r => { r with marked := if r.marked = 0 then reason else r.marked })).refuseDropped slot

/-- The stripe of a party that continues its prefix is committed, as long as there is one. -/
def State.commitStripes (s : State) (slot i : Nat) : Nat → State
  | 0 => s
  | fuel + 1 =>
    match s.map.rounds.look slot with
    | none => s
    | some r =>
      match r.parties[i]? with
      | none => s
      | some p =>
        match p.accepted.find? (fun x => x.k == p.commits) with
        | none => s
        | some x =>
          let n := stripeLen r.n r.lstripe x.k
          let a := r.acc.toNat + accBytes r.mode (x.k * 2 ^ r.lstripe)
          let bytes := accBytes r.mode n
          let e0 := x.k * 2 ^ r.lstripe
          let first := !r.started.contains x.k
          let old := s.heldRead r.ctx r.accPages r.acc.toNat (bytes / 4096 + 2) a bytes
          if !first && old.2.1 then
            (old.2.2.raise { src := Src.aggAccPoison, code := Code.aggQuorumLost, ctx := some r.ctx }).markRound slot 4
          else
            let base : List Nat := if first then (rangeFrom e0 n).map (blindWord r.mode r.key) else bytesWords r.mode n old.1
            let new := (base.zip x.words).map (fun y => BitVec.ofNat 64 ((y.1 + y.2.toNat) % 2 ^ aggW r.mode))
            let s1 := (if first then s else old.2.2).heldWrite r.ctx r.accPages r.acc.toNat (bytes / 4096 + 2) a (wordBytes r.mode new)
            let s2 := s1.updRound slot (fun r => { (r.updParty i (fun p => { p with
                commits := p.commits + 1
                accepted := p.accepted.filter (fun y => y.k != x.k) })) with
              started := addTo r.started x.k
              clamped := r.clamped + x.clamped
              nans := r.nans + x.nans })
            State.commitStripes s2 slot i fuel

/-- Stripe buffers of a unit in use. -/
def State.unitStripes (s : State) (u : Nat) : Nat :=
  ((s.map.rounds.flatMap (fun e => e.2.parties)).flatMap Party.accepted).countP (fun x => x.unit == u)

/-- The unit whose stripe buffer takes a stripe: the sender's own, else the lowest that has one, outside frozen regions. -/
def State.stripeUnit (s : State) (own : Option Nat) : Option Nat :=
  let ok (u : Nat) : Bool := !s.regionFrozen (unitRegion u) && decide (s.unitStripes u < 16)
  match own with
  | some u => if ok u then some u else (rangeFrom 0 8).find? ok
  | none => (rangeFrom 0 8).find? ok

/-- A stripe is in a buffer of the home, and is committed when it continues its party's prefix. -/
def State.stripeIn (s : State) (slot i : Nat) (x : Stripe) : State :=
  (({ s with map := { s.map with rounds := s.map.rounds.upd slot (fun r => r.updParty i (fun p =>
      { p with accepted := p.accepted ++ [x] })) } } : State)).commitStripes slot i 64

/-- Whether a party may have one more stripe accepted: one that commits at once, or one within the limit of R293. -/
def State.stripeRoom (s : State) (p : Party) (k : Nat) : Bool :=
  decide (k = p.commits) || decide (p.accepted.length < s.ce .mapAggCtrl 3 0)

/-- The descriptor of this HTU that is sending a stripe of a party. -/
def State.stripeSender (s : State) (slot i k : Nat) (r : Round) : Option Desc :=
  s.map.descs.find? (fun d => match d.agg with
    | some a => a.home && a.party == i && (s.roundOf a.handle).map Prod.fst == some slot && d.writing && decide (0 < d.outn) &&
        decide ((a.first + d.pos) / 2 ^ r.lstripe = k)
    | none => false)

/-- A stripe of a party of this HTU. -/
def State.stripeLocal (s : State) (slot i k : Nat) (r : Round) (p : Party) : State :=
  match s.stripeSender slot i k r with
  | none => s
  | some d =>
    if p.dropped ∨ r.marked ≠ 0 then s.failDesc d.id Code.aggQuorumLost
    else if !s.stripeRoom p k then s
    else
      match s.stripeUnit (d.chan.map Prod.fst) with
      | none => s
      | some u =>
        let x : Stripe :=
          { k := k, unit := u, words := (bytesWords r.mode d.outn d.outb).map (fun w => BitVec.ofNat 64 w)
            clamped := d.outFl.1, nans := d.outFl.2.1 }
        ((s.stripeIn slot i x).updDesc d.id (fun y => ({ y with wrOff := y.outb.length, outFl := (0, 0, 0) }).endSeg)).drive d.id

/-- A stripe of a party on another package: one that is refused after the drop is reported as a failure (R307). -/
def State.stripeRemote (s : State) (slot i k : Nat) (r : Round) (p : Party) (ws : List DWord) (clamped nans : Nat) : State :=
  if ws.length ≠ stripeLen r.n r.lstripe k ∨ k < p.commits ∨ p.accepted.any (fun x => x.k == k) then s
  else if !p.joined ∨ p.dropped ∨ r.marked ≠ 0 then
    let key := match s.ofp.rx.find? (fun f => f.key.pkg == p.pkg && f.key.ctx == p.ctx && f.key.queue == p.queue && !f.key.dev) with
      | some f => f.key
      | none => { pkg := p.pkg, dev := false, ctx := p.ctx, gen := 0, queue := p.queue }
    s.nackFlow key 0 Code.aggQuorumLost 0
  else if !s.stripeRoom p k then s
  else
    match s.stripeUnit none with
    | none => s
    | some u => s.stripeIn slot i { k := k, unit := u, words := ws, clamped := clamped, nans := nans }

/-- STRIPE_ACCEPT: the words of a party on another package come with the stripe; a party of this HTU sends its
descriptor's. -/
def State.stripeAccept (s : State) (slot i k : Nat) (ws : List DWord) (clamped nans : Nat) : State :=
  match s.map.rounds.look slot with
  | none => s
  | some r =>
    match r.parties[i]? with
    | none => s
    | some p =>
      if k ≥ r.stripes ∨ !s.runs Blk.map then s
      else if p.pkg = s.ownPkg then s.stripeLocal slot i k r p
      else s.stripeRemote slot i k r p ws clamped nans

def execStripeAccept (slot : BitVec 4) (party : BitVec 6) (stripe : BitVec 18) (words : List DWord) (clamped nans : BitVec 16)
    (s : State) : Host.Outcome State Fault Refusal :=
  done (s.stripeAccept slot.toNat party.toNat stripe.toNat words clamped.toNat nans.toNat)

end Sys2Proof.Machine
end

