-- ==== Sys2Proof/Machine/Operator.lean ====
section
/-! DEFINITION. Commands of the operator over the Nirxixo management network (R546, R547, R550, R599): who may give them,
and the reasons with which they are refused. -/

namespace Sys2Proof.Machine

/-- Reasons of a refusal that reaches the operator. The spec names some of them and numbers none (notes/assumptions/40). -/
def Why.quarantine : Nat := 0
def Why.lapExhausted : Nat := 1
def Why.noRoom : Nat := 2
def Why.slotsPinned : Nat := 3
def Why.bindingLimit : Nat := 4
def Why.granted : Nat := 5
def Why.missing : Nat := 6
def Why.state : Nat := 7
def Why.wrongCode : Nat := 8
def Why.lockout : Nat := 9
def Why.lastAnchor : Nat := 10
def Why.image : Nat := 11
def Why.islandOff : Nat := 12
def Why.lockReserved : Nat := 13

/-- Whether an operator's session is open, over which a command can come (R547). -/
def State.operatorHere (s : State) : Bool := s.mgt.sessions.any (fun x => x.right == .operator)

/-- A command that MGT serves without a running image too (R598). -/
def State.bySession (s : State) (f : State → State) : State := if s.operatorHere then f s else s

/-- A command of the operator: it comes over an operator's session; without an image it is not served (R598). -/
def State.byOperator (s : State) (f : State → State) : State :=
  s.bySession (fun t => if t.rpc.bootSt = 3 then t.emit (.mgtRefuse Why.state) else f t)

/-- A command of binding authority: SEC refuses it in settings-quarantine (R550, R599). -/
def State.byAuthority (s : State) (f : State → State) : State :=
  s.byOperator (fun t => if t.rpc.quar then t.emit (.mgtRefuse Why.quarantine) else f t)

/-- The answer to a command of the operator that has been carried out. -/
def State.mgtDone (s : State) (cmd : Nat) : State := s.emit (.mgt cmd 0)

end Sys2Proof.Machine
end

