-- ==== Sys2Proof/Machine/FlcCmd.lean ====
section
/-! DEFINITION. The Fault Collector: detection, the main log and its spill, last-gasp mode, acknowledgement, forced faults
and policy (R561, R562, R565, R570 to R576, R614). -/

namespace Sys2Proof.Machine

/-! ## Capture and log (R562, R571, R572, R575) -/

/-- Records of the main log, entries of the last-gasp log, records of a spill unit, units of the spill ring. -/
def logMax : Nat := 1048576
def lgMax : Nat := 64
def spillBlock : Nat := 256
def spillUnits : Nat := 131072

/-- FAULT_DETECT: a block's own hardware has found a fault. Forced faults and RC_BOTH_LOST come by their own commands. -/
def State.faultDetect (s : State) (f : FaultIn) : State := if f.forced ∨ f.src = Src.rcBothLost then s else s.raise f

def execFaultDetect (f : FaultIn) (s : State) : Host.Outcome State Fault Refusal := done (s.faultDetect f)

/-- Records that stand between two counts. -/
def Flc.span (a b : Word) : Nat := (a - b).toNat

/-- Whether the main log is full. -/
def State.logFull (s : State) : Bool :=
  decide (max (Flc.span s.flc.prod s.flc.cons) (Flc.span s.flc.prod s.flc.spill) ≥ logMax)

/-- Whether the spill runs. -/
def State.spills (s : State) : Bool := s.ce .flcCtrl 1 1 == 1 && !s.flc.spillStop

/-- FLC_LOG_SPILL follows FLC_LOG_PROD while the spill does not run. -/
def State.spillFollow (s : State) : State := if s.spills then s else { s with flc := { s.flc with spill := s.flc.prod } }

/-- A record enters the last-gasp log, or is counted as lost. -/
def State.lgPut (s : State) (r : BitVec 512) : State :=
  if s.flc.lg.length < lgMax then { s with flc := { s.flc with lg := s.flc.lg ++ [r] } }
  else { s with flc := { s.flc with lgLost := satInc s.flc.lgLost } }

/-- Last-gasp mode begins: its first entry is a LOG_MEDIUM_FAIL record. -/
def State.lastGasp (s : State) : State :=
  if s.flc.lastgasp then s
  else
    let s1 := ({ s with flc := { s.flc with lastgasp := true } }).raise { src := Src.logMediumFail }
    match s1.flc.capture.look Src.logMediumFail.toNat with
    | some r => ({ s1 with flc := { s1.flc with capture := s1.flc.capture.del Src.logMediumFail.toNat } }).lgPut r.bits
    | none => s1

/-- The capture register that moves next, in rotating source order. -/
def State.captureNext (s : State) : Option (Nat × FRec) :=
  match s.flc.capture.find? (fun e => decide (s.flc.rot < e.1)) with
  | some e => some e
  | none => s.flc.capture.head?

/-- FAULT_LOG_WRITE: `bad` tells that SMS reports an uncorrectable error on the record's write. -/
def State.logWrite (s : State) (bad : Bool) : State :=
  if !s.runs Blk.flc then s
  else
    match s.captureNext with
    | none => s
    | some (n, r) =>
      let s1 : State := { s with flc := { s.flc with capture := s.flc.capture.del n, rot := n } }
      if s.flc.lastgasp then s1.lgPut r.bits
      else if s.logFull then { s1 with flc := { s1.flc with drop := satInc s1.flc.drop } }
      else if bad then s1.lastGasp.lgPut r.bits
      else
        ({ s1 with flc := { s1.flc with
            log := s1.flc.log.put (s.flc.prod.toNat % logMax) r.bits
            prod := s.flc.prod + 1 } }).spillFollow

def execFaultLogWrite (mediumError : Bool) (s : State) : Host.Outcome State Fault Refusal := done (s.logWrite mediumError)

/-- LOG_SPILL_WRITE: a completed block of records is written to the next unit of the boot zone's spill ring (R400, R573). -/
def State.spillWrite (s : State) (r : PassFail) : State :=
  if !s.spills ∨ !s.ftc.mounted ∨ Flc.span s.flc.prod s.flc.spill < spillBlock then s
  else match r with
    | .pass =>
      let recs := (rangeFrom s.flc.spill.toNat spillBlock).map (fun i => (s.flc.log.look (i % 2 ^ 32 % logMax)).getD 0)
      let z := s.ftc.zone
      let all := z.spills ++ [(z.spillSeq, recs)]
      let kept := if all.length > spillUnits then all.drop 1 else all
      { s with
        flc := { s.flc with spill := s.flc.spill + BitVec.ofNat 32 spillBlock }
        ftc := { s.ftc with zone := { z with spills := kept, spillSeq := z.spillSeq + 1 } } }
    | .fail =>
      (({ s with flc := { s.flc with spillStop := true } }).spillFollow).raise { src := Src.logSpillFail }

def execLogSpillWrite (r : PassFail) (s : State) : Host.Outcome State Fault Refusal := done (s.spillWrite r)

/-- LOG_CONSUME. -/
def State.logConsume (s : State) (who : Who) (v : Word) : State :=
  s.writeBy (s.coreOrOperator who) who .flcLogCons [] (fun t =>
    if Flc.span v t.flc.cons ≤ Flc.span t.flc.prod t.flc.cons then { t with flc := { t.flc with cons := v } }
    else t.cfgReject who (regAddr .flcLogCons []))

def execLogConsume (who : Who) (v : Word) (s : State) : Host.Outcome State Fault Refusal := done (s.logConsume who v)

/-- Whether an initiator is a session that may read status and logs (R547). -/
def State.reader (s : State) : Who → Bool
  | .mgt p n => s.mgt.sessions.any (fun x => x.port == p.toNat && x.num == n.toNat && x.right != .claim)
  | _ => false

/-- LOG_READ: the words of a record go to the reader; a read that finds an uncorrectable error begins last-gasp mode. -/
def State.logRead (s : State) (who : Who) (i : Word) (bad : Bool) : State :=
  s.writeBy (s.coreOrOperator who || s.reader who) who .flcLogRidx [] (fun t =>
    let t1 := t.putReg .flcLogRidx [] i.toNat
    if bad then t1.lastGasp
    else
      let r := ((t1.flc.log.look (i.toNat % logMax)).getD 0).toNat
      forAll (rangeFrom 0 16) t1 (fun u k => u.emit (.coreVal who (BitVec.ofNat 32 (r / 2 ^ (32 * k))))))

def execLogRead (who : Who) (i : Word) (mediumError : Bool) (s : State) : Host.Outcome State Fault Refusal :=
  done (s.logRead who i mediumError)

/-- The core that FLC_RC_CTRL.primary names (R577, R579). -/
def State.primaryCore (s : State) : CoreId := if s.flc.primary then 15 else 0

/-- LOG_RESUME. -/
def State.logResume (s : State) (who : Who) (pass : Bool) : State :=
  s.writeBy (decide (who = .core s.primaryCore)) who .flcLogResume [] (fun t =>
    if pass then { t with flc := { t.flc with cons := t.flc.prod, spill := t.flc.prod, log := [], lastgasp := false } } else t)

def execLogResume (who : Who) (pass : Bool) (s : State) : Host.Outcome State Fault Refusal := done (s.logResume who pass)

/-- LGCLEAR of the operator (R575). -/
def execLgclear (s : State) : Host.Outcome State Fault Refusal :=
  done (s.byOperator (fun t => { t with flc := { t.flc with lg := [], lgLost := 0 } }))

/-! ## Acknowledgement, forced faults, policy (R561, R565, R570) -/

/-- FLC_ACK. -/
def State.flcAck (s : State) (who : Who) (src : BitVec 9) : State :=
  s.writeBy (s.coreOrOperator who) who .flcAck [] (fun t =>
    { t with flc := { t.flc with unclr := t.flc.unclr.filter (fun u => decide (u.1 ≠ src.toNat)) } })

def execFlcAck (who : Who) (src : BitVec 9) (s : State) : Host.Outcome State Fault Refusal := done (s.flcAck who src)

/-- Whether a source's policy can be written and its fault forced: reserved sources and RC_BOTH_LOST cannot. -/
def State.srcWritable (s : State) (src : BitVec 9) : Bool := (s.srcCfg src.toNat).isSome && src != Src.rcBothLost

/-- FAULT_FORCE: context and queue come from FLC_FORCE_TGT; the fault is reacted to as any other of its source, so that one of
an HPX source freezes its link from level 3 on (R424). -/
def State.faultForce (s : State) (who : Who) (src : BitVec 9) : State :=
  s.writeBy (s.coreOrOperator who && s.srcWritable src) who .flcSrcCfg [src.toNat] (fun t =>
    let c : CtxId := BitVec.ofNat 14 (t.rf .flcForceTgt 13 0)
    let q : QIdx := BitVec.ofNat 3 (t.rf .flcForceTgt 26 24)
    let cv := t.rf .flcForceTgt 31 31 == 1
    let qv := t.rf .flcForceTgt 30 30 == 1
    let d : FaultIn :=
      { src := src
        who := who
        forced := true
        ctx := if cv then some c else none
        queue := if qv then some q else none
        iseq := if cv && qv then (t.oldest c q).2 else 0 }
    t.raise d)

def execFaultForce (who : Who) (src : BitVec 9) (s : State) : Host.Outcome State Fault Refusal := done (s.faultForce who src)

/-- FAULT_POLICY: levels 5 to 7 are reserved encodings; an operator's is refused in settings-quarantine (R550). -/
def State.faultPolicy (s : State) (who : Who) (src : BitVec 9) (level : BitVec 3) (cls : BitVec 2) : State :=
  if s.operator who ∧ s.rpc.quar then s.emit (.mgtRefuse Why.quarantine)
  else s.writeBy (s.coreOrOperator who && s.srcWritable src && decide (level.toNat ≤ 4)) who .flcSrcCfg [src.toNat] (fun t =>
    { t with flc := { t.flc with srcCfg := t.flc.srcCfg.put src.toNat (cls, level) } })

def execFaultPolicy (who : Who) (src : BitVec 9) (level : BitVec 3) (cls : BitVec 2) (s : State) :
    Host.Outcome State Fault Refusal := done (s.faultPolicy who src level cls)

/-! ## Powered-off islands (R20, R614) -/

/-- The block of an island (R8), whose freeze a fault of ISLAND_OFF can ask for (R556, R620). -/
def islandBlock (i : Nat) : Nat :=
  if i ≤ 15 then Blk.se
  else if i ≤ 39 then Blk.map
  else if i ≤ 44 then Blk.xlt
  else if i ≤ 52 then Blk.sms
  else if i = 53 then Blk.crg
  else if i ≤ 69 then Blk.glb
  else if i ≤ 73 then Blk.hpx
  else if i ≤ 89 then Blk.ofp
  else if i ≤ 92 then Blk.ddl
  else if i = 93 then Blk.ftc
  else if i = 94 then Blk.dqe
  else Blk.rpc

/-- ISLAND_ACCESS_TIMEOUT: the access ends with an error to its initiator, and the fault names the island. -/
def State.islandTimeout (s : State) (who : Who) (i : Nat) (acc : Acc) (addr : DWord) : State :=
  if s.islandOn i ∨ i > 95 then s
  else
    let s1 := match who with
      | .core n => s.emit (.coreErr n)
      | .host f => if acc = Sys2Proof.Acc.regWrite ∨ acc = Sys2Proof.Acc.write then s else s.emit (.cplAbort f)
      | .mgt _ _ => s.emit (.mgtRefuse Why.islandOff)
      | _ => s
    let k : AKind := match who with
      | .core _ => .ccpa
      | .host _ => .bar0
      | .mgt _ _ => .bar0
      | _ => .none
    s1.raise { src := Src.islandOff, who := who, addr := addr, acc := acc, akind := k
               synd := BitVec.ofNat 160 i, blk := some (BitVec.ofNat 5 (islandBlock i)) }

def execIslandAccessTimeout (who : Who) (island : BitVec 7) (acc : Acc) (addr : DWord) (s : State) :
    Host.Outcome State Fault Refusal := done (s.islandTimeout who island.toNat acc addr)

end Sys2Proof.Machine
end

