-- ==== Sys2Proof/Machine/Ddl.lean ====
section
/-! DEFINITION. Die-to-die modules and the SMS patrol (R31, R32, R39, R40). -/

namespace Sys2Proof.Machine

/-- A module. -/
def State.module (s : State) (m : Nat) : Module := s.ddl.mods.getD m {}
def State.updModule (s : State) (m : Nat) (f : Module → Module) : State :=
  { s with ddl := { s.ddl with mods := modAt f s.ddl.mods m } }
/-- Whether a module is up or DEGRADED. -/
def Module.serves (x : Module) : Bool := x.st == 2 || x.st == 3

/-- DDL_CORR of a module, which its counter counts (R41). -/
def State.ddlCorr (s : State) (m : Nat) : State :=
  ({ s with ddl := { s.ddl with corr := satInc s.ddl.corr } }).raise { src := Src.ddlCorr, synd := BitVec.ofNat 160 m }

/-- DDL_CRC_RETRY. -/
def State.crcRetry (s : State) (m : Nat) : State := if (s.module m).serves then s.ddlCorr m else s

def execDdlCrcRetry (m : BitVec 5) (s : State) : Host.Outcome State Fault Refusal := done (s.crcRetry m.toNat)

/-- DDL_LANE_DEGRADE. -/
def State.laneDegrade (s : State) (m : Nat) : State :=
  if (s.module m).serves then (s.updModule m (fun x => { x with st := 3 })).ddlCorr m else s

def execDdlLaneDegrade (m : BitVec 5) (s : State) : Host.Outcome State Fault Refusal := done (s.laneDegrade m.toNat)

/-- Requests that stand at a compute die without their end, and the drains that its tiles begin when it is lost (R39). -/
def State.dieLost (s : State) (d : Nat) : State :=
  let mine := s.reqs.filter (fun r => r.phase == .sent && (match r.tr with
    | some t => (t.cls == 3 || t.cls == 0x0A) && s.dieOf t.cls t.idx == d
    | none => false))
  let s1 := forAll (mine.map Req.id) s (fun t i => t.failReq i Code.remoteNack Rsn.ddlDown)
  forAll s1.bnd.vdevs s1 (fun t e =>
    forAll ((rangeFrom (32 * d) 32).filter (fun n => e.2.grant.tiles.toNat.testBit n)) t (fun u n =>
      if u.bnd.drains.any (fun x => x.die.toNat == d && x.tile.toNat == n % 32 && x.vdix.toNat == e.1) then u
      else
        let x : Drain := { die := BitVec.ofNat 3 d, tile := BitVec.ofNat 5 (n % 32), vdix := BitVec.ofNat 8 e.1, at_ := u.now }
        { u with bnd := { u.bnd with drains := u.bnd.drains ++ [x] } }))

/-- DDL_MODULE_LINK_DOWN: another module of the die takes the traffic, or the die is lost. -/
def State.moduleDown (s : State) (m : Nat) : State :=
  let x := s.module m
  if !x.serves then s
  else
    let s1 := (s.updModule m (fun y => { y with st := 0 })).raise { src := Src.ddlLinkDown, synd := BitVec.ofNat 160 m }
    if s1.dieUp x.die.toNat then s1 else s1.dieLost x.die.toNat

def execDdlModuleLinkDown (m : BitVec 5) (s : State) : Host.Outcome State Fault Refusal := done (s.moduleDown m.toNat)

/-- DDL_MODULE_RETRAIN: a module that has been up comes back. -/
def State.moduleRetrain (s : State) (m : Nat) : State :=
  let x := s.module m
  if x.st ≠ 0 ∨ x.waitOver ∨ !x.trained ∨ !s.islandOn (90 + m / 8) then s
  else s.updModule m (fun y => { y with st := 2, retrain := if y.retrain = 255 then 255 else y.retrain + 1 })

def execDdlModuleRetrain (m : BitVec 5) (s : State) : Host.Outcome State Fault Refusal := done (s.moduleRetrain m.toNat)

/-- DDL_TRAIN_COMPLETE: what the compute die reports over the sideband is kept. -/
def State.trainComplete (s : State) (m : Nat) (die : BitVec 3) (hbm : List (BitVec 4 × BitVec 7)) (tiles : BitVec 6)
    (kib : BitVec 20) : State :=
  if (s.module m).st ≠ 1 then s
  else
    let s1 := s.updModule m (fun x => { x with st := 2, die := die, trained := true })
    { s1 with ddl := { s1.ddl with
      hbm := hbm.foldl (fun t p => t.put p.1.toNat p.2) s1.ddl.hbm
      hbmDie := hbm.foldl (fun t p => t.put p.1.toNat die) s1.ddl.hbmDie
      tiles := s1.ddl.tiles.put die.toNat (tiles, kib) } }

def execDdlTrainComplete (m : BitVec 5) (die : BitVec 3) (hbm : List (BitVec 4 × BitVec 7)) (tiles : BitVec 6) (kib : BitVec 20)
    (s : State) : Host.Outcome State Fault Refusal := done (s.trainComplete m.toNat die hbm tiles kib)

/-- DDL_LINKWAIT_EXPIRE: the module stays DOWN, and its power domain is off (R40, R593). -/
def State.linkwaitExpire (s : State) (m : Nat) : State :=
  let x := s.module m
  if m ≥ 24 ∨ x.st ≠ 1 ∨ s.since s.ddl.trainAt < s.ce .ddlCtrl 7 0 * 1000000 then s
  else
    (s.updModule m (fun y => { y with st := 0, waitOver := true })).setDomain (496 + m) false

def execDdlLinkwaitExpire (m : BitVec 5) (s : State) : Host.Outcome State Fault Refusal := done (s.linkwaitExpire m.toNat)

/-- SMS_PATROL_PASS: what a pass finds at line numbers; an uncorrectable line of the fault-log area begins last-gasp
mode (R32, R575). -/
def State.patrolPass (s : State) (finds : List (Nat × Ecc)) : State :=
  if !s.runs Blk.sms then s
  else
    let logBase := (fwBase + fwSize) / 64
    let s1 := forAll finds s (fun t p =>
      let u := t.eccLine (64 * p.1) p.2 .hw
      if p.2 = .uncorrectable ∧ p.1 ≥ logBase then u.lastGasp else u)
    { s1 with mem := { s1.mem with passes := satInc s1.mem.passes } }

def execSmsPatrolPass (finds : List (Nat × Ecc)) (s : State) : Host.Outcome State Fault Refusal := done (s.patrolPass finds)

end Sys2Proof.Machine
end

