-- ==== Sys2Proof/Machine/Relay.lean ====
section
/-! DEFINITION. The optical fabric (R457 to R472, R493): Relay packets received and reported, flows, links and routes, the
package's time, RoCEv2 connections. -/

namespace Sys2Proof.Machine

/-! ## Links (R457 to R460) -/

/-- An optical link. -/
def State.olink (s : State) (l : OLink) : OLinkSt := (s.ofp.links.look l.toNat).getD {}

/-- An optical link changed. -/
def State.updOlink (s : State) (l : OLink) (f : OLinkSt → OLinkSt) : State :=
  { s with ofp := { s.ofp with links := s.ofp.links.put l.toNat (f (s.olink l)) } }

/-- Mode and split of a link's port. -/
def State.olinkMode (s : State) (l : OLink) : Nat := s.rf .ofpPortCfg 1 0 [l.toNat / 4]
def State.olinkSplit (s : State) (l : OLink) : Nat := s.rf .ofpPortCfg 3 2 [l.toNat / 4]

/-- Whether a link exists in its port's split and mode. -/
def State.olinkExists (s : State) (l : OLink) : Bool :=
  s.olinkMode l ≠ 0 && decide (l.toNat % 4 < 2 ^ s.olinkSplit l)

/-- Wavelengths of a link. -/
def State.olinkFull (s : State) (l : OLink) : Nat := 8 / 2 ^ s.olinkSplit l

/-- Whether a Relay link carries traffic. -/
def OLinkSt.carries (x : OLinkSt) : Bool := x.st == .up || x.st == .degraded

/-- Whether Relay data can arrive over a link: it carries traffic, the package has its index, and PTP has locked once
(R459, R471, R495). -/
def State.relayIn (s : State) (l : OLink) : Bool := (s.olink l).carries && s.ofp.pkg.isSome && s.ofp.everLocked

/-- A packet leaves on a link: the link's frame counter advances (R530). -/
def State.countFrame (s : State) (l : Option OLink) : State :=
  match l with
  | some x => s.updOlink x (fun y => { y with frames := y.frames + 1 })
  | none => s

/-! ## Flows that this HTU sends (R462, R465, R468) -/

/-- A sent flow, where there is one. -/
def State.txFlow? (s : State) (k : FlowKey) : Option TxFlow := s.ofp.tx.find? (fun f => f.key == k)

/-- A sent flow changed. -/
def State.updTx (s : State) (k : FlowKey) (g : TxFlow → TxFlow) : State :=
  { s with ofp := { s.ofp with tx := s.ofp.tx.map (fun f => if f.key = k then g f else f) } }

/-- A packet of a flow is sent: for the first time or again. -/
def State.sendPacket (s : State) (f : TxFlow) (u : Unacked) : State :=
  if f.link.isNone then s
  else if f.resetting then (s.countFrame f.link).emit (.relay 9 f.key f.key.pkg u.seq 0 [] false)
  else
    match s.req? u.req with
    | none => s
    | some r =>
      match r.tr with
      | none => s
      | some t => (s.countFrame f.link).emit
          (.relay r.relayType f.key f.key.pkg u.seq (BitVec.ofNat 64 (t.ca + r.addr.toNat % 2 ^ t.lsize)) r.data r.poison)

/-- Packets that were sent again are counted. -/
def State.countRetx (s : State) (n : Nat) : State :=
  { s with ofp := { s.ofp with cntRetx := sat32 (s.ofp.cntRetx.toNat + n) } }

/-- A flow takes another link, and its packets without a report are sent again from the oldest one (R468). -/
def State.moveFlow (s : State) (f : TxFlow) : State :=
  let g : TxFlow := { f with link := s.chooseLink f.key }
  let s1 := s.putTx g
  if g.link.isNone ∨ g.paused then s1
  else (forAll g.unacked s1 (fun t u => t.sendPacket g u)).countRetx g.unacked.length

/-- The flows whose link is not up or not in their route any more move. -/
def State.moveFlows (s : State) : State :=
  forAll (s.ofp.tx.filter (fun f => match f.link with
    | some l => !(s.linksFor f.key).contains l
    | none => !(s.linksFor f.key).isEmpty)) s State.moveFlow

/-- Whether a sequence number is at or after another within a flow. -/
def seqFrom (a b : Word) : Bool := decide ((a - b).toNat < 2 ^ 31)

/-- The packet of a flow with a sequence number. -/
def TxFlow.packet (f : TxFlow) (seq : Word) : Option Unacked := f.unacked.find? (fun u => u.seq == seq)

/-! ## Packets received for requests of this HTU (R461 to R465) -/

/-- A FABRIC request that has been sent, with its translation. -/
def State.fabricReq (s : State) (id : Nat) : Option (Req × Trans) :=
  match s.req? id with
  | some r =>
    match r.tr with
    | some t => if t.cls = 7 ∧ (r.phase = .sent ∨ r.phase = .accepted) then some (r, t) else none
    | none => none
  | none => none

/-- RELAY_READRESP. -/
def State.readResp (s : State) (id : Nat) (data : List Byte) (poison : Bool) : State :=
  match s.fabricReq id with
  | none => s
  | some (r, _) =>
    if !r.rd ∨ r.wr ∨ data.length ≠ r.len then s
    else ((s.unackDrop id).completeRead r data (List.replicate r.len poison)).reqEnded r

def execRelayReadresp (id : Nat) (data : List Byte) (poison : Bool) (s : State) : Host.Outcome State Fault Refusal :=
  done (s.readResp id data poison)

/-- RELAY_ATOMRESP: the other package has performed the atomic. -/
def State.atomResp (s : State) (id : Nat) (old : DWord) : State :=
  match s.fabricReq id with
  | none => s
  | some (r, _) =>
    if !r.rd ∨ !r.wr then s
    else
      let s1 := s.unackDrop id
      let s2 := if r.queue.isSome then s1.seqHead r.ctx r.addr.toNat r.len else s1
      (s2.completeRead r (leBytes r.len old.toNat) (List.replicate r.len false)).reqEnded r

def execRelayAtomresp (id : Nat) (old : DWord) (s : State) : Host.Outcome State Fault Refusal := done (s.atomResp id old)

/-- One write of a flow is done: a write that this HTU forwards for another package is then acknowledged to it (R485). -/
def State.fabricDone (s : State) (u : Unacked) : State :=
  match s.fabricReq u.req with
  | none => s
  | some (r, t) =>
    let s1 := if r.phase = .sent then s.acceptWrite r t .ok else s
    let s2 := (s1.delReq r.id).reqEnded r
    match r.purpose with
    | .remoteWrite k seq _ _ => s2.emit (.relay 5 k k.pkg seq 0 [] false)
    | _ => s2

/-- Whether a packet waits for an ACK: it is a write. -/
def State.isWrite (s : State) (u : Unacked) : Bool :=
  match s.fabricReq u.req with
  | some (r, _) => r.wr && !r.rd
  | none => false

/-- RELAY_ACK: every write of the flow up to the highest done SEQ is done. -/
def State.relayAck (s : State) (k : FlowKey) (seq : Word) : State :=
  match s.txFlow? k with
  | none => s
  | some f =>
    if f.resetting then s
    else
      let hit := f.unacked.filter (fun u => seqFrom seq u.seq && s.isWrite u)
      let s1 := s.updTx k (fun g => { g with unacked := g.unacked.filter (fun u => !hit.contains u) })
      forAll hit s1 State.fabricDone

def execRelayAck (k : FlowKey) (seq : Word) (s : State) : Host.Outcome State Fault Refusal := done (s.relayAck k seq)

/-- RELAY_NACK: a queue's request fails; a device flow fails the request and every later one, and is reset. -/
def State.relayNack (s : State) (k : FlowKey) (seq : Word) (reason : Byte) : State :=
  match s.txFlow? k with
  | none => s
  | some f =>
    match f.packet seq with
    | none => s
    | some u =>
      if f.resetting then s
      else if !k.dev then s.fabricFail u.req Code.remoteNack reason
      else
        let hit := f.unacked.filter (fun x => seqFrom x.seq seq)
        (forAll hit s (fun t x => t.fabricFail x.req Code.remoteNack reason)).flowReset k

def execRelayNack (k : FlowKey) (seq : Word) (_code reason : Byte) (s : State) : Host.Outcome State Fault Refusal :=
  done (s.relayNack k seq reason)

/-- RELAY_RETRY: the flow pauses, and no report is awaited from its packet on. -/
def State.relayRetry (s : State) (k : FlowKey) (seq : Word) : State :=
  match s.txFlow? k with
  | none => s
  | some f =>
    if f.resetting ∨ (f.packet seq).isNone then s
    else s.updTx k (fun g => { g with
      paused := true
      unacked := g.unacked.map (fun u => if seqFrom u.seq seq then { u with retried := true } else u) })

def execRelayRetry (k : FlowKey) (seq : Word) (s : State) : Host.Outcome State Fault Refusal := done (s.relayRetry k seq)

/-- RELAY_RESUME: the flow is sent again from the packet on, and its 20 µs start again. -/
def State.relayResume (s : State) (k : FlowKey) (seq : Word) : State :=
  match s.txFlow? k with
  | none => s
  | some f =>
    if f.resetting ∨ !f.paused then s
    else
      let un := f.unacked.map (fun u =>
        if seqFrom u.seq seq then ({ u with retried := false, sent := s.now, resends := 0 } : Unacked) else u)
      let g : TxFlow := { f with paused := false, unacked := un }
      forAll (un.filter (fun u => seqFrom u.seq seq)) (s.putTx g) (fun t u => t.sendPacket g u)

def execRelayResume (k : FlowKey) (seq : Word) (s : State) : Host.Outcome State Fault Refusal := done (s.relayResume k seq)

/-- A FLOWRESET has been answered, or has failed (R466): a queue's flow has nothing more to wait for; a device flow takes
new requests. -/
def State.flowResetEnd (s : State) (k : FlowKey) : State :=
  if k.dev then (s.updTx k (fun g => { g with resetting := false, unacked := [], next := 0, paused := false })).relaunch
  else s.updTx k (fun g => { g with unacked := [] })

/-- RELAY_FLOWRESET_ACK. -/
def State.flowResetAck (s : State) (k : FlowKey) : State :=
  match s.txFlow? k with
  | some f => if f.resetting then s.flowResetEnd k else s
  | none => s

def execRelayFlowresetAck (k : FlowKey) (s : State) : Host.Outcome State Fault Refusal := done (s.flowResetAck k)

/-- RELAY_WRITE_RESEND: at 6 µs and at 12 µs (R465). -/
def State.writeResend (s : State) (k : FlowKey) (seq : Word) : State :=
  match s.txFlow? k with
  | none => s
  | some f =>
    match f.packet seq with
    | none => s
    | some u =>
      if u.retried ∨ u.resends ≥ 2 ∨ s.since u.sent < 6000 * (u.resends + 1) ∨ !(f.resetting || s.isWrite u) ∨
          f.link.isNone ∨ !s.runs Blk.ofp then s
      else
        let f1 (x : Unacked) : Unacked := if x.seq = seq then { x with resends := x.resends + 1 } else x
        ((s.updTx k (fun g => { g with unacked := g.unacked.map f1 })).sendPacket f u).countRetx 1

def execRelayWriteResend (k : FlowKey) (seq : Word) (s : State) : Host.Outcome State Fault Refusal := done (s.writeResend k seq)

/-- RELAY_REPORT_TIMEOUT: 20 µs without a report (R465). A read or an atomic fails then only where no route is up. -/
def State.reportTimeout (s : State) (k : FlowKey) (seq : Word) : State :=
  match s.txFlow? k with
  | none => s
  | some f =>
    match f.packet seq with
    | none => s
    | some u =>
      let cut := (s.routeUp k.pkg).isEmpty
      if u.retried ∨ s.since u.sent < 20000 then s
      else if f.resetting then s.flowResetEnd k
      else if !(s.isWrite u || cut) then s
      else
        let s1 : State := if s.isWrite u then { s with ofp := { s.ofp with cntNorpt := satInc s.ofp.cntNorpt } } else s
        s1.fabricFail u.req (if cut then Code.partitioned else Code.remoteNack) (if cut then 0 else Rsn.noReport)

def execRelayReportTimeout (k : FlowKey) (seq : Word) (s : State) : Host.Outcome State Fault Refusal :=
  done (s.reportTimeout k seq)

/-! ## Requests received from other packages (R461 to R467) -/

/-- Flows whose state an ingress keeps. -/
def flowMax : Nat := 65536

/-- Whether two keys name the same queue or device flow under some GEN. -/
def sameFlow (a b : FlowKey) : Bool := a.pkg == b.pkg && a.dev == b.dev && a.ctx == b.ctx && a.queue == b.queue

/-- A packet reaches the ingress: whether it is accepted, and the state with what the flow keeps and answers. A flow's
first packet sets the SEQ that it counts from. -/
def State.rxAccept (s : State) (k : FlowKey) (seq : Word) (wr : Bool) : Bool × State :=
  let older := s.ofp.rx.filter (fun x => !(sameFlow x.key k && decide (x.key.gen.toNat < k.gen.toNat)))
  let s0 : State := { s with ofp := { s.ofp with rx := older } }
  match older.find? (fun x => x.key == k) with
  | some x =>
    if x.next ≠ seq ∨ x.retried.isSome then (false, s0)
    else
      let f (y : RxFlow) : RxFlow := if y.key = k then { y with next := seq + 1, idleAt := s.now } else y
      let s1 : State := { s0 with ofp := { s0.ofp with rx := older.map f } }
      if x.refusing && wr then (false, s1.nackFlow k seq Code.remoteNack Rsn.remoteWrite) else (true, s1)
  | none =>
    if older.any (fun x => sameFlow x.key k) then (false, s0)
    else if older.length ≥ flowMax then
      (false, ({ s0 with ofp := { s0.ofp with rxWait := addTo s0.ofp.rxWait (k, seq) } } : State).emit (.relay 7 k k.pkg seq 0 [] false))
    else (true, { s0 with ofp := { s0.ofp with rx := older ++ [{ key := k, next := seq + 1, idleAt := s.now }] } })

/-- The bound virtual device of a system virtual-device ID. -/
def State.svdev (s : State) (svdid : Word) : Option Vdix :=
  (s.bnd.vdevs.find? (fun e => e.2.vv && e.2.st == .bound && e.2.grant.svdid == svdid)).map (fun e => BitVec.ofNat 8 e.1)

/-- A packet for another package goes on, where it may (R467, R468). -/
def State.forward (s : State) (typ : Byte) (k : FlowKey) (dst : PkgId) (seq : Word) (info : DWord) (data : List Byte)
    (poison : Bool) (hops : Nat) : State :=
  let link := State.chooseFrom k (s.routeUp dst)
  if hops = 0 ∨ link.isNone ∨ !s.runs Blk.ofp then s
  else (s.countFrame link).emit (.relay typ k dst seq info data poison)

/-- A Relay request of another package: forwarded, or accepted in SEQ order and translated by stage 2 (R44, R462, R463). -/
def State.relayRequest (s : State) (l : OLink) (dst : PkgId) (k : FlowKey) (seq svdid : Word) (ca : BitVec 56) (len : Nat)
    (typ : Byte) (p : Purpose) (data : List Byte) (poison : Bool) (hops : Nat) : State :=
  if !s.relayIn l ∨ len = 0 ∨ len > 4096 - ca.toNat % 4096 then s
  else if s.ofp.pkg ≠ some dst then s.forward typ k dst seq (ca.zeroExtend 64) data poison hops
  else
    let wr := typ ≠ 1
    let a := s.rxAccept k seq (typ == 0)
    if !a.1 then a.2
    else
      match s.svdev svdid with
      | none => a.2.nackFlow k seq Code.remoteNack Rsn.remoteXlate
      | some v =>
        let n := a.2.newId
        n.2.addReq { id := n.1, who := .fabric l, ctx := k.ctx, s2only := some v, addr := ca.zeroExtend 64, len := len,
                     rd := typ ≠ 0, wr := wr, purpose := p, poison := poison, started := s.now }

/-- RELAY_WRITE_RECEIVE. -/
def execRelayWriteReceive (l : OLink) (dst : PkgId) (k : FlowKey) (seq svdid : Word) (ca : BitVec 56) (data : List Byte)
    (poison : Bool) (hops : BitVec 3) (s : State) : Host.Outcome State Fault Refusal :=
  done (s.relayRequest l dst k seq svdid ca data.length 0 (.remoteWrite k seq data poison) data poison hops.toNat)

/-- RELAY_READ_RECEIVE. -/
def execRelayReadReceive (l : OLink) (dst : PkgId) (k : FlowKey) (seq svdid : Word) (ca : BitVec 56) (len : Nat) (hops : BitVec 3)
    (s : State) : Host.Outcome State Fault Refusal :=
  done (s.relayRequest l dst k seq svdid ca len 1 (.remoteRead k seq) [] false hops.toNat)

/-- RELAY_ATOMIC_RECEIVE: 4 B or 8 B. -/
def execRelayAtomicReceive (l : OLink) (dst : PkgId) (k : FlowKey) (seq svdid : Word) (ca : BitVec 56) (op : BitVec 3)
    (wide sg : Bool) (b cmp : DWord) (hops : BitVec 3) (s : State) : Host.Outcome State Fault Refusal :=
  done (s.relayRequest l dst k seq svdid ca (if wide then 8 else 4) 3 (.remoteAtom k seq op sg b cmp)
    (leBytes 8 b.toNat ++ leBytes 8 cmp.toNat) false hops.toNat)

/-- The first flow that waits for an entry of the ingress is told to come again (R466). -/
def State.rxFreed (s : State) : State :=
  match s.ofp.rxWait with
  | [] => s
  | (k, seq) :: rest => ({ s with ofp := { s.ofp with rxWait := rest } } : State).emit (.relay 8 k k.pkg seq 0 [] false)

/-- RELAY_FLOWRESET: the flow's entry and its refusal go, and the reset is answered. -/
def State.flowResetIn (s : State) (l : OLink) (k : FlowKey) : State :=
  if !s.relayIn l then s
  else
    let had := s.ofp.rx.any (fun x => x.key == k)
    let s1 : State := { s with ofp := { s.ofp with rx := s.ofp.rx.filter (fun x => x.key != k) } }
    let s2 := if had then s1.rxFreed else s1
    s2.emit (.relay 10 k k.pkg 0 0 [] false)

def execRelayFlowreset (l : OLink) (k : FlowKey) (s : State) : Host.Outcome State Fault Refusal := done (s.flowResetIn l k)

/-- FLOW_ENTRY_IDLE_FREE: 1 ms without a packet and no refusal pending. -/
def State.flowIdle (s : State) (k : FlowKey) : State :=
  match s.ofp.rx.find? (fun x => x.key == k) with
  | none => s
  | some x =>
    if x.refusing ∨ x.retried.isSome ∨ s.since x.idleAt < 1000000 then s
    else ({ s with ofp := { s.ofp with rx := s.ofp.rx.filter (fun y => y.key != k) } } : State).rxFreed

def execFlowEntryIdleFree (k : FlowKey) (s : State) : Host.Outcome State Fault Refusal := done (s.flowIdle k)

/-! ## Links come and go (R459, R460, R468) -/

/-- OPTICAL_LINK_DOWN. -/
def State.olinkDown (s : State) (l : OLink) : State :=
  if (s.olink l).st = .down then s
  else (s.updOlink l (fun x => { x with st := .down, lanes := 0, frames := 0, oldKey := false })).moveFlows

def execOpticalLinkDown (l : OLink) (s : State) : Host.Outcome State Fault Refusal := done (s.olinkDown l)

/-- WAVELENGTH_LOSS: a link with none left is DOWN. -/
def State.laneLoss (s : State) (l : OLink) (n : BitVec 4) : State :=
  let x := s.olink l
  if !(x.carries || x.st == .ethUp) ∨ n.toNat ≥ x.lanes.toNat then s
  else if n = 0 then s.olinkDown l
  else s.updOlink l (fun y => { y with lanes := n, st := if y.st = .ethUp then .ethUp else .degraded })

def execWavelengthLoss (l : OLink) (lanes : BitVec 4) (s : State) : Host.Outcome State Fault Refusal := done (s.laneLoss l lanes)

/-- RELAY_LINK_TRAINED. -/
def State.olinkTrained (s : State) (l : OLink) (n : BitVec 4) : State :=
  let x := s.olink l
  if s.olinkMode l ≠ 1 ∨ !s.olinkExists l ∨ !(x.st = .down || x.st = .training) ∨ n = 0 ∨ n.toNat > s.olinkFull l then s
  else s.updOlink l (fun y => { y with st := .attesting, lanes := n, keyWait := false })

def execRelayLinkTrained (l : OLink) (lanes : BitVec 4) (s : State) : Host.Outcome State Fault Refusal :=
  done (s.olinkTrained l lanes)

/-- ATTESTATION_DONE: a session with fresh keys begins, and flows without a link take this one where their route names it;
the key exchange waits while the entropy source is unavailable (R526). -/
def State.attested (s : State) (l : OLink) (r : PassFail) : State :=
  let x := s.olink l
  if x.st ≠ .attesting then s
  else
    match r with
    | .fail => s.raise { src := Src.ofpAttestFail l.toNat }
    | .pass =>
      if !s.sec.fuses then s
      else if !s.sec.entropy then s.updOlink l (fun y => { y with keyWait := true })
      else
        let lap := s.lapStored true l.toNat
        (s.updOlink l (fun y => { y with
          st := if y.lanes.toNat < s.olinkFull l then .degraded else .up
          txLap := lap
          frames := 0
          keyUpdates := 0
          oldKey := false
          keyWait := false
          updWait := false })).moveFlows

def execAttestationDone (l : OLink) (r : PassFail) (s : State) : Host.Outcome State Fault Refusal := done (s.attested l r)

/-- RELAY_CONTROL: the link partner's new lap; the keys of both phases are kept for now (R530, R534). -/
def State.controlIn (s : State) (l : OLink) (lap : Word) : State :=
  if !(s.olink l).carries then s
  else s.updOlink l (fun x => { x with rxLap := lap, oldKey := true, oldKeyAt := s.now })

def execRelayControl (l : OLink) (lap : Word) (s : State) : Host.Outcome State Fault Refusal := done (s.controlIn l lap)

/-- KEY_PHASE_OLD_EXPIRE. -/
def State.oldKeyEnd (s : State) (l : OLink) : State :=
  let x := s.olink l
  if !x.oldKey ∨ s.since x.oldKeyAt < 100000 then s else s.updOlink l (fun y => { y with oldKey := false })

def execKeyPhaseOldExpire (l : OLink) (s : State) : Host.Outcome State Fault Refusal := done (s.oldKeyEnd l)

/-- LINK_KEY_UPDATE: the frame counter starts again under a new key (R530); it waits while the entropy source is unavailable. -/
def State.linkKeyUpdate (s : State) (l : OLink) : State :=
  if !(s.olink l).carries then s
  else if !s.sec.entropy then s.updOlink l (fun x => { x with updWait := true })
  else (s.updOlink l (fun x => { x with frames := 0, keyUpdates := x.keyUpdates + 1, updWait := false })).emit (.keyUpdate l.toNat)

def execLinkKeyUpdate (l : OLink) (s : State) : Host.Outcome State Fault Refusal := done (s.linkKeyUpdate l)

/-- Power domains of a port's link logic, its island, and its four link numbers. -/
def ofpDomains (p : Nat) : List Nat := [448 + 3 * p, 449 + 3 * p, 450 + 3 * p]
def ofpIsland (p : Nat) : Nat := 74 + p
def portLinks (p : Nat) : List OLink := (rangeFrom (4 * p) 4).map (BitVec.ofNat 6)

/-- OFP_PORT_CFG_WRITE: a change retrains the port's links, and a port that is off has its domains off (R493, R593). -/
def State.ofpPortCfg (s : State) (who : Who) (p : BitVec 4) (v : Nat) : State :=
  let ok : Bool := match who with
    | .core _ => true
    | _ => false
  let mode := fld v 1 0
  let split := fld v 3 2
  let bad := decide (mode = 3 ∨ split = 3 ∨ (mode = 2 ∧ split ≠ 1))
  s.writeBy (ok && !bad) who .ofpPortCfg [p.toNat] (fun t =>
    if t.rf .ofpPortCfg 3 0 [p.toNat] = fld v 3 0 then t
    else
      let t1 := t.putReg .ofpPortCfg [p.toNat] (fld v 3 0)
      let t2 := forAll (ofpDomains p.toNat) t1 (fun u d => u.setDomain d (decide (mode ≠ 0)))
      let on := decide (mode ≠ 0) && t2.islandOn (ofpIsland p.toNat)
      let next (l : OLink) (x : OLinkSt) : OLinkSt :=
        { x with st := if t2.olinkExists l ∧ on then .training else .down, lanes := 0, frames := 0, oldKey := false }
      (forAll (portLinks p.toNat) t2 (fun u l => u.updOlink l (next l))).moveFlows)

def execOfpPortCfgWrite (who : Who) (p : BitVec 4) (v : Word) (s : State) : Host.Outcome State Fault Refusal :=
  done (s.ofpPortCfg who p v.toNat)

/-- ROUTE_TABLE_UPDATE: at most 4 links and 6 hops to a package. -/
def State.routeUpdate (s : State) (dst : PkgId) (links : List OLink) (hops : BitVec 3) : State :=
  s.byAuthority (fun t =>
    if links.length > 4 ∨ hops.toNat > 6 then t.emit (.mgtRefuse Why.missing)
    else ({ t with ofp := { t.ofp with routes := t.ofp.routes.put dst.toNat (links, hops) } } : State).moveFlows)

def execRouteTableUpdate (dst : PkgId) (links : List OLink) (hops : BitVec 3) (s : State) : Host.Outcome State Fault Refusal :=
  done (s.routeUpdate dst links hops)

/-- PACKAGE_INDEX_ASSIGN. -/
def execPackageIndexAssign (idx : PkgId) (s : State) : Host.Outcome State Fault Refusal :=
  done (s.byAuthority (fun t => { t with ofp := { t.ofp with pkg := some idx } }))

/-! ## Time (R472) -/

/-- The fault of holdover beyond 100 s is active or not. -/
def State.unsyncSet (s : State) (on : Bool) : State :=
  ({ s with ofp := { s.ofp with unsync := on } } : State).condFault { src := Src.ofpTimeUnsync } on

/-- RELAY_PTP: within ±50 ns the HTU is locked; the time base steps only at the first lock after a die reset. -/
def State.ptpIn (s : State) (l : OLink) (offset : BitVec 16) (gm : Bool) (step : DWord) : State :=
  if !(s.olink l).carries then s
  else
    let lock := decide (offset.toNat ≤ 50)
    let s1 : State := { s with
      now := if lock ∧ !s.ofp.everLocked then s.now + step else s.now
      ofp := { s.ofp with
        offset := offset
        gm := gm
        locked := lock
        everLocked := s.ofp.everLocked || lock
        holdover := false } }
    s1.unsyncSet false

def execRelayPtp (l : OLink) (offset : BitVec 16) (gm : Bool) (step : DWord) (s : State) : Host.Outcome State Fault Refusal :=
  done (s.ptpIn l offset gm step)

/-- PTP_SYNC_LOST: holdover begins. -/
def State.ptpLost (s : State) : State :=
  if s.ofp.holdover ∨ !s.ofp.everLocked then s
  else { s with ofp := { s.ofp with holdover := true, locked := false, holdAt := s.now } }

def execPtpSyncLost (s : State) : Host.Outcome State Fault Refusal := done s.ptpLost

/-! ## Ethernet and RoCEv2 (R469, R470) -/

/-- ETHERNET_LINK_UP. -/
def State.ethUp (s : State) (l : OLink) : State :=
  let x := s.olink l
  if s.olinkMode l ≠ 2 ∨ !s.olinkExists l ∨ !(x.st = .down || x.st = .training) then s
  else s.updOlink l (fun y => { y with st := .ethUp, lanes := 4, pauseTill := 0 })

def execEthernetLinkUp (l : OLink) (s : State) : Host.Outcome State Fault Refusal := done (s.ethUp l)

/-- Requests that wait for an answer from a connection. -/
def State.roceOut (s : State) (slot : Nat) : List (Nat × Req × Trans) :=
  s.reqs.filterMap (fun r => match r.tr with
    | some t => if t.cls = 9 ∧ r.phase = .sent ∧ fld t.idx.toNat 15 0 = slot then some (r.id, r, t) else none
    | none => none)

/-- A connection changed. -/
def State.updConn (s : State) (slot : Nat) (f : Conn → Conn) : State :=
  { s with ofp := { s.ofp with conns := s.ofp.conns.upd slot f } }

/-- ROCE_RESPONSE: an acknowledgement is a write's acceptance (R329); a response carries the data of a read or an atomic. -/
def State.roceResponse (s : State) (id : Nat) (data : List Byte) : State :=
  match s.req? id with
  | none => s
  | some r =>
    match r.tr with
    | none => s
    | some t =>
      if t.cls ≠ 9 ∨ r.phase ≠ .sent then s
      else
        let s1 := s.updConn (fld t.idx.toNat 15 0) (fun c => { c with tries := 0 })
        if !r.rd then s1.acceptWrite r t .ok
        else if data.length ≠ r.len then s
        else
          let s2 := if r.wr ∧ r.queue.isSome then s1.seqHead r.ctx r.addr.toNat r.len else s1
          (s2.completeRead r data (List.replicate r.len false)).reqEnded r

def execRoceResponse (id : Nat) (data : List Byte) (s : State) : Host.Outcome State Fault Refusal := done (s.roceResponse id data)

/-- A connection enters the error state: what is in progress fails, and the firmware makes it again with the next
generation. -/
def State.connError (s : State) (slot : Nat) : State :=
  if (s.ofp.conns.look slot).isNone then s
  else
    let s1 := forAll (s.roceOut slot) s (fun u x =>
      ((u.failReq x.1 Code.remoteNack Rsn.remoteWrite).reqEnded x.2.1).raise
        (x.2.1.praFault x.2.2 Src.roceFail Rsn.remoteWrite Code.remoteNack))
    s1.updConn slot (fun c => { c with gen := c.gen + 1, tries := 0, cuts := 0 })

def execRoceConnectionError (conn : BitVec 16) (s : State) : Host.Outcome State Fault Refusal := done (s.connError conn.toNat)

/-- ROCE_RETRY_TIMEOUT: the requests without an answer are sent again, up to the retry limit. -/
def State.roceRetry (s : State) (slot : Nat) : State :=
  match s.ofp.conns.look slot with
  | none => s
  | some c =>
    if (s.roceOut slot).isEmpty then s
    else if c.tries ≥ Config.roceRetryLimit then s.connError slot
    else forAll (s.roceOut slot) (s.updConn slot (fun x => { x with tries := x.tries + 1 })) (fun t x => t.emit (.roce slot x.1))

def execRoceRetryTimeout (conn : BitVec 16) (s : State) : Host.Outcome State Fault Refusal := done (s.roceRetry conn.toNat)

/-- ROCE_CONNECTION_CREATE: a slot in use is made again with the next generation. -/
def State.connCreate (s : State) (slot : Nat) (l : OLink) : State :=
  s.byAuthority (fun t =>
    if t.olinkMode l ≠ 2 ∨ !t.olinkExists l then t.emit (.mgtRefuse Why.missing)
    else if (t.ofp.conns.look slot).isSome then (t.connError slot).updConn slot (fun c => { c with link := l })
    else { t with ofp := { t.ofp with conns := t.ofp.conns.put slot { link := l } } })

def execRoceConnectionCreate (slot : BitVec 16) (link : OLink) (s : State) : Host.Outcome State Fault Refusal :=
  done (s.connCreate slot.toNat link)

/-- ROCE_INBOUND_REQUEST. -/
def execRoceInboundRequest (l : OLink) (s : State) : Host.Outcome State Fault Refusal :=
  done (if (s.olink l).st = .ethUp then s.emit (.roceNak l.toNat) else s)

/-- CONGESTION_NOTIFICATION: DCQCN reduces the connection's rate; by how much is not stated, and rates are not modelled. -/
def execCongestionNotification (conn : BitVec 16) (s : State) : Host.Outcome State Fault Refusal :=
  done (s.updConn conn.toNat (fun c => { c with cuts := c.cuts + 1 }))

/-- PFC_PAUSE_FRAME: quanta of 512 bit times at 800 Gb/s, 0.64 ns each (IEEE 802.3; PRESUMED, notes/assumptions/41);
0 ends a pause. -/
def State.pfcPause (s : State) (l : OLink) (quanta : Nat) : State :=
  if (s.olink l).st ≠ .ethUp then s
  else
    let s1 := s.updOlink l (fun x => { x with pauseTill := s.after ((quanta * 16 + 24) / 25) })
    if quanta = 0 then s1.relaunch else s1

def execPfcPauseFrame (l : OLink) (quanta : BitVec 16) (s : State) : Host.Outcome State Fault Refusal :=
  done (s.pfcPause l quanta.toNat)

/-- ARP_ND_LLDP_FRAME: the firmware answers through a control core that runs; what its answer holds is not stated. -/
def State.ethFrame (s : State) (l : OLink) (frame : List Byte) : State :=
  if (s.olink l).st ≠ .ethUp ∨ s.icu.cores.all Core.held then s
  else
    let r := s.drawBytes frame.length
    r.2.emit (.frame l.toNat r.1)

def execArpNdLldpFrame (l : OLink) (frame : List Byte) (s : State) : Host.Outcome State Fault Refusal := done (s.ethFrame l frame)

end Sys2Proof.Machine
end

