-- ==== Sys2Proof/Machine/Bnd.lean ====
section
/-! DEFINITION. Virtual devices that span packages (R473 to R492): binding, capacity added and removed, leases, fences,
page moves, tile drains, aborts of a member. -/

namespace Sys2Proof.Machine

/-! ## Grants (R473, R474) -/

/-- Whether two ranges share a member. -/
def rangesClash (a n b m : Nat) : Bool := decide (0 < n ∧ 0 < m ∧ a < b + m ∧ b < a + n)

/-- Whether two grants of a package name a resource in common. -/
def grantsClash (a b : Grant) : Bool :=
  rangesClash a.stgBase.toNat a.stgSize.toNat b.stgBase.toNat b.stgSize.toNat ||
  rangesClash a.lkBase.toNat a.lkCount.toNat b.lkBase.toNat b.lkCount.toNat ||
  rangesClash a.rcBase.toNat a.rcCount.toNat b.rcBase.toNat b.rcCount.toNat ||
  rangesClash a.flBase.toNat a.flCount.toNat b.flBase.toNat b.flCount.toNat ||
  decide (a.tiles &&& b.tiles ≠ 0) ||
  (List.zipWith (fun (x y : BitVec 7 × BitVec 7) => rangesClash x.1.toNat x.2.toNat y.1.toNat y.2.toNat) a.hbm b.hbm).any id

/-- Whether a granted resource of this package does not exist. -/
def State.grantMissing (s : State) (g : Grant) : Bool :=
  decide (g.stgBase.toNat + g.stgSize.toNat > 3072) ||
  decide (g.lkBase.toNat + g.lkCount.toNat > 4096) ||
  decide (g.rcBase.toNat + g.rcCount.toNat > 65536) ||
  decide (0 < g.flCount.toNat ∧ g.flBase.toNat + g.flCount.toNat > s.ftcCap) ||
  decide (g.hbm.length > 16) ||
  ((rangeFrom 0 16).zip g.hbm).any (fun p =>
    decide (0 < p.2.2.toNat ∧ p.2.1.toNat + p.2.2.toNat > ((s.ddl.hbm.look p.1).getD 0).toNat)) ||
  (rangeFrom 0 256).any (fun n => g.tiles.toNat.testBit n && decide (n % 32 ≥ (match s.ddl.tiles.look (n / 32) with
    | some t => t.1.toNat
    | none => 0)))

/-- Whether a resource is already granted, to another virtual device than one named. -/
def State.grantTaken (s : State) (g : Grant) (but : Option Nat) : Bool :=
  s.bnd.vdevs.any (fun e => e.2.st != .free && some e.1 != but && grantsClash e.2.grant g)

/-- The virtual device of a system virtual-device ID, in any state but FREE. -/
def State.vdevNamed (s : State) (svdid : Word) : Option Vdix :=
  (s.bnd.vdevs.find? (fun e => e.2.st != .free && e.2.grant.svdid == svdid)).map (fun e => BitVec.ofNat 8 e.1)

/-- Contexts of a virtual device. -/
def State.vdevCtxs (s : State) (v : Vdix) : List CtxId :=
  (s.ctxs.filter (fun e => e.2.vdix == v)).map (fun e => BitVec.ofNat 14 e.1)

/-- Pinned contexts of a virtual device. -/
def State.vdevPins (s : State) (v : Vdix) : Nat := (s.ctxs.filter (fun e => e.2.vdix == v && e.2.pin)).length

/-- The members of a virtual device other than this package. -/
def State.others (s : State) (g : Grant) : List PkgId := g.members.filter (fun p => some p != s.ofp.pkg)

/-- The flow key under which BND's own messages to a package are shown. -/
def bndKey (p : PkgId) : FlowKey := { pkg := p, dev := true, ctx := 0, gen := 0, queue := 0 }

/-- A message of BND to another package, where a route to it is up: a binding step, or a change of home. -/
def State.tell (s : State) (p : PkgId) (svdid : Word) (what : Nat) : State :=
  if (s.routeUp p).isEmpty then s
  else s.emit (.relay 13 (bndKey p) p svdid (BitVec.ofNat 64 what) [] false)

/-! ## Binding (R473, R495, R548, R154) -/

/-- Whether the die has an operator anchor (R548). -/
def State.claimed (s : State) : Bool := (s.sec.anchors.look 0).isSome || (s.sec.anchors.look 1).isSome

/-- Virtual devices that a member can hold. -/
def vdevMax : Nat := 256

/-- Whether a lock grant includes the firmware's locks, 4,032 to 4,095 (R513). -/
def grantLocksReserved (g : Grant) : Bool := decide (0 < g.lkCount.toNat ∧ 4032 < g.lkBase.toNat + g.lkCount.toNat)

/-- Why a member refuses a grant. -/
def State.bindRefusal (s : State) (g : Grant) : Option Nat :=
  if s.rpc.quar then some Why.quarantine
  else if !s.claimed then some Why.state
  else if (s.bnd.vdevs.filter (fun e => e.2.st != .free)).length ≥ vdevMax then some Why.bindingLimit
  else if (s.vdevNamed g.svdid).isSome || s.grantTaken g none then some Why.granted
  else if s.grantMissing g then some Why.missing
  else if grantLocksReserved g then some Why.lockReserved
  else if g.slots = 0 then some Why.slotsPinned
  else if s.tstFree = 0 then some Why.noRoom
  else none

/-- A member prepares: the lowest free VDIX, the grant and a stage-2 root are reserved. -/
def State.prepare (s : State) (g : Grant) : State :=
  let v := firstGap s.bnd.vdevs 0
  let r := s.allocFrame (if g.s2d then 3 else 4) true false none
  r.2.updVdev (BitVec.ofNat 8 v) (fun _ =>
    { st := .prepared, s2root := BitVec.ofNat 19 r.1, grant := { g with isHome := decide (s.ofp.pkg = some g.home) } })

/-- Whether this package can bind: PTP has locked and it has its index (R495). -/
def State.canBind (s : State) : Bool := s.ofp.pkg.isSome && s.ofp.everLocked

/-- A grant reaches this member. The home sends PREPARE to the others, or ABORT where it refuses itself; a refusal and its
reason reach the operator. -/
def State.bindTake (s : State) (g : Grant) : State :=
  if !s.runs Blk.bnd then { s with bnd := { s.bnd with bindWait := s.bnd.bindWait ++ [g] } }
  else
    let home := decide (s.ofp.pkg = some g.home)
    match s.bindRefusal g with
    | some why => s.emit (.mgtRefuse why)
    | none =>
      let s1 := s.prepare g
      if home then forAll (s.others g) s1 (fun t p => t.tell p g.svdid 1) else s1

/-- BIND: at the home. -/
def execBind (g : Grant) (s : State) : Host.Outcome State Fault Refusal :=
  done (if s.canBind ∧ s.ofp.pkg = some g.home then s.byAuthority (fun t => t.bindTake g) else s)

/-- BIND_PREPARE: at another member. -/
def execBindPrepare (g : Grant) (s : State) : Host.Outcome State Fault Refusal :=
  done (if s.canBind ∧ s.ofp.pkg ≠ some g.home then s.bindTake g else s)

/-- Whether a function has a control context. -/
def State.hasCtl (s : State) (f : FnId) : Bool := s.ctxs.any (fun e => e.2.ctl && e.2.func == f && e.2.teardown == .none)

/-- The firmware makes a function's control context in a virtual device, with queue 0 and a ring of 4,096 words at a DVA
in the first 2 MiB of the staging grant (R154). -/
def State.ctlCreate (s : State) (v : Vdix) (c : CtxId) (ring : DWord) : State :=
  let d := s.vdev v
  let f := d.grant.func
  if s.hasCtl f || (s.ctx? c).isSome || decide (ring.toNat % 0x200000 ≠ 0 ∨ ring.toNat ≥ 2 ^ 47 ∨ d.grant.stgSize = 0 ∨ s.tstFree < 8) then s
  else
    let r := s.allocFrame 4 false false none
    let k := r.2.draw
    let new : Ctx :=
      { vdix := v
        func := f
        gen := (s.sec.gens.look c.toNat).getD 0
        lap := s.lapStored false c.toNat
        s1root := BitVec.ofNat 19 r.1
        ctl := true
        cookie := k.1 }
    let s1 : State := { k.2 with ctxs := k.2.ctxs.put c.toNat new }
    let base : PTE := Pte.set (Pte.set (Pte.set 0 0 0 1) 1 1 1) 4 2 2
    let e1 := Pte.set (Pte.set (Pte.set (Pte.set base 5 5 1) 6 6 1) 9 9 1) 59 16 (ring.toNat / 4096)
    let e2 := Pte.set (Pte.setPra (Pte.set (Pte.set base 5 5 1) 6 6 1) 1 0 (d.grant.stgBase.toNat * 0x200000)) 29 16 c.toNat
    let s2 := (s1.tblLeaf false c.toNat r.1 4 ring.toNat e1).2
    let s3 := (s2.tblLeaf true v.toNat d.s2root.toNat (if d.grant.s2d then 3 else 4) ring.toNat e2).2
    match s3.stagingPages c ring.toNat 32 with
    | none => s
    | some ps =>
      let q : Queue := { state := .active, rdva := ring, ring := ps, lsize := 12 }
      (s3.updQ c 0 (fun _ => q)).updVdev v (fun x => { x with ctl := some (c, ring) })

/-- BIND_COMMIT: the member is bound; the home sends COMMIT to the others. `ctl` and `ring` are what the firmware chooses
for the control context, where the function needs one. -/
def State.bindCommit (s : State) (svdid : Word) (ctl : CtxId) (ring : DWord) : State :=
  match s.vdevNamed svdid with
  | none => s
  | some v =>
    let d := s.vdev v
    if d.st ≠ .prepared then s
    else
      let s1 := s.updVdev v (fun x => { x with st := .bound, vv := true, lastLease := s.now })
      let s2 := if d.grant.isHome then forAll (s.others d.grant) s1 (fun t p => t.tell p svdid 2) else s1
      s2.ctlCreate v ctl ring

def execBindCommit (svdid : Word) (ctl : CtxId) (ring : DWord) (s : State) : Host.Outcome State Fault Refusal :=
  done (s.bindCommit svdid ctl ring)

/-- BIND_ABORT: what was reserved is released. -/
def State.bindAbort (s : State) (svdid : Word) : State :=
  match s.vdevNamed svdid with
  | none => s
  | some v =>
    let d := s.vdev v
    if d.st ≠ .prepared then s
    else
      let s1 := s.freeTree d.s2root.toNat
      let s2 : State := { s1 with bnd := { s1.bnd with vdevs := s1.bnd.vdevs.del v.toNat } }
      if d.grant.isHome then forAll (s.others d.grant) s2 (fun t p => t.tell p svdid 3) else s2

def execBindAbort (svdid : Word) (s : State) : Host.Outcome State Fault Refusal := done (s.bindAbort svdid)

/-- A bound or fenced virtual device begins to be unbound (R476). -/
def State.unbindVdev (s : State) (v : Vdix) : State :=
  let s1 := s.updVdev v (fun x => { x with st := .unbinding })
  let s2 : State := { s1 with bnd := { s1.bnd with moves := s1.bnd.moves.filter (fun m => m.vdix != v) } }
  (forAll (s2.vdevCtxs v) s2 State.tearDown).vdevCheck v

/-- UNBIND: the home tells the other members, to whom it comes without a session. -/
def State.unbind (s : State) (svdid : Word) : State :=
  match s.vdevNamed svdid with
  | none => s
  | some v =>
    let d := s.vdev v
    if d.st ≠ .bound ∧ d.st ≠ .fenced then s
    else if d.grant.isHome then
      s.byAuthority (fun t => (forAll (t.others d.grant) t (fun u p => u.tell p svdid 4)).unbindVdev v)
    else s.unbindVdev v

def execUnbind (svdid : Word) (s : State) : Host.Outcome State Fault Refusal := done (s.unbind svdid)

/-- Locks of a range become FREE: their range is no longer granted. -/
def State.freeLocks (s : State) (base n : Nat) : State :=
  { s with lkt := { s.lkt with locks := s.lkt.locks.filter (fun e => !(decide (base ≤ e.1 ∧ e.1 < base + n))) } }

/-- HBM of a grant waits for scrubbing, GiB by GiB (R476, R478, R488). -/
def State.scrubGrant (s : State) (v : Vdix) (hbm : List (BitVec 7 × BitVec 7)) : State :=
  let pages := ((rangeFrom 0 16).zip hbm).flatMap (fun p => (rangeFrom p.2.1.toNat p.2.2.toNat).map (fun g =>
    ({ chan := p.1, page := g * 2 ^ 18, lsize := 30, vdix := v } : Scrub)))
  { s with sec := { s.sec with scrub := s.sec.scrub ++ pages } }

/-- The sweep of released on-die memory: lines of the named part are unowned, and no data changes (R524). -/
def State.unown (s : State) (part : Nat → Bool) : State :=
  let clear (e : Nat × LineMeta) : Nat × LineMeta := if part (e.1 * 64) then (e.1, { e.2 with tag := 0, owned := false }) else e
  { s with mem := { s.mem with lines := (s.mem.lines.map clear).filter (fun e => e.2 != {}) } }

/-- Whether an SMS address lies in a grant's staging windows. -/
def inStaging (g : Grant) (a : Nat) : Bool :=
  decide (stagingBase + g.stgBase.toNat * 0x200000 ≤ a ∧ a < stagingBase + (g.stgBase.toNat + g.stgSize.toNat) * 0x200000)

/-- Whether an SMS address lies in a tier-cache page that leaves map. -/
def inTierLeaves (xs : List (Nat × Nat × PTE)) (a : Nat) : Bool :=
  xs.any (fun x => Pte.ts x.2.2 == Ts.mapped && Pte.cls x.2.2 == 2 &&
    decide (tierBase + Pte.offpn x.2.2 * 4096 ≤ a ∧ a < tierBase + Pte.offpn x.2.2 * 4096 + 2 ^ Pte.lsize x.2.2))

/-- A virtual device's translations are invalidated (R476, R478): its pages are released; one that is fenced keeps its
entry without resources, one that is unbound is FREE, and its control context moves to the next one (R154). -/
def State.vdevGone (s : State) (v : Vdix) : State :=
  let d := s.vdev v
  let local_ (e : PTE) : Bool := Pte.cls e == 1 || Pte.cls e == 2 || Pte.cls e == 3 || Pte.cls e == 6 || Pte.cls e == 0x0A
  let leaves := s.leavesOf d.s2root.toNat
  let swept := s.unown (fun a => inStaging d.grant a || inTierLeaves leaves a)
  if d.st = .fenced then
    let r := swept.releaseAll v none (leaves.filter (fun x => local_ x.2.2))
    let s1 := ((r.2.releasedDone { r.1 with hbm := [] }).scrubGrant v d.grant.hbm).freeLocks d.grant.lkBase.toNat d.grant.lkCount.toNat
    s1.updVdev v (fun x => { x with removing := none, adding := [], grant := { x.grant with
      stgSize := 0, lkCount := 0, rcCount := 0, flCount := 0, tiles := 0, hbm := [] } })
  else if d.st = .unbinding then
    let r := swept.releaseAll v none leaves
    let s1 := ((r.2.releasedDone { r.1 with hbm := [] }).scrubGrant v d.grant.hbm).freeLocks d.grant.lkBase.toNat d.grant.lkCount.toNat
    let s2 := s1.freeTree d.s2root.toNat
    let s3 : State := { s2 with bnd := { s2.bnd with
      vdevs := s2.bnd.vdevs.del v.toNat, drains := s2.bnd.drains.filter (fun x => x.vdix != v) } }
    match d.ctl, s3.bnd.vdevs.find? (fun e => e.2.vv && e.2.st == .bound && e.2.grant.func == d.grant.func) with
    | some k, some e => s3.ctlCreate (BitVec.ofNat 8 e.1) k.1 k.2
    | _, _ => s3
  else s

/-! ## Capacity (R487 to R491) -/

/-- Whether an added range continues a granted one. -/
def continues (base n b m : Nat) : Bool := decide (m = 0 ∨ n = 0 ∨ b = base + n)

/-- Whether the ranges of an addition continue those of a grant: the record has one range of each kind. -/
def grantContinues (g a : Grant) : Bool :=
  continues g.stgBase.toNat g.stgSize.toNat a.stgBase.toNat a.stgSize.toNat &&
  continues g.lkBase.toNat g.lkCount.toNat a.lkBase.toNat a.lkCount.toNat &&
  continues g.rcBase.toNat g.rcCount.toNat a.rcBase.toNat a.rcCount.toNat &&
  continues g.flBase.toNat g.flCount.toNat a.flBase.toNat a.flCount.toNat &&
  (List.zipWith (fun (x y : BitVec 7 × BitVec 7) => continues x.1.toNat x.2.toNat y.1.toNat y.2.toNat) g.hbm a.hbm).all id

/-- CAPACITY_ADD: the resources wait for the next heat boundary. -/
def State.capacityAdd (s : State) (svdid : Word) (a : Grant) : State :=
  s.byAuthority (fun t =>
    match t.svdev svdid with
    | none => t.emit (.mgtRefuse Why.state)
    | some v =>
      let d := t.vdev v
      let whole := d.adding.foldl Grant.join d.grant
      if t.grantTaken a none ∨ d.adding.any (grantsClash a) then t.emit (.mgtRefuse Why.granted)
      else if t.grantMissing a ∨ !grantContinues whole a then t.emit (.mgtRefuse Why.missing)
      else if grantLocksReserved a then t.emit (.mgtRefuse Why.lockReserved)
      else t.updVdev v (fun x => { x with adding := x.adding ++ [a] }))

def execCapacityAdd (svdid : Word) (add : Grant) (s : State) : Host.Outcome State Fault Refusal := done (s.capacityAdd svdid add)

/-- Bytes of memory that a grant holds: staging windows and HBM. -/
def grantBytes (g : Grant) : Nat := g.stgSize.toNat * 0x200000 + (g.hbm.map (fun h => h.2.toNat * 2 ^ 30)).sum

/-- Whether a leaf maps memory of this package that BND can move (R482). -/
def movable (e : PTE) : Bool :=
  Pte.ts e == Ts.mapped && (Pte.cls e == 1 || Pte.cls e == 2 || Pte.cls e == 3 || Pte.cls e == 0x0A)

/-- Bytes of leaves. -/
def leafBytes (xs : List (Nat × Nat × PTE)) : Nat := (xs.map (fun x => 2 ^ Pte.lsize x.2.2)).sum

/-- Flash units in use in a range of logical units. -/
def State.rangeUnits (s : State) (v : Vdix) (base n : Nat) : Nat :=
  ((s.ftc.ranges.filter (fun e => e.2.vdix == v && rangesClash e.1 e.2.units base n)).map (fun e => e.2.units)).sum

/-- Leaves of a virtual device on the resources that are being removed. -/
def State.leavesGoing (s : State) (v : Vdix) : List (Nat × Nat × PTE) :=
  (s.leavesOf (s.vdev v).s2root.toNat).filter (fun x => movable x.2.2 && !s.inGrant v x.2.2)

/-- Whether the grant that remains can hold every page in use on what is being removed (R488). -/
def State.roomLeft (s : State) (v : Vdix) (x : Grant) : Bool :=
  let t := s.updVdev v (fun d => { d with removing := some x })
  let rest := (t.vdev v).usable
  let going := t.leavesGoing v
  let used := (t.leavesOf (t.vdev v).s2root.toNat).filter (fun l => movable l.2.2 && t.inGrant v l.2.2 && Pte.cls l.2.2 != 2)
  decide (leafBytes going + leafBytes (used.filter (fun l => Pte.cls l.2.2 != 0x0A)) ≤ grantBytes rest) &&
  decide (s.rangeUnits v x.flBase.toNat x.flCount.toNat + s.rangeUnits v rest.flBase.toNat rest.flCount.toNat ≤ rest.flCount.toNat)

/-- Whether nothing of a virtual device uses the removed lock and connection ranges any more, or their limit has passed
(R490). -/
def State.rangesFree (s : State) (v : Vdix) (x : Grant) : Bool :=
  (s.vdev v).rangeOver ||
  ((s.leavesOf (s.vdev v).s2root.toNat).all (fun l => Pte.cls l.2.2 != 9 ||
      !(decide (x.rcBase.toNat ≤ fld (Pte.index l.2.2).toNat 15 0 ∧ fld (Pte.index l.2.2).toNat 15 0 < x.rcBase.toNat + x.rcCount.toNat))) &&
   s.lkt.locks.all (fun e => match e.2 with
     | .held _ => !(decide (x.lkBase.toNat ≤ e.1 ∧ e.1 < x.lkBase.toNat + x.lkCount.toNat))
     | .abandoned => true))

/-- A removal ends once its pages have moved, its tiles have drained and its ranges are free (R488 step 4, R489, R490);
the contexts of a member that is removed end with REBIND_ABORTED. -/
def State.removeCheck (s : State) (v : Vdix) : State :=
  let d := s.vdev v
  match d.removing with
  | none => s
  | some x =>
    let drained (n : Nat) : Bool := !(x.tiles.toNat.testBit n && d.grant.tiles.toNat.testBit n) ||
      s.bnd.drains.any (fun k => k.vdix == v && k.ended && 32 * k.die.toNat + k.tile.toNat == n)
    let busy := !(s.leavesGoing v).isEmpty || s.rangeUnits v x.flBase.toNat x.flCount.toNat != 0
    if busy || !(rangeFrom 0 256).all drained || !s.rangesFree v x then s
    else
      let gone (k : Drain) : Bool := k.vdix == v && x.tiles.toNat.testBit (32 * k.die.toNat + k.tile.toNat)
      let s1 : State := { s with bnd := { s.bnd with drains := s.bnd.drains.filter (fun k => !gone k) } }
      let s2 := ((s1.unown (fun a => inStaging d.grant a && inStaging x a)).scrubGrant v x.hbm).freeLocks x.lkBase.toNat x.lkCount.toNat
      let s3 := s2.updVdev v (fun y => { y with grant := grantLess y.grant x, removing := none, rangeOver := false })
      match s.ofp.pkg with
      | some p =>
        if x.members.contains p then
          (forAll (s3.vdevCtxs v) s3 (fun t c => t.breakAll c Code.rebindAborted)).unbindVdev v
        else s3
      | none => s3

/-- What a REMOVE names on this package: everything where the package itself is removed (R489). -/
def State.removed (s : State) (d : VDev) (x : Grant) : Grant :=
  match s.ofp.pkg with
  | some p => if x.members.contains p then { d.grant with members := x.members, links := 0 } else x
  | none => x

/-- REMOVE. -/
def State.remove (s : State) (svdid : Word) (rem : Grant) : State :=
  match s.svdev svdid with
  | none => s.emit (.mgtRefuse Why.state)
  | some v =>
    let d := s.vdev v
    let x := s.removed d rem
    let slots := if x.slots < d.grant.slots then x.slots else d.grant.slots
    if d.removing.isSome then s.emit (.mgtRefuse Why.state)
    else if slots.toNat ≤ s.vdevPins v then s.emit (.mgtRefuse Why.slotsPinned)
    else if !s.roomLeft v x then s.emit (.mgtRefuse Why.noRoom)
    else
      let s1 := s.updVdev v (fun y => { y with
        removing := some x
        removeAt := s.now
        rangeOver := false
        grant := { y.grant with
          slots := slots
          shareMax := if x.shareMax < y.grant.shareMax then x.shareMax else y.grant.shareMax
          links := y.grant.links &&& ~~~x.links } })
      s1.moveFlows.removeCheck v

/-- REMOVE waits while BND is disabled (R494). -/
def execRemove (svdid : Word) (rem : Grant) (s : State) : Host.Outcome State Fault Refusal :=
  done (s.byAuthority (fun t =>
    if t.runs Blk.bnd then t.remove svdid rem
    else { t with bnd := { t.bnd with removeWait := t.bnd.removeWait ++ [(svdid, rem)] } }))

/-- What has waited while BND was disabled goes on. -/
def State.bndResume (s : State) : State :=
  let s1 : State := { s with bnd := { s.bnd with bindWait := [], removeWait := [] } }
  forAll s.bnd.removeWait (forAll s.bnd.bindWait s1 State.bindTake) (fun t p => t.remove p.1 p.2)

/-- LOCK_ROCE_RANGE_DRAIN_LIMIT: removed locks that are held become ABANDONED, their waiters leave with code 2, and the
connections of the removed slots are gone. -/
def State.rangeLimit (s : State) (v : Vdix) : State :=
  let d := s.vdev v
  match d.removing with
  | none => s
  | some x =>
    if d.rangeOver ∨ s.since d.removeAt < s.rf .bndCtrl 15 0 * 1000000 then s
    else
      let inLk (k : Nat) : Bool := decide (x.lkBase.toNat ≤ k ∧ k < x.lkBase.toNat + x.lkCount.toNat)
      let ws := s.lkt.waiters.filter (fun w => inLk w.lk)
      let s1 : State := { s with lkt := { s.lkt with waiters := s.lkt.waiters.filter (fun w => !inLk w.lk) } }
      let s2 := forAll ws s1 (fun t w => t.lkReply w.who 2)
      let held := (s2.lkt.locks.filter (fun e => inLk e.1 && e.2 != .abandoned)).map Prod.fst
      let s3 := forAll held s2 (fun t k =>
        let t1 := t.setLock k (some .abandoned)
        { t1 with lkt := { t1.lkt with abandoned := satInc t1.lkt.abandoned } })
      let inRc (k : Nat) : Bool := decide (x.rcBase.toNat ≤ k ∧ k < x.rcBase.toNat + x.rcCount.toNat)
      let slots := (s3.ofp.conns.filter (fun e => inRc e.1)).map Prod.fst
      let s4 := forAll slots s3 State.connError
      let s5 : State := { s4 with ofp := { s4.ofp with conns := s4.ofp.conns.filter (fun e => !inRc e.1) } }
      (s5.updVdev v (fun y => { y with rangeOver := true })).removeCheck v

def execLockRoceRangeDrainLimit (v : Vdix) (s : State) : Host.Outcome State Fault Refusal := done (s.rangeLimit v)

/-! ## Tile drains (R491) -/

/-- TILE_DRAIN_LIMIT. -/
def State.drainLimit (s : State) (die : BitVec 3) (tile : BitVec 5) : State :=
  let mine (k : Drain) : Bool := k.die == die && k.tile == tile && !k.ended && decide (s.since k.at_ ≥ s.rf .bndCtrl 15 0 * 1000000)
  match s.bnd.drains.find? mine with
  | none => s
  | some k =>
    let f (y : Drain) : Drain := if mine y then { y with ended := true } else y
    let s1 : State := { s with bnd := { s.bnd with drains := s.bnd.drains.map f } }
    (s1.emit (.endCmds die tile)).removeCheck k.vdix

def execTileDrainLimit (die : BitVec 3) (tile : BitVec 5) (s : State) : Host.Outcome State Fault Refusal :=
  done (s.drainLimit die tile)

/-- Another tile of a virtual device in this package for a restartable command. -/
def State.otherTile (s : State) (v : Vdix) (n : Nat) : Option Nat :=
  let d := s.vdev v
  (rangeFrom 0 256).find? (fun k => k != n && d.usable.tiles.toNat.testBit k && s.dieUp (k / 32) &&
    !(s.bnd.drains.any (fun x => 32 * x.die.toNat + x.tile.toNat == k)))

/-- TILE_COMMAND_RETURN: re-issued to another tile, or its event is ERRORED: with PARTITIONED where the member is fenced. -/
def State.commandReturn (s : State) (die : BitVec 3) (tile : BitVec 5) (c : CtxId) (e : BitVec 16) (restartable : Bool) : State :=
  match s.bnd.drains.find? (fun k => k.die == die && k.tile == tile && k.ended && k.vdix == s.ctxVdix c) with
  | none => s
  | some k =>
    if (s.ctx? c).isNone then s
    else
      let s1 :=
        match (if restartable ∧ !k.fenced then s.otherTile k.vdix (32 * die.toNat + tile.toNat) else none) with
        | some n => s.emit (.reissue c e (BitVec.ofNat 3 (n / 32)) (BitVec.ofNat 5 (n % 32)))
        | none =>
          match s.ctx? c with
          | some x =>
            if e.toNat < x.events then
              s.attachEvent c 0 e.toNat (if k.fenced then Code.partitioned else Code.rebindAborted) 0
            else s
          | none => s
      s1.removeCheck k.vdix

def execTileCommandReturn (die : BitVec 3) (tile : BitVec 5) (c : CtxId) (e : BitVec 16) (restartable : Bool) (s : State) :
    Host.Outcome State Fault Refusal := done (s.commandReturn die tile c e restartable)

/-! ## Leases (R477 to R481) -/

/-- Lease and renewal in nanoseconds. -/
def State.leaseNs (s : State) : Nat := s.rf .bndCtrl 31 24 * 1000000
def State.renewNs (s : State) : Nat := s.rf .bndCtrl 23 16 * 1000000

/-- A pair list with one entry replaced. -/
def putPair (l : List (PkgId × DWord)) (p : PkgId) (t : DWord) : List (PkgId × DWord) := l.filter (fun x => x.1 != p) ++ [(p, t)]

/-- When a member's lease runs out as the home counts. -/
def VDev.expiryOf (d : VDev) (p : PkgId) : Option DWord := (d.memberExp.find? (fun x => x.1 == p)).map Prod.snd

/-- LEASE_SEND: to every member that has not lapsed and to which a route is up. -/
def State.leaseSend (s : State) (svdid : Word) : State :=
  match s.svdev svdid with
  | none => s
  | some v =>
    let d := s.vdev v
    let dests := (s.others d.grant).filter (fun p => !d.lapsed.contains p && !(s.routeUp p).isEmpty)
    if !d.grant.isHome ∨ !d.grant.multi ∨ !s.runs Blk.ofp ∨ s.since d.lastLease < s.renewNs then s
    else
      let e := s.after s.leaseNs
      let s1 := forAll dests s (fun t p => t.emit (.relay 11 (bndKey p) p svdid e [] false))
      s1.updVdev v (fun x => { x with lastLease := s.now, memberExp := dests.foldl (fun l p => putPair l p e) x.memberExp })

def execLeaseSend (svdid : Word) (s : State) : Host.Outcome State Fault Refusal := done (s.leaseSend svdid)

/-- RELAY_LEASE: a later expiry is taken and answered. -/
def State.leaseIn (s : State) (svdid : Word) (e : DWord) : State :=
  match s.svdev svdid with
  | none => s
  | some v =>
    let d := s.vdev v
    if d.grant.isHome ∨ e.toNat ≤ d.leaseExp.toNat then s
    else (s.updVdev v (fun x => { x with leaseExp := e, lastLease := s.now })).emit
      (.relay 12 (bndKey d.grant.home) d.grant.home svdid e [] false)

def execRelayLease (svdid : Word) (e : DWord) (s : State) : Host.Outcome State Fault Refusal := done (s.leaseIn svdid e)

/-- RELAY_LEASE_ACK. -/
def State.leaseAck (s : State) (svdid : Word) (p : PkgId) : State :=
  match s.svdev svdid with
  | none => s
  | some v =>
    if (s.vdev v).grant.isHome ∧ (s.vdev v).grant.members.contains p then
      s.updVdev v (fun x => { x with acked := putPair x.acked p s.now })
    else s

def execRelayLeaseAck (svdid : Word) (pkg : PkgId) (_e : DWord) (s : State) : Host.Outcome State Fault Refusal :=
  done (s.leaseAck svdid pkg)

/-- A member fences its part of a virtual device (R478). -/
def State.fenceVdev (s : State) (v : Vdix) : State :=
  let d := s.vdev v
  let cs := s.vdevCtxs v
  let s1 := s.updVdev v (fun x => { x with st := .fenced })
  let s2 := forAll cs s1 (fun t c => t.breakAll c Code.partitioned)
  let ws := s2.reqs.filter (fun r => r.wr && (r.s2only == some v || (r.s2only.isNone && cs.contains r.ctx)))
  let s3 := forAll ws s2 (fun t r => (t.failReq r.id Code.partitioned 0).reqEnded r)
  let s4 := s3.dropParties (fun c _ => cs.contains c)
  let tiles := (rangeFrom 0 256).filter (fun n => d.grant.tiles.toNat.testBit n)
  let s5 := forAll tiles s4 (fun t n => t.emit (.endCmds (BitVec.ofNat 3 (n / 32)) (BitVec.ofNat 5 (n % 32))))
  let ends := tiles.map (fun n =>
    ({ die := BitVec.ofNat 3 (n / 32), tile := BitVec.ofNat 5 (n % 32), vdix := v, at_ := s.now, ended := true, fenced := true } : Drain))
  let s6 : State := { s5 with bnd := { s5.bnd with
    drains := s5.bnd.drains.filter (fun k => k.vdix != v) ++ ends
    moves := s5.bnd.moves.filter (fun m => m.vdix != v) } }
  s6.invInternal .vdev v.toNat 0 (.vdevGone v)

/-- LEASE_FENCE: 100 ns before the lease runs out. -/
def State.leaseFence (s : State) (v : Vdix) : State :=
  let d := s.vdev v
  if d.st ≠ .bound ∨ d.grant.isHome ∨ d.leaseExp = 0 ∨ s.now.toNat + 100 < d.leaseExp.toNat then s else s.fenceVdev v

def execLeaseFence (v : Vdix) (s : State) : Host.Outcome State Fault Refusal := done (s.leaseFence v)

/-- FENCE, from the operator: at once, and confirmed. -/
def State.fence (s : State) (svdid : Word) : State :=
  s.byAuthority (fun t =>
    match t.svdev svdid with
    | some v => (t.fenceVdev v).emit (.fenceDone svdid)
    | none => t.emit (.mgtRefuse Why.state))

def execFence (svdid : Word) (s : State) : Host.Outcome State Fault Refusal := done (s.fence svdid)

/-- PTP_HOLDOVER_EXPIRE: after 100 s the time is not synchronized, and every lease held counts as expired. -/
def State.holdoverEnd (s : State) : State :=
  if !s.ofp.holdover ∨ s.ofp.unsync ∨ s.since s.ofp.holdAt < 100000000000 then s
  else
    let held := (s.bnd.vdevs.filter (fun e => e.2.st == .bound && !e.2.grant.isHome && e.2.leaseExp != 0)).map
      (fun e => (BitVec.ofNat 8 e.1 : Vdix))
    forAll held (s.unsyncSet true) State.fenceVdev

def execPtpHoldoverExpire (s : State) : Host.Outcome State Fault Refusal := done s.holdoverEnd

/-- LEASE_LAPSE: the home counts a member's lease as lapsed, for a forced abort too (R181). -/
def State.leaseLapse (s : State) (v : Vdix) (p : PkgId) : State :=
  let d := s.vdev v
  match d.expiryOf p with
  | none => s
  | some e =>
    if d.st ≠ .bound ∨ !d.grant.isHome ∨ d.lapsed.contains p ∨ !s.reached e then s
    else
      let f (x : Ctx) : Ctx := match x.teardown with
        | .abort ws t => if x.vdix = v then { x with teardown := .abort (ws.filter (fun q => q != p)) t } else x
        | _ => x
      let s1 := s.updVdev v (fun x => { x with lapsed := addTo x.lapsed p })
      { s1 with ctxs := s1.ctxs.map (fun k => (k.1, f k.2)) }

def execLeaseLapse (v : Vdix) (pkg : PkgId) (s : State) : Host.Outcome State Fault Refusal := done (s.leaseLapse v pkg)

/-- The parties of a package that is fenced from this home are dropped from the rounds of a virtual device's contexts
(R306, R308). -/
def State.dropPackage (s : State) (v : Vdix) (p : PkgId) : State :=
  let party (x : Party) : Bool := x.joined && x.pkg == p && !x.dropped
  let mine (e : Nat × Round) : Bool :=
    s.ctxVdix e.2.ctx == v && e.2.st != .released && e.2.st != .failed && e.2.parties.any party
  forAll ((s.map.rounds.filter mine).map Prod.fst) s (fun t k => t.updRound k (fun r =>
    { r with parties := r.parties.map (fun x => if party x then x.drop else x) }))

/-- LEASE_RECLAIM: 10 ms later the member's resources leave the virtual device, and its parties their rounds. FABRIC
leaves that name it stay. -/
def State.leaseReclaim (s : State) (v : Vdix) (p : PkgId) : State :=
  let d := s.vdev v
  match d.expiryOf p with
  | none => s
  | some e =>
    if !d.lapsed.contains p ∨ !s.reached (e + 10000000) then s
    else (s.dropPackage v p).updVdev v (fun x => { x with
      grant := { x.grant with members := x.grant.members.filter (fun q => q != p) }
      memberExp := x.memberExp.filter (fun y => y.1 != p)
      acked := x.acked.filter (fun y => y.1 != p) })

def execLeaseReclaim (v : Vdix) (pkg : PkgId) (s : State) : Host.Outcome State Fault Refusal := done (s.leaseReclaim v pkg)

/-- LEASE_OVERDUE: twice the renewal period without a LEASE at a member, or without an answer at the home. -/
def State.leaseOverdue (s : State) (v : Vdix) : State :=
  let d := s.vdev v
  let late (t : DWord) : Bool := decide (s.since t ≥ 2 * s.renewNs)
  let missed := if d.grant.isHome then (s.others d.grant).any (fun p => match d.acked.find? (fun x => x.1 == p) with
      | some x => late x.2
      | none => (d.expiryOf p).isSome)
    else late d.lastLease
  if d.st ≠ .bound ∨ !d.grant.multi ∨ !missed then s else s.emit (.leaseOverdue d.grant.svdid)

def execLeaseOverdue (v : Vdix) (s : State) : Host.Outcome State Fault Refusal := done (s.leaseOverdue v)

/-- SURVIVOR: a new home; where it is this package, it tells the members that it can reach and issues leases from then on. -/
def State.survivor (s : State) (svdid : Word) (home : PkgId) : State :=
  s.byAuthority (fun t =>
    match t.svdev svdid with
    | none => t.emit (.mgtRefuse Why.state)
    | some v =>
      let d := t.vdev v
      if !d.grant.members.contains home then t.emit (.mgtRefuse Why.missing)
      else if t.ofp.pkg = some home then
        let e := t.after t.leaseNs
        let t1 := t.updVdev v (fun x => { x with
          leaseExp := 0
          memberExp := (t.others d.grant).map (fun p => (p, e))
          grant := { x.grant with home := home, isHome := true } })
        forAll (t.others d.grant) t1 (fun u p => u.tell p svdid 5)
      else t.updVdev v (fun x => { x with grant := { x.grant with home := home, isHome := false } }))

def execSurvivor (svdid : Word) (home : PkgId) (s : State) : Host.Outcome State Fault Refusal := done (s.survivor svdid home)

/-! ## A member's part of a forced abort (R492) -/

/-- MEMBER_ABORT. -/
def State.memberAbort (s : State) (p : PkgId) (c : CtxId) (gen : Word) : State :=
  let mine (k : FlowKey) : Bool := k.pkg == p && k.ctx == c && k.gen == gen
  let gone (r : Req) : Bool := match r.purpose with
    | .remoteWrite k _ _ _ => mine k
    | .remoteRead k _ => mine k
    | .remoteAtom k _ _ _ _ _ => mine k
    | _ => false
  let s1 := s.dropReqs gone
  let had := s1.ofp.rx.any (fun x => mine x.key)
  let s2 : State := { s1 with ofp := { s1.ofp with
    rx := s1.ofp.rx.filter (fun x => !mine x.key)
    rxWait := s1.ofp.rxWait.filter (fun x => !mine x.1) } }
  let party (x : Party) : Bool := x.ctx == c && x.pkg == p && !x.dropped
  let hit := (s2.map.rounds.filter (fun e => e.2.st != .released && e.2.st != .failed && e.2.parties.any party)).map Prod.fst
  let s3 := forAll hit s2 (fun t k => t.updRound k (fun r =>
    { r with parties := r.parties.map (fun x => if party x then x.drop else x) }))
  let s4 := if had then s3.rxFreed else s3
  s4.emit (.relay 13 { pkg := p, dev := true, ctx := c, gen := gen, queue := 0 } p 0 6 [] false)

def execMemberAbort (pkg : PkgId) (c : CtxId) (gen : Word) (s : State) : Host.Outcome State Fault Refusal :=
  done (s.memberAbort pkg c gen)

end Sys2Proof.Machine
end

