-- ==== Sys2Proof/Machine/HpxCmd.lean ====
section
/-! DEFINITION. The host ports: links, readiness, function-level reset, power states, errors, freezes, interrupts
(R402 to R428, R182). -/

namespace Sys2Proof.Machine

/-! ## Links and functions (R402, R403) -/

/-- Whether a link exists in its port's form. -/
def State.linkExists (s : State) (l : Nat) : Bool := decide (l < 8) && (l % 2 == 0 || s.bif (l / 2))
/-- The functions of a link that have a record. -/
def State.linkFns (s : State) (l : Nat) : List FnId :=
  (s.hpx.fns.map (fun e => BitVec.ofNat 10 e.1)).filter (fun f => s.fnLink f == l)
/-- VFs of a PF that exist. -/
def State.vfsOf (s : State) (f : FnId) : List FnId :=
  (rangeFrom 1 (s.fn f).numVfs).map (fun i => BitVec.ofNat 10 (f.toNat + i))
/-- The greatest number of lanes of a link, and of VFs of its PF. -/
def State.linkMax (s : State) (l : Nat) : Nat := if s.bif (l / 2) then 8 else 16
def State.vfMax (s : State) (l : Nat) : Nat := if s.bif (l / 2) then 127 else 255

/-- Whether a request needs a function's host path and stands at its port. -/
def State.atFn (s : State) (f : FnId) (r : Req) : Bool := s.reqFn r == some f && r.atPort && (s.reqLink r).isSome

/-- Whether a request has been transmitted to a host. -/
def Req.out (r : Req) : Bool := r.phase == .sent

/-! ## Re-attachment, freeze and release (R416, R424 to R426) -/

/-- A function's control context is re-attached: it is no longer orphaned, and its queues are reset. -/
def State.reattach (s : State) (f : FnId) : State :=
  let cs := (s.ctxs.filter (fun e => e.2.ctl && e.2.func == f && e.2.teardown == .none)).map (fun e => (BitVec.ofNat 14 e.1 : CtxId))
  forAll cs s (fun t c =>
    let t1 := t.updCtx c (fun x => { x with orph := false, orphend := 0 })
    forAll (allQ.filter (fun q => (t1.queue c q).state != .undefined && (t1.queue c q).resetting.isNone)) t1
      (fun u q => u.resetStart c q { code := Code.hostPathFailed }))

/-- Everything that a port has held or let wait goes on: records that lacked space, Page Requests, requests. -/
def State.portResume (s : State) (l : Nat) : State :=
  let fs := s.linkFns l
  let s1 := forAll fs s (fun t f => ((t.msixFlush f).fqDrain f 64).prgNext f 512)
  let cs := s1.ctxs.filter (fun e => fs.contains e.2.func && !e.2.recWait.isEmpty)
  (forAll cs s1 (fun t e => t.cqDrain (BitVec.ofNat 14 e.1) 64)).relaunch

/-- A freeze ends: held traffic leaves first, in order. -/
def State.thaw (s : State) (l : Nat) : State :=
  let k := s.link l
  let s1 := s.updLink l (fun x => { x with frozen := false, drain := false, cause := 0xFF, hold := [], selfEnd := false })
  let send (t : State) (m : HostMsg) : State := match m.fnOf with
    | some f => t.hostPush f m
    | none => t.emit (.host l m)
  (forAll k.hold s1 send).portResume l

/-- FREEZE_DRAIN_DONE. -/
def State.drainDone (s : State) (l : Nat) : State :=
  let k := s.link l
  if !k.frozen ∨ !k.drain then s
  else
    let s1 := s.updLink l (fun x => { x with drain := false })
    if k.selfEnd && k.dlup then s1.thaw l else s1

def execFreezeDrainDone (l : LinkId) (s : State) : Host.Outcome State Fault Refusal := done (s.drainDone l.toNat)

/-- LINK_RELEASE: by the link's PF, which the fallback sequencer's hold shuts out (R580), a control core or the operator. -/
def State.linkRelease (s : State) (who : Who) (l : Nat) : State :=
  let ok : Bool := match who with
    | .host f => s.isPf f && s.fnLink f == l && !s.flc.fallback
    | _ => s.coreOrOperator who
  s.writeBy ok who .hpxLrel [l] (fun t =>
    let k := t.link l
    if !k.dlup ∨ k.drain then t.cfgReject who (regAddr .hpxLrel [l])
    else if k.frozen then t.thaw l
    else t)

def execLinkRelease (who : Who) (l : LinkId) (s : State) : Host.Outcome State Fault Refusal := done (s.linkRelease who l.toNat)

/-! ## The reset of functions (R415, R427) -/

/-- Steps 1 to 3 of R415: contexts are orphaned, host faults fail, and requests that have not been transmitted, and reads,
fail. -/
def State.fnStop (s : State) (f : FnId) : State :=
  let s1 := s.orphan (fun x => x.func == f)
  let s2 := (s1.pfHostEnd (fun p => p.func == f) Code.hostPathFailed 0).l0Drop f
  let ids := (s2.reqs.filter (fun r => s2.atFn f r && (!r.out || r.rd))).map Req.id
  let s3 := forAll ids s2 (fun t i => t.failReq i Code.hostPathFailed 0)
  let l := s.fnLink f
  { (s3.updLink l (fun k => { k with dheld := k.dheld.filter (fun m => m.fnOf != some f) })) with
    xlt := { (s3.updLink l (fun k => { k with dheld := k.dheld.filter (fun m => m.fnOf != some f) })).xlt with
      prgStale := s3.xlt.prgStale.del f.toNat } }

/-- Step 4 of R415: configuration, MSI-X table and pending bits at their reset values; a PF's INTx counts with them. -/
def State.fnClear (s : State) (f : FnId) (there : Bool) : State :=
  let s1 := s.putFn f { present := there, ready := there }
  if s.isPf f then
    let s2 := s1.updLink (s.fnLink f) (fun k => { k with raised := 0, seen := 0, aspm := false, l0pEn := false })
    s2.intaUpdate (s.fnLink f)
  else s1

/-- R415 for one function; one that no longer exists is not re-attached. -/
def State.fnReset (s : State) (f : FnId) (there : Bool) : State :=
  let s1 := ((s.fnStop f).fnClear f there).rstCause 5 4 f.toNat
  (if there then s1.reattach f else s1).emit (.frs f)

/-- FLR; that of a PF ends its VFs with their SR-IOV capability. -/
def State.flr (s : State) (f : FnId) : State :=
  if !(s.fn f).present then s
  else
    let vs := if s.isPf f then s.vfsOf f else []
    (forAll vs s (fun t v => t.fnReset v false)).fnReset f true

def execFlr (f : FnId) (s : State) : Host.Outcome State Fault Refusal := done (s.flr f)

/-- VF_ENABLE_SET. -/
def State.vfEnable (s : State) (f : FnId) (n : Nat) : State :=
  let x := s.fn f
  if !s.isPf f ∨ !x.present ∨ x.vfEnable ∨ n = 0 ∨ n > s.vfMax (s.fnLink f) then s
  else
    let s1 := s.putFn f { x with vfEnable := true, numVfs := n }
    forAll (s1.vfsOf f) s1 (fun t v => (t.updFn v (fun y => { y with present := true, ready := true })).emit (.frs v))

def execVfEnableSet (f : FnId) (n : BitVec 8) (s : State) : Host.Outcome State Fault Refusal := done (s.vfEnable f n.toNat)

/-- VF_ENABLE_CLEAR. -/
def State.vfDisable (s : State) (f : FnId) : State :=
  if !(s.fn f).vfEnable then s
  else
    (forAll (s.vfsOf f) s (fun t v => t.fnReset v false)).updFn f (fun x => { x with vfEnable := false, numVfs := 0 })

def execVfEnableClear (f : FnId) (s : State) : Host.Outcome State Fault Refusal := done (s.vfDisable f)

/-- VF_MEMORY_SPACE_CLEAR. -/
def State.vfMseClear (s : State) (f : FnId) : State :=
  if !(s.fn f).vfMse then s
  else (forAll (s.vfsOf f) s (fun t v => t.fnReset v true)).updFn f (fun x => { x with vfMse := false })

def execVfMemorySpaceClear (f : FnId) (s : State) : Host.Outcome State Fault Refusal := done (s.vfMseClear f)

/-- BME_CLEAR: the function's contexts are orphaned, and its requests that have not been transmitted fail (R182, R183). -/
def State.bmeClear (s : State) (f : FnId) : State :=
  if !(s.fn f).bme then s
  else
    let s1 := (s.updFn f (fun x => { x with bme := false })).orphan (fun x => x.func == f)
    let ids := (s1.reqs.filter (fun r => s1.atFn f r && !r.out)).map Req.id
    forAll ids s1 (fun t i => t.failReq i Code.hostPathFailed 0)

def execBmeClear (f : FnId) (s : State) : Host.Outcome State Fault Refusal := done (s.bmeClear f)

/-- BME_SET. -/
def State.bmeSet (s : State) (f : FnId) : State :=
  if (s.fn f).bme ∨ !(s.fn f).present then s
  else ((s.updFn f (fun x => { x with bme := true })).reattach f).relaunch

def execBmeSet (f : FnId) (s : State) : Host.Outcome State Fault Refusal := done (s.bmeSet f)

/-! ## Links down and up (R404, R413, R414, R427, R593) -/

/-- Power domain of a link, and island of its port. -/
def linkDomain (l : Nat) : Nat := 520 + l
def portIsland (l : Nat) : Nat := 70 + l / 2

/-- R427: the link freezes, its contexts are orphaned, its functions return to their reset state. -/
def State.goDown (s : State) (l : Nat) (cause : Byte) (st : LState) : State :=
  let fs := s.linkFns l
  let pme := fs.filter (fun f => (s.fn f).pmeEn)
  let s1 := s.freezeLink l cause
  let s2 := s1.orphan (fun x => s1.fnLink x.func == l)
  let s3 := forAll fs s2 (fun t f => (t.pfHostEnd (fun p => p.func == f) Code.portFrozen 0).fnClear f false)
  s3.updLink l (fun k => { k with
    st := st, dlup := false, width := 0, full := 0, cxl := false, hold := [], dheld := [], selfEnd := true
    pmeL0 := if st = .l2 then pme else k.pmeL0 })

/-- The domain of a link in L2 is off, and the port's island with its last link. -/
def State.linkOff (s : State) (l : Nat) : State := s.setDomain (linkDomain l) false

/-- PERST_ASSERT. -/
def State.perstAssert (s : State) (l : Nat) : State :=
  if !(s.link l).perst then s
  else
    let s1 := s.updLink l (fun k => { k with perst := false })
    if s.linkExists l then (s1.goDown l 0xFE .down).rstCause 4 3 l else s1

def execPerstAssert (l : LinkId) (s : State) : Host.Outcome State Fault Refusal := done (s.perstAssert l.toNat)

/-- PERST_DEASSERT: the fundamental reset is complete. -/
def State.perstDeassert (s : State) (l : Nat) : State :=
  if (s.link l).perst then s
  else
    let s1 := s.updLink l (fun k => { k with perst := true, wake := false })
    if !s.linkExists l then s1
    else
      let s2 := s1.setDomain (linkDomain l) true
      if s2.islandOn (portIsland l) then s2.updLink l (fun k => { k with st := .training }) else s2

def execPerstDeassert (l : LinkId) (s : State) : Host.Outcome State Fault Refusal := done (s.perstDeassert l.toNat)

/-- LINK_DOWN: an unexpected loss is an uncorrectable error of the link as well (R423). -/
def State.linkDown (s : State) (l : Nat) (why : DownCause) : State :=
  if !(s.link l).dlup then s
  else match why with
    | .surprise =>
      ((s.goDown l 5 .training).raise { src := Src.hpxUncorr l, aer := some 5 })
    | .hotReset => (s.goDown l 0xFE .training).rstCause 4 3 l
    | .linkDisable => (s.goDown l 0xFE .down).rstCause 4 3 l
    | .l2 =>
      let s1 := s.goDown l 0xFE .l2
      let pm := (s1.link l).pmeL0
      forAll pm (s1.linkOff l) (fun t f => t.wakeCheck f)
    | .perst => s.perstAssert l

def execLinkDown (l : LinkId) (why : DownCause) (s : State) : Host.Outcome State Fault Refusal := done (s.linkDown l.toNat why)

/-- A PF becomes ready: DRS, and its control context is re-attached (R414, R416). -/
def State.pfReady (s : State) (l : Nat) : State :=
  let f := State.linkPf l
  ((s.updFn f (fun x => { x with ready := true })).emit (.drs l)).reattach f

/-- LINK_UP: DL_Up at a width; the port's form decides whether CXL is offered. -/
def State.linkUp (s : State) (l : Nat) (w : BitVec 5) (cxl : Bool) : State :=
  let k := s.link l
  if !s.linkExists l ∨ k.dlup ∨ !k.perst ∨ k.st = .l2 ∨ !s.islandOn (portIsland l) ∨ w = 0 ∨ w.toNat > s.linkMax l then s
  else
    let s1 := s.updLink l (fun x => { x with
      st := .l0, dlup := true, width := w, full := w, cxl := cxl && l % 2 == 0 && s.hpx.cxlB.toNat.testBit (l / 2) })
    let s2 := s1.updFn (State.linkPf l) (fun x => { x with present := true })
    let s3 := if s.hpx.openB.toNat.testBit (l / 2) then s2.pfReady l else s2
    if k.frozen && !k.drain then s3.thaw l else s3

def execLinkUp (l : LinkId) (width : BitVec 5) (cxl : Bool) (s : State) : Host.Outcome State Fault Refusal :=
  done (s.linkUp l.toNat width cxl)

/-- PORT_CFG_WRITE: open bits are set; cxl and bif change for closed ports only, and a new form retrains the port. -/
def State.portCfg (s : State) (who : Who) (v : Nat) : State :=
  let ok : Bool := match who with
    | .core _ => true
    | _ => false
  s.writeBy ok who .hpxPortCfg [] (fun t =>
    let shut := 15 - t.hpx.openB.toNat
    let oldC := t.hpx.cxlB.toNat
    let oldB := t.hpx.bifB.toNat
    let newC := (fld v 11 8 &&& shut) ||| (oldC &&& t.hpx.openB.toNat)
    let newB := (fld v 3 0 &&& shut) ||| (oldB &&& t.hpx.openB.toNat)
    let bad := decide (newC ≠ fld v 11 8 ∨ newB ≠ fld v 3 0)
    let fresh := fld v 19 16 &&& shut
    let t1 : State := { t with hpx := { t.hpx with
      openB := BitVec.ofNat 4 (t.hpx.openB.toNat ||| fld v 19 16), cxlB := BitVec.ofNat 4 newC, bifB := BitVec.ofNat 4 newB } }
    let t2 := forAll ((rangeFrom 0 8).filter (fun l => oldB.testBit (l / 2) != newB.testBit (l / 2))) t1 (fun u l =>
      let u1 := u.setDomain (linkDomain l) (u.linkExists l)
      u1.updLink l (fun k => { k with
        st := if k.perst ∧ u.linkExists l ∧ u1.islandOn (portIsland l) then .training else .down
        dlup := false, width := 0, full := 0, cxl := false }))
    let t3 := forAll ((rangeFrom 0 8).filter (fun l => fresh.testBit (l / 2) && (t2.link l).dlup)) t2 (fun u l => u.pfReady l)
    if bad then t3.cfgReject who (regAddr .hpxPortCfg []) else t3)

def execPortCfgWrite (who : Who) (v : Word) (s : State) : Host.Outcome State Fault Refusal := done (s.portCfg who v.toNat)

/-! ## Device and link power (R419 to R422) -/

/-- D3HOT_ENTER. -/
def execD3hotEnter (f : FnId) (s : State) : Host.Outcome State Fault Refusal :=
  done (if (s.fn f).present then (s.updFn f (fun x => { x with d3hot := true })).wakeCheck f else s)

/-- D0_RETURN: held requests leave in order, then pending vectors. -/
def State.d0Return (s : State) (f : FnId) : State :=
  if !(s.fn f).d3hot then s
  else
    let l := s.fnLink f
    let mine := (s.link l).dheld.filter (fun m => m.fnOf == some f)
    let s1 := (s.updFn f (fun x => { x with d3hot := false })).updLink l (fun k => { k with
      dheld := k.dheld.filter (fun m => m.fnOf != some f) })
    let send (t : State) (m : HostMsg) : State := match m with
      | .req _ i => t.transmit i
      | _ => t.hostPush f m
    (forAll mine s1 send).portResume l

def execD0Return (f : FnId) (s : State) : Host.Outcome State Fault Refusal := done (s.d0Return f)

/-- PME_TURN_OFF: held requests of the link's functions fail, and PME_TO_Ack answers. -/
def State.pmeTurnOff (s : State) (l : Nat) : State :=
  if !(s.link l).dlup then s
  else
    let ids := (s.link l).dheld.filterMap (fun m => match m with
      | .req _ i => some i
      | _ => none)
    let s1 := forAll ids s (fun t i => t.failReq i Code.hostPathFailed 0)
    let isReq (m : HostMsg) : Bool := match m with
      | .req _ _ => true
      | _ => false
    (s1.updLink l (fun k => { k with dheld := k.dheld.filter (fun m => !isReq m) })).emit (.pmeToAck l)

def execPmeTurnOff (l : LinkId) (s : State) : Host.Outcome State Fault Refusal := done (s.pmeTurnOff l.toNat)

/-- PME_RESEND. -/
def State.pmeResend (s : State) (f : FnId) : State :=
  let x := s.fn f
  if x.pmeSt ∧ x.pmeEn ∧ x.d3hot ∧ s.wakes f ∧ s.since x.pmeAt ≥ 100000000 then
    (s.putFn f { x with pmeAt := s.now }).emit (.pmPme f)
  else s

def execPmeResend (f : FnId) (s : State) : Host.Outcome State Fault Refusal := done (s.pmeResend f)

/-- Whether work of a promised kind keeps a link awake: an open item with transfers toward it, or a HIGH queue that holds a
grant (R421). -/
def State.linkPromised (s : State) (l : Nat) : Bool :=
  let mine (c : CtxId) : Bool := match s.ctx? c with
    | some x => s.fnLink x.func == l
    | none => false
  s.pcr.items.any (fun i => mine i.ctx && s.reqs.any (fun r => r.ctx == i.ctx && r.queue == some i.queue && s.reqLink r == some l)) ||
  s.ctxs.any (fun e => s.fnLink e.2.func == l && e.2.queues.any (fun q => q.highGrant))

/-- Whether anything is to be sent on a link. -/
def State.linkBusy (s : State) (l : Nat) : Bool := s.reqs.any (fun r => r.atPort && s.reqLink r == some l)

/-- ASPM_L1_REQUEST. -/
def State.aspmL1 (s : State) (l : Nat) : State :=
  let k := s.link l
  if (k.st = .l0 ∨ k.st = .l0p) ∧ k.aspm ∧ !s.linkPromised l ∧ !s.linkBusy l then
    (s.updLink l (fun x => { x with st := .l1 })).emit (.l1Req l)
  else s

def execAspmL1Request (l : LinkId) (s : State) : Host.Outcome State Fault Refusal := done (s.aspmL1 l.toNat)

/-- L1_EXIT: it is a late event of open items (R362), which no state records. -/
def State.l1Exit (s : State) (l : Nat) : State :=
  let k := s.link l
  if k.st = .l1 then s.updLink l (fun x => { x with st := if k.width = k.full then .l0 else .l0p }) else s

def execL1Exit (l : LinkId) (s : State) : Host.Outcome State Fault Refusal := done (s.l1Exit l.toNat)

/-- The narrowest width that HPX_LPM lets the HTU request; none where it lets none. -/
def State.l0pMin (s : State) (l : Nat) : Option Nat :=
  match s.rf .hpxLpm 1 0 [l] with
  | 0 => none
  | 1 => if s.bif (l / 2) then none else some 8
  | 2 => some 4
  | _ => some 2

/-- L0P_NARROW_REQUEST. -/
def State.narrow (s : State) (l : Nat) (w : BitVec 5) : State :=
  let k := s.link l
  match s.l0pMin l with
  | none => s
  | some m =>
    if (k.st = .l0 ∨ k.st = .l0p) ∧ k.l0pEn ∧ m ≤ w.toNat ∧ w.toNat < k.width.toNat ∧ [8, 4, 2].contains w.toNat ∧
        !s.linkPromised l then
      (s.updLink l (fun x => { x with st := .l0p, width := w })).emit (.widthReq l w)
    else s

def execL0pNarrowRequest (l : LinkId) (width : BitVec 5) (s : State) : Host.Outcome State Fault Refusal :=
  done (s.narrow l.toNat width)

/-- L0P_WIDEN_REQUEST. -/
def State.widen (s : State) (l : Nat) : State :=
  let k := s.link l
  if k.st = .l0p then (s.updLink l (fun x => { x with st := .l0, width := k.full })).emit (.widthReq l k.full) else s

def execL0pWidenRequest (l : LinkId) (s : State) : Host.Outcome State Fault Refusal := done (s.widen l.toNat)

/-- PARTNER_POWER_REQUEST: state 4 asks for L1, 3 for a width. -/
def State.partnerPower (s : State) (l st : Nat) (w : BitVec 5) : State :=
  let k := s.link l
  if !(k.st = .l0 ∨ k.st = .l0p) then s
  else if st = 4 then s.updLink l (fun x => { x with st := .l1 })
  else if st = 3 ∧ k.l0pEn ∧ 0 < w.toNat ∧ w.toNat ≤ k.full.toNat then
    s.updLink l (fun x => { x with st := if w = k.full then .l0 else .l0p, width := w })
  else s

def execPartnerPowerRequest (l : LinkId) (state : BitVec 3) (width : BitVec 5) (s : State) :
    Host.Outcome State Fault Refusal := done (s.partnerPower l.toNat state.toNat width)

/-! ## Errors (R408, R411, R423) -/

/-- The AER bits that HPX_UNCORR takes in and that leave the link up. -/
def uncorrBits : List Nat := [4, 13, 17, 18, 22]

/-- HPX_LINK_ERROR: the fault, and the error message that AER sends by its default severity. -/
def State.linkError (s : State) (l : Nat) (e : HpxErr) : State :=
  if !(s.link l).dlup then s
  else match e with
    | .corr => (s.emit (.err l 0)).raise { src := Src.hpxCorr l }
    | .poisonIn => (s.emit (.err l 1)).raise { src := Src.hpxPoisonIn l, aer := some 12 }
    | .unexpectedCompletion => (s.emit (.err l 1)).raise { src := Src.hpxUrIn l, aer := some 16 }
    | .unsupportedIn => (s.emit (.err l 1)).raise { src := Src.hpxUrIn l, aer := some 20 }
    | .uncorr b => if uncorrBits.contains b.toNat then (s.emit (.err l 2)).raise { src := Src.hpxUncorr l, aer := some b } else s

def execHpxLinkError (l : LinkId) (e : HpxErr) (s : State) : Host.Outcome State Fault Refusal := done (s.linkError l.toNat e)

/-- INBOUND_UNSUPPORTED: without a record while the link is frozen (R425). -/
def State.inboundBad (s : State) (f : FnId) (posted : Bool) (a : DWord) : State :=
  let l := s.fnLink f
  let s1 := if posted then s else s.emit (.unsupported f)
  if !(s.link l).dlup then s
  else if (s.link l).frozen then s1
  else s1.raise { src := Src.hpxUrIn l, who := .host f, addr := a, acc := if posted then .write else .read, akind := .host }

def execInboundUnsupported (f : FnId) (posted : Bool) (addr : DWord) (s : State) : Host.Outcome State Fault Refusal :=
  done (s.inboundBad f posted addr)

/-- A read or an atomic of the HTU that a host has still to answer, with its function. -/
def State.hostAsked (s : State) (id : Nat) : Option (Req × Trans × FnId) :=
  match s.req? id with
  | some r =>
    (match r.tr, s.reqFn r with
     | some t, some f => if r.rd && r.out && (t.cls == 4 || t.cls == 5) then some (r, t, f) else none
     | _, _ => none)
  | none => none

/-- A host request fails (R423). -/
def State.hostFail (s : State) (id : Nat) (r : Req) (t : Trans) (f : FnId) (aer : BitVec 8) : State :=
  ((s.failReq id Code.hostPathFailed 0).raise
    { r.praFault t (Src.hpxCto (s.fnLink f)) 0 Code.hostPathFailed with aer := some aer }).relaunch

/-- HOST_READ_COMPLETION: data, poisoned data, or an error status. -/
def State.hostComplete (s : State) (id : Nat) (bs : List Byte) (ep ok : Bool) : State :=
  match s.hostAsked id with
  | none => s
  | some (r, t, f) =>
    if !ok then s.hostFail id r t f 15
    else if bs.length ≠ r.len then s
    else
      let s1 := if ep then s.raise { src := Src.hpxPoisonIn (s.fnLink f), who := r.who, aer := some 12 } else s
      (s1.finishRead r t bs (List.replicate bs.length ep)).relaunch

def execHostReadCompletion (id : Nat) (data : List Byte) (ep ok : Bool) (s : State) : Host.Outcome State Fault Refusal :=
  done (s.hostComplete id data ep ok)

/-- COMPLETION_TIMEOUT. -/
def State.hostTimeout (s : State) (id : Nat) : State :=
  match s.hostAsked id with
  | none => s
  | some (r, t, f) => s.hostFail id r t f 14

def execCompletionTimeout (id : Nat) (s : State) : Host.Outcome State Fault Refusal := done (s.hostTimeout id)

/-! ## Interrupts (R417, R418) -/

/-- MSIX_UNMASK: a write of the MSI-X table over BAR4. -/
def State.msixUnmask (s : State) (f : FnId) (v : Nat) : State :=
  s.inbound f true (BitVec.ofNat 64 (16 * v + 12)) .write .none (fun t =>
    let old := ((t.fn f).vectors.look v).getD (0, 0, true)
    (t.updFn f (fun x => { x with vectors := x.vectors.put v (old.1, old.2.1, false) })).msixFlush f)

def execMsixUnmask (f : FnId) (vec : BitVec 11) (s : State) : Host.Outcome State Fault Refusal :=
  done (s.msixUnmask f vec.toNat)

/-- Whether an initiator may write a link's own registers (R428). -/
def State.linkWriter (s : State) (who : Who) (l : Nat) : Bool :=
  match who with
  | .core _ => true
  | .host f => s.isPf f && s.fnLink f == l
  | _ => false

/-- INTX_SEEN_WRITE. -/
def State.intxSeen (s : State) (who : Who) (l : Nat) (v : Word) : State :=
  s.writeBy (s.linkWriter who l) who .hpxIntxSeen [l] (fun t => (t.updLink l (fun k => { k with seen := v })).intaUpdate l)

def execIntxSeenWrite (who : Who) (l : LinkId) (v : Word) (s : State) : Host.Outcome State Fault Refusal :=
  done (s.intxSeen who l.toNat v)

/-- INTERRUPT_DISABLE_WRITE. -/
def State.intDisable (s : State) (l : Nat) (dis : Bool) : State :=
  if !(s.fn (State.linkPf l)).present then s
  else (s.updFn (State.linkPf l) (fun x => { x with intDis := dis })).intaUpdate l

def execInterruptDisableWrite (l : LinkId) (dis : Bool) (s : State) : Host.Outcome State Fault Refusal :=
  done (s.intDisable l.toNat dis)

end Sys2Proof.Machine
end

