-- ==== Sys2Proof/Machine/Fill.lean ====
section
/-! DEFINITION. Flash fills and their retry ladder, evictions from the tier cache and demotions, and the lap sweep, which
share the units they read and write (R78, R127, R131, R133, R134, R381, R382, R386 to R389, R535 to R538). -/

namespace Sys2Proof.Machine

/-! ## Reads in progress -/

/-- Limits of R133 and R382. -/
def fillMax : Nat := 64
def segMax : Nat := 6144

/-- The flash logical address of a FLASHED leaf's page, and its units. -/
def PFault.flashAt (p : PFault) : Nat := Pte.offpn p.leaf * 4096
def PFault.unitCount (p : PFault) : Nat := flashUnits (Pte.lsize p.leaf)
/-- The unit that a service reads next. -/
def PFault.curUnit (p : PFault) : Nat := p.flashAt / 16384 + p.units
/-- The map segment of a flash page (R382). -/
def PFault.seg (p : PFault) : Nat := p.flashAt / 16384 / 2048
/-- Whether a service reads units: a fill in service whose segment is at hand, or a page being swept. -/
def PFault.reads (p : PFault) : Bool :=
  (p.svc == .flash || p.svc == .sweep) && p.active && !p.mapWait && decide (p.units < p.unitCount)

/-- Where the unit lies that a service reads now. -/
def State.readLoc (s : State) (p : PFault) : Option (Nat × Nat) :=
  if p.reads then (s.ftc.units.look p.curUnit).bind Unit.loc else none

/-- Whether a fill read waits on a LUN. -/
def State.lunRead (s : State) (lun : Nat) : Bool :=
  s.xlt.faults.any (fun e => match s.readLoc e.2 with
    | some l => e.2.svc == .flash && blockLun l.1 == lun
    | none => false)

/-- The time tR in nanoseconds for which a suspended operation runs (R372, R386). -/
def flashTr : Nat := 60000

/-- Operations of LUNs on which fill reads wait are suspended, and the others resume (R386). -/
def State.suspend (s : State) : State :=
  let one (e : Nat × Block) : Nat × Block :=
    let x := e.2
    if x.work = BWork.idle then (e.1, { x with susp := false })
    else if s.lunRead (blockLun e.1) then
      if x.susp then e
      else if x.suspAt = 0 ∨ s.since x.suspAt ≥ flashTr then (e.1, { x with susp := true, suspAt := s.now })
      else e
    else (e.1, { x with susp := false, suspAt := 0 })
  { s with ftc := { s.ftc with blocks := s.ftc.blocks.map one } }

/-- Whether the operation of a block is suspended: a block that still waits for its erase of R395 has no record. -/
def State.blockHeld (s : State) (b : Nat) : Bool :=
  match s.ftc.blocks.look b with
  | some x => x.susp
  | none => s.lunRead (blockLun b)

/-! ## The ladder (R388, R389) -/

/-- Whether the device profile is loaded. -/
def State.profile (s : State) : Bool := (rangeFrom 0 256).any (fun i => decide (s.ce .ftcRetryTbl 31 0 [i] ≠ 0))

/-- Whether a target has failed: its units are rebuilt from their stripes. -/
def State.tgtFailed (s : State) (b : Nat) : Bool :=
  match s.ftc.targets.look (blockTgt b) with
  | some t => t.st == .failed
  | none => true

/-- The step at which a read of a block stands. -/
def State.ladderAt (s : State) (b k : Nat) : Nat := if s.tgtFailed b then 7 else k

/-- The step after one that did not decode: steps that need offsets are skipped without a profile, and step 1 without a
remembered set. -/
def State.ladderNext (s : State) (b k : Nat) : Nat :=
  if k = 0 ∧ s.profile ∧ (s.block b).offset.isSome then 1
  else if s.profile then max 2 (k + 1) else 7

/-- What a fault of the flash tells FLC: a unit, or a block. -/
def unitFault (src : BitVec 9) (u : Nat) : FaultIn :=
  { src := src, addr := BitVec.ofNat 64 (u * 16384), acc := .read, akind := .pra, pcls := 6, code := Code.flashUnrecoverable }
def blockFault (src : BitVec 9) (b : Nat) : FaultIn := { src := src, synd := BitVec.ofNat 160 b }

/-- A unit has been decoded at a step. -/
def State.unitDecoded (s : State) (b k : Nat) : State :=
  let f := s.ftc
  let s1 : State := { s with ftc := { f with
    cntRetry := if k ≥ 1 then satInc f.cntRetry else f.cntRetry
    cntRebuild := if k = 7 then satInc f.cntRebuild else f.cntRebuild } }
  let s2 := if 2 ≤ k ∧ k ≤ 4 then s1.updBlock b (fun x => { x with offset := some (k - 1) }) else s1
  if k ≥ 5 ∧ !s.tgtFailed b then (s2.raise (blockFault Src.ftcRetryDeep b)).suspectBlock b else s2

/-- A unit that the last step does not recover is LOST. -/
def State.unitLost (s : State) (u b i : Nat) : State :=
  let s1 := s.clearPage b i
  let f := s1.ftc
  let s2 : State := { s1 with ftc := { f with
    units := f.units.upd u (fun x => { x with lost := true, loc := none })
    cntLost := satInc f.cntLost } }
  let s3 := s2.raise (unitFault Src.ftcUnitLost u)
  if s.tgtFailed b then s3 else s3.suspectBlock b

/-! ## Fills and swept pages, unit by unit (R131, R381, R537) -/

/-- The lap parity under which an owner's pages are written now (R65). -/
def State.lapBit (s : State) (own : CtxId) : Bool :=
  match s.ctx? own with
  | some x => x.lap.toNat.testBit 0
  | none => false

/-- A service of a flash page ends in failure: its place is free again. -/
def State.flashFail (s : State) (e : Nat) (p : PFault) (code reason : Byte) : State :=
  let s1 := match p.place with
    | some off => s.freePlace off
    | none => s
  s1.pfFail e code reason

/-- A fill that has all its units: SMS gets the page, and the leaf becomes MAPPED. A copy of the old lap is dirty while a
sweep runs (R537). -/
def State.fillDone (s : State) (e : Nat) (p : PFault) (off : Nat) : State :=
  let l := Pte.lsize p.leaf
  let own := Pte.owner p.leaf
  let old : Bool := match s.ctx? own with
    | some x => x.sweep && (Pte.lp p.leaf != x.lap.toNat.testBit 0)
    | none => false
  let d : DirEntry :=
    { vdix := p.vdix, ca := p.ca, lsize := l, flash := some p.flashAt, lp := Pte.lp p.leaf, dirty := old, ref := true
      owner := own }
  let s1 := s.tierFill off own (p.buf.take (2 ^ l))
  if s1.pfStands p then
    let s2 : State := { s1 with xlt := { s1.xlt with dir := s1.xlt.dir.put off d } }
    (s2.pfWrite p (tierLeaf p.leaf off)).pfEnd e
  else (s1.freePlace off).pfEnd e

/-- A swept page's units that are mapped are written again at their logical addresses under the new lap; where none is,
the page is done. -/
def State.sweepRewrite (s : State) (e : Nat) (p : PFault) : State :=
  let a := p.flashAt / 16384
  let own := Pte.owner p.leaf
  let lp := s.lapBit own
  let us := ((rangeFrom a p.unitCount).zip (unitCut p.unitCount p.buf)).filter (fun x => (s.ftc.units.look x.1).isSome)
  if us.isEmpty then (s.pfWrite p (Pte.set p.leaf 9 9 (b2n lp))).pfEnd e
  else us.foldl (fun t x =>
    t.ftcWrite x.1 { loc := none, owner := own, gen := t.genOf own, lp := lp, wseq := 0, stripe := 0, data := x.2 } (.sweep e)) s

/-- A service goes on to its next unit that must be read: unmapped units are zeros, a LOST one ends it. -/
def State.flashAdvance (s : State) (e : Nat) : Nat → State
  | 0 => s
  | fuel + 1 =>
    match s.xlt.faults.look e with
    | none => s
    | some p =>
      if p.units ≥ p.unitCount then
        match p.svc, p.place with
        | .flash, some off => s.fillDone e p off
        | .sweep, _ => s.sweepRewrite e p
        | _, _ => s
      else
        match s.ftc.units.look p.curUnit with
        | none =>
          State.flashAdvance (s.updPf e (fun x => { x with
            units := x.units + 1, ladder := 0, buf := x.buf ++ List.replicate 16384 0 })) e fuel
        | some u => if u.lost then s.flashFail e p Code.flashUnrecoverable 0 else s

/-- Steps that a page's units can take at once. -/
def flashSteps : Nat := 129

/-- FLASH_UNIT_READ_DONE: the metadata is checked before the outcome of the decoding. -/
def State.unitRead (s : State) (e : Nat) (r : UnitRead) : State :=
  match s.xlt.faults.look e with
  | none => s
  | some p =>
    match s.readLoc p, s.ftc.units.look p.curUnit with
    | some (b, i), some u =>
      let s1 := s.updBlock b (fun x => { x with reads := x.reads + 1 })
      let k := s.ladderAt b p.ladder
      if u.owner ≠ Pte.owner p.leaf ∨ u.gen ≠ s.genOf (Pte.owner p.leaf) then
        s1.flashFail e p Code.xlateUnresolved Rsn.flashOwner
      else match r with
        | .decoded =>
          let d := if u.lp = Pte.lp p.leaf then (u.data, s1) else s1.drawBytes 16384
          ((d.2.unitDecoded b k).updPf e (fun x => { x with
            units := x.units + 1, ladder := 0, buf := x.buf ++ d.1 })).flashAdvance e flashSteps
        | .failed =>
          if k ≥ 7 then (s1.unitLost p.curUnit b i).flashFail e p Code.flashUnrecoverable 0
          else s1.updPf e (fun x => { x with ladder := s.ladderNext b k })
    | _, _ => s

/-! ## The start of a fill (R131, R133, R382, R387) -/

/-- A fill waits for its map segment where that is not cached; a segment that maps no unit has never been written. -/
def State.segMissing (s : State) (g : Nat) : Bool :=
  !s.ftc.segs.contains g && s.ftc.units.any (fun u => u.1 / 2048 == g)

/-- A segment used or brought into the cache: the one unused longest leaves a full cache. -/
def State.segTouch (s : State) (g : Nat) : State :=
  let rest := dropFrom s.ftc.segs g
  { s with ftc := { s.ftc with segs := (if rest.length ≥ segMax then rest.drop 1 else rest) ++ [g] } }

/-- Fills in service. -/
def State.fillsActive (s : State) : Nat := (s.xlt.faults.filter (fun e => e.2.svc == .flash && e.2.active)).length

/-- The fill that leaves the queue next: promised classes first. -/
def State.fillNext (s : State) : Option Nat :=
  let promised (e : Nat) : Bool := match s.xlt.faults.look e with
    | some p => p.waiters.any (fun i => match s.req? i with
        | some r => s.reqPromised r
        | none => false)
    | none => false
  match s.xlt.fillWait.find? promised with
  | some e => some e
  | none => s.xlt.fillWait.head?

/-- FLASH_FILL_START: a fill takes a place; it waits while space must first be freed, and fails where that needs a write
that flash has no space for (R387). -/
def State.fillStart (s : State) : State :=
  if !s.runs Blk.ftc ∨ s.fillsActive ≥ fillMax then s
  else
    match s.fillNext with
    | none => s
    | some e =>
      match s.xlt.faults.look e with
      | none => s
      | some p =>
        let l := Pte.lsize p.leaf
        if s.flashLost p.flashAt l then s.pfFail e Code.flashUnrecoverable 0
        else
          match s.takePlace l (Pte.pin p.leaf) with
          | none =>
            if s.pinFull l (Pte.pin p.leaf) then s.pfFail e Code.xlateUnresolved Rsn.tierPinFull
            else if s.ftc.wrstop && !s.cleanRoom l then s.pfFail e Code.xlateUnresolved Rsn.flashFull
            else s
          | some (off, s1) =>
            let miss := s.segMissing p.seg
            let s2 := s1.updPf e (fun x => { x with active := true, place := some off, mapWait := miss, units := 0, ladder := 0, buf := [] })
            let s3 : State := { s2 with
              xlt := { s2.xlt with fillWait := s2.xlt.fillWait.filter (fun k => decide (k ≠ e)) }
              ftc := { s2.ftc with segReads := if miss then addTo s2.ftc.segReads p.seg else s2.ftc.segReads } }
            if miss then s3 else (s3.segTouch p.seg).flashAdvance e flashSteps

/-- MAP_SEGMENT_READ_DONE: the fills that wait for the segment go on. -/
def State.segRead (s : State) (g : Nat) : State :=
  if !s.ftc.segReads.contains g then s
  else
    let s1 : State := { s with ftc := { s.ftc with segReads := dropFrom s.ftc.segReads g } }
    let es := (s.xlt.faults.filter (fun e => e.2.svc == .flash && e.2.active && e.2.mapWait && e.2.seg == g)).map Prod.fst
    forAll es (s1.segTouch g) (fun t e => (t.updPf e (fun x => { x with mapWait := false })).flashAdvance e flashSteps)

/-! ## Evictions and demotions (R78, R127) -/

/-- A stage-2 leaf that names a flash copy of its page. -/
def flashedLeaf (leaf : PTE) (a : Nat) (lp : Bool) : PTE :=
  Pte.set (Pte.setTs (Pte.setPra leaf 6 0 a) Ts.flashed) 9 9 (b2n lp)

/-- Whether the clock may choose a page: its leaf maps it and has no PIN, its slab is not for pinned pages, and where it
is dirty a range can be allocated. -/
def State.pageEvictable (s : State) (e : Nat × DirEntry) : Bool :=
  !e.2.retained && (!e.2.dirty || !s.ftc.wrstop) &&
  (match s.xlt.slabs.look (e.1 / slabBytes) with
   | some b => !b.pinned
   | none => false) &&
  (match s.s2leaf e.2.vdix e.2.ca with
   | some (_, leaf) => decide (Pte.ts leaf = Ts.mapped ∧ Pte.cls leaf = 2 ∧ Pte.offpn leaf * 4096 = e.1) && !Pte.pin leaf
   | none => false)

/-- Whether a fault waits for a whole slab. -/
def State.slabWanted (s : State) : Bool :=
  s.openSlab.isNone &&
  (s.xlt.faults.any (fun e => decide (Pte.lsize e.2.leaf = 21) && !Pte.pin e.2.leaf &&
    (e.2.svc == .zero || (e.2.svc == .flash && s.xlt.fillWait.contains e.1))))

/-- The page that the clock chooses, and the reference bits that it clears as it passes; a whole slab is freed, the one
with the fewest pages, while a fault waits for one. -/
def State.clockPick (s : State) : Option (Nat × DirEntry) × State :=
  let all := s.xlt.dir.filter s.pageEvictable
  let order := all.filter (fun e => decide (s.xlt.clock ≤ e.1)) ++ all.filter (fun e => decide (e.1 < s.xlt.clock))
  let load (e : Nat × DirEntry) : Nat := match s.xlt.slabs.look (e.1 / slabBytes) with
    | some b => b.used.length
    | none => 0
  if s.slabWanted then (leastBy load order, s)
  else
    let passed := order.takeWhile (fun e => e.2.ref)
    let s1 : State := { s with xlt := { s.xlt with
      dir := s.xlt.dir.map (fun e => if passed.any (fun x => x.1 == e.1) then (e.1, { e.2 with ref := false }) else e) } }
    match order.find? (fun e => !e.2.ref) with
    | some e => (some e, s1)
    | none => (order.head?, s1)

/-- The write of a page to a new range begins, where a range is free; else the page waits. -/
def State.pageOut (s : State) (e : Nat) (p : PFault) : State :=
  let l := Pte.lsize p.leaf
  let own := Pte.owner p.leaf
  match s.allocRange p.vdix l with
  | none => s.updPf e (fun x => { x with mapWait := true })
  | some (a, s1) =>
    let r := match p.place with
      | some off =>
        let x := s1.smsRead (tierBase + off) (2 ^ l) (some own) .hw
        (x.1, x.2.2)
      | none => s1.hbmRead (Pte.index p.leaf) (Pte.offpn p.leaf * 4096) own (Pte.lp p.leaf) (2 ^ l)
    (r.2.updPf e (fun x => { x with flash := some (a * 16384), mapWait := false })).ftcWritePage a l own (s.lapBit own) r.1 (.page e)

/-- An HBM page that a demotion has left is to be scrubbed (R78, R540). -/
def State.scrubLeaf (s : State) (p : PFault) : State :=
  { s with sec := { s.sec with scrub := s.sec.scrub ++
    [{ chan := (Pte.index p.leaf).toNat, page := Pte.offpn p.leaf, lsize := Pte.lsize p.leaf, vdix := p.vdix }] } }

/-- A page has reached flash, or was there already: the leaf names the copy at `a`, and the tier-cache page is retained.
Where a TBL write has replaced the leaf meanwhile, page and copy are given up. -/
def State.evicted (s : State) (e : Nat) (p : PFault) (a : Nat) (lp fresh : Bool) : State :=
  let stands := s.pfStands p
  let s1 := if stands then s.pfWrite p (flashedLeaf p.leaf a lp) else if fresh then s.rangeDec a else s
  match p.place with
  | none => (s1.scrubLeaf p).pfEnd e
  | some off =>
    let s2 := match fresh, (s.xlt.dir.look off).bind DirEntry.flash with
      | true, some old => s1.rangeDec old
      | false, some old => if stands then s1 else s1.rangeDec old
      | _, none => s1
    if stands then
      let s3 : State := { s2 with xlt := { s2.xlt with
        dir := s2.xlt.dir.upd off (fun d => { d with flash := some a, lp := lp, dirty := false }) } }
      (s3.retainPlace off true).pfEnd e
    else
      let s3 : State := { s2 with xlt := { s2.xlt with dir := s2.xlt.dir.del off } }
      (s3.freePlace off).pfEnd e

/-- The invalidation of a page that leaves the tier cache or HBM has completed (R127 step 3). -/
def State.evictPurged (s : State) (e : Nat) : State :=
  match s.xlt.faults.look e with
  | none => s
  | some p =>
    if p.svc ≠ .evict then s
    else match p.place with
      | some off =>
        match s.xlt.dir.look off with
        | none => s.pfEnd e
        | some d =>
          if !s.pfStands p then s.evicted e p 0 false false
          else match d.flash, d.dirty with
            | some a, false => s.evicted e p a d.lp false
            | _, _ => s.pageOut e p
      | none => s.pageOut e p

/-- An eviction starts: the leaf becomes BUSY, and its translations are invalidated. -/
def State.evictPage (s : State) (off : Nat) (d : DirEntry) : State :=
  match s.s2leaf d.vdix d.ca, s.freeFault with
  | some (k, leaf), some e =>
    let p : PFault :=
      { vdix := d.vdix, ca := d.ca, key := k, leaf := leaf, svc := .evict, start := s.now, place := some off, active := true
        ctx := d.owner }
    let s1 := s.putPte k (Pte.setTs leaf Ts.busy)
    let s2 : State := { s1 with xlt := { s1.xlt with
      faults := s1.xlt.faults.put e p
      clock := off + 1 } }
    s2.invInternal .s2page d.vdix.toNat (BitVec.ofNat 64 d.ca) (.evict e)
  | _, _ => s

/-- TIER_EVICT_START: a page that waits for a range tries again; else the clock evicts one while the reserve is not met or
a fault waits for space. -/
def State.evictStart (s : State) : State :=
  let ready := !s.ftc.wrstop && s.runs Blk.ftc
  match s.xlt.faults.find? (fun e => e.2.svc == .evict && e.2.mapWait && ready &&
      (s.findRange e.2.vdix (Pte.lsize e.2.leaf)).isSome) with
  | some (e, p) => s.pageOut e p
  | none =>
    if !s.runs Blk.xlt ∨ !(decide (s.tierFree < s.rf .xltTierReserve 11 0) || s.slabWanted) then s
    else
      let r := s.clockPick
      match r.1 with
      | some (off, d) => r.2.evictPage off d
      | none => r.2

/-! ## The sweep (R535 to R538) -/

/-- A page that a pass of the sweep can come to: its place in the pass, the place after it, and its leaf. -/
structure SweepPage where
  pos  : Nat
  next : Nat
  key  : Nat
  ca   : Nat
  leaf : PTE
  deriving DecidableEq, Repr

/-- The pages of a pass: those that the stage-1 tables reach in DVA order, or the virtual device's in CA order, that are
HBM or FLASHED pages of the context under the old lap. -/
def State.sweepPages (s : State) (x : Ctx) (own : CtxId) (pass : Bool) : List SweepPage :=
  let s2 := s.leavesOf (s.vdev x.vdix).s2root.toNat
  let want (e : PTE) : Bool := Pte.owner e == own && (Pte.lp e != x.lap.toNat.testBit 0) &&
    (decide (Pte.cls e = 3) || decide (Pte.cls e = 6))
  let mine := s2.filter (fun l => want l.2.2)
  if pass then mine.map (fun l => { pos := l.2.1, next := l.2.1 + 2 ^ Pte.lsize l.2.2, key := l.1, ca := l.2.1, leaf := l.2.2 })
  else (s.leavesOf x.s1root.toNat).flatMap (fun a =>
    let sp := leafSpan a
    (mine.filter (fun l => spansMeet sp.1 sp.2 l.2.1 (2 ^ Pte.lsize l.2.2))).map (fun l =>
      let p := a.2.1 + (l.2.1 - sp.1)
      { pos := p, next := p + 1, key := l.1, ca := l.2.1, leaf := l.2.2 }))

/-- Clean tier-cache pages whose flash copy is under the old lap are dirty (R537). -/
def State.sweepTier (s : State) (own : CtxId) : State :=
  let bit := s.lapBit own
  let one (e : Nat × DirEntry) : Nat × DirEntry :=
    if e.2.owner = own ∧ e.2.flash.isSome ∧ !e.2.retained ∧ e.2.lp ≠ bit then (e.1, { e.2 with dirty := true }) else e
  { s with xlt := { s.xlt with dir := s.xlt.dir.map one } }

/-- A sweep-progress record (R538). -/
def State.sweepRecord (s : State) (w : Sweep) : State :=
  { s with ftc := { s.ftc with zone := { s.ftc.zone with
    sweeps := s.ftc.zone.sweeps ++ [(w.ctx, w.old, w.new, w.pass, w.upTo)] } } }

/-- Whether a page of a sweep is in progress. -/
def State.sweeping (s : State) (c : CtxId) : Bool :=
  s.sec.regs.any (fun e => e.2.ctx == c) || s.xlt.faults.any (fun e => e.2.svc == .sweep && e.2.ctx == c)

/-- A page of a sweep begins: an HBM page takes its channel's sweep register; a FLASHED page becomes a fault service; one
that is BUSY or in relay is waited for. -/
def State.sweepBegin (s : State) (w : Sweep) (v : Vdix) (g : SweepPage) : State :=
  let l := Pte.lsize g.leaf
  let w2 : Sweep := { w with upTo := g.next, bytes := w.bytes + 2 ^ l }
  let s0 : State := { s with sec := { s.sec with sweep := some w2 } }
  let s1 := if w2.bytes / 2 ^ 30 > w.bytes / 2 ^ 30 then s0.sweepRecord w2 else s0
  if Pte.ts g.leaf = Ts.mapped then
    let r : SweepReg :=
      { ctx := w.ctx, vdix := v, ca := g.ca, key := g.key, page := Pte.offpn g.leaf, lsize := l }
    { s1 with sec := { s1.sec with regs := s1.sec.regs.put (Pte.index g.leaf).toNat r } }
  else if Pte.ts g.leaf = Ts.flashed then
    match s.freeFault with
    | none => s
    | some e =>
      let p : PFault :=
        { vdix := v, ca := g.ca, key := g.key, leaf := g.leaf, svc := .sweep, start := s.now, ctx := w.ctx, active := true }
      let s2 := s1.putPte g.key (Pte.setTs g.leaf Ts.busy)
      ({ s2 with xlt := { s2.xlt with faults := s2.xlt.faults.put e p } }).flashAdvance e flashSteps
  else s

/-- The sweep goes on: the next page, the second pass, the end, or the next context. -/
def State.sweepNext (s : State) : Nat → State
  | 0 => s
  | fuel + 1 =>
    if !s.runs Blk.sec then s
    else
      match s.sec.sweep with
      | none =>
        match s.sec.sweepQ with
        | [] => s
        | c :: rest =>
          match s.ctx? c with
          | some x =>
            if x.sweep then
              let w : Sweep := { ctx := c, old := x.lap - 1, new := x.lap }
              State.sweepNext (({ s with sec := { s.sec with sweep := some w, sweepQ := rest } }).sweepTier c) fuel
            else State.sweepNext { s with sec := { s.sec with sweepQ := rest } } fuel
          | none => State.sweepNext { s with sec := { s.sec with sweepQ := rest } } fuel
      | some w =>
        match s.ctx? w.ctx with
        | none => State.sweepNext { s with sec := { s.sec with sweep := none } } fuel
        | some x =>
          if s.sweeping w.ctx then s
          else
            match leastBy SweepPage.pos ((s.sweepPages x w.ctx w.pass).filter (fun g => decide (w.upTo ≤ g.pos))) with
            | some g => s.sweepBegin w x.vdix g
            | none =>
              if !w.pass then State.sweepNext { s with sec := { s.sec with sweep := some { w with pass := true, upTo := 0 } } } fuel
              else
                let s1 := (s.sweepTier w.ctx).sweepRecord w
                let s2 := s1.updCtx w.ctx (fun y => { y with sweep := false })
                State.sweepNext { s2 with sec := { s2.sec with sweep := none } } fuel

/-- Steps of the sweep that need no event. -/
def sweepSteps : Nat := 256

/-- A swept FLASHED page has been written again (R537). -/
def State.sweptFlash (s : State) (e : Nat) : State :=
  match s.xlt.faults.look e with
  | none => s
  | some p =>
    let lp := s.lapBit (Pte.owner p.leaf)
    let one (x : Nat × DirEntry) : Nat × DirEntry :=
      if x.2.retained ∧ x.2.flash = some p.flashAt then (x.1, { x.2 with lp := lp }) else x
    let s1 : State := { s with xlt := { s.xlt with dir := s.xlt.dir.map one } }
    (s1.pfWrite p (Pte.set p.leaf 9 9 (b2n lp))).pfEnd e

/-- What follows a flash event: suspended operations are looked at again, and the sweep goes on. -/
def State.flashAfter (s : State) : State := (s.suspend).sweepNext sweepSteps

/-! ## The commands -/

def execFlashFillStart (s : State) : Host.Outcome State Fault Refusal := done s.fillStart.flashAfter

def execMapSegmentReadDone (seg : Nat) (s : State) : Host.Outcome State Fault Refusal := done (s.segRead seg).flashAfter

def execFlashUnitReadDone (e : BitVec 12) (r : UnitRead) (s : State) : Host.Outcome State Fault Refusal :=
  done (s.unitRead e.toNat r).flashAfter

def execTierEvictStart (s : State) : Host.Outcome State Fault Refusal := done s.evictStart

end Sys2Proof.Machine
end

