-- ==== Sys2Proof/Machine/FtcCmd.lean ====
section
/-! DEFINITION. The flash tier: mount, programs, erases, suspension, patrol, block tests, failed targets, checkpoints
(R372 to R374, R383 to R396). -/

namespace Sys2Proof.Machine

/-! ## Failures of programs, erases and targets (R384, R392, R393) -/

/-- FLASH_TARGET_FAIL: the target's units are rebuilt from their stripes and moved in the background. -/
def State.targetFail (s : State) (t : Nat) : State :=
  match s.ftc.targets.look t with
  | none => s
  | some x =>
    if x.st ≠ .active then s
    else
      let s1 : State := { s with ftc := { s.ftc with targets := s.ftc.targets.put t { x with st := .failed } } }
      let s2 := s1.raise { src := Src.ftcTargetFail, synd := BitVec.ofNat 160 t }
      let bs := (s2.ftc.blocks.filter (fun e => blockTgt e.1 == t)).map Prod.fst
      forAll bs s2 (fun u b =>
        let n := (u.validUnits b).length
        let f := u.ftc
        ({ u with ftc := { f with cntRebuild := sat32 (f.cntRebuild.toNat + n) } }).moveBlock b)

/-- A program or an erase of a block has failed its status: the block becomes GROWN_BAD, and a target that fails on three
blocks within 1 s is FAILED. -/
def State.statusFail (s : State) (b : Nat) (src : BitVec 9) : State :=
  let s1 := s.raise (blockFault src b)
  if (s.block b).st = .grownBad then s1
  else
    let s2 := (s1.setBState b .grownBad).moveBlock b
    match s2.ftc.targets.look (blockTgt b) with
    | none => s2
    | some x =>
      let fails := (x.fails.filter (fun t => decide (s.since t ≤ 1000000000))) ++ [s.now]
      let s3 : State := { s2 with ftc := { s2.ftc with targets := s2.ftc.targets.put (blockTgt b) { x with fails := fails } } }
      if fails.length ≥ 3 then s3.targetFail (blockTgt b) else s3

/-! ## Programs (R384) -/

/-- Whether a program's unit is still wanted at its end: a moved unit still lies where it was moved from, and a page's
range is still allocated. -/
def State.programLive (s : State) (p : Program) : Bool :=
  match p.why with
  | .move b i => (match s.ftc.units.look p.unit with
      | some u => u.loc == some (b, i)
      | none => false)
  | _ => s.ftc.ranges.any (fun r => decide (r.1 ≤ p.unit ∧ p.unit < r.1 + r.2.units))

/-- A unit's new place stands, and its old one is free. -/
def State.unitPut (s : State) (p : Program) : State :=
  let s1 := match (s.ftc.units.look p.unit).bind Unit.loc with
    | some o => s.clearPage o.1 o.2
    | none => s
  ({ s1 with ftc := { s1.ftc with units := s1.ftc.units.put p.unit { p.val with lost := false } } }).segTouch (p.unit / 2048)

/-- What follows when the last program of a page has passed. -/
def State.pageWritten (s : State) (why : WriteFor) : State :=
  if s.ftc.programs.any (fun p => p.why == why) then s
  else match why with
    | .page e =>
      match s.xlt.faults.look e with
      | some p =>
        (match p.flash with
         | some a =>
           let lp := match s.ftc.units.look (a / 16384) with
             | some u => u.lp
             | none => s.lapBit (Pte.owner p.leaf)
           s.evicted e p a lp true
         | none => s)
      | none => s
    | .sweep e => s.sweptFlash e
    | .move _ _ => s

/-- FLASH_PROGRAM_DONE. -/
def State.programDone (s : State) (id : Nat) (r : PassFail) : State :=
  match s.ftc.programs.find? (fun p => p.id == id) with
  | none => s
  | some p =>
    match p.at_ with
    | none => s
    | some (b, i) =>
      if s.blockHeld b then s
      else
        let rest := s.ftc.programs.filter (fun x => decide (x.id ≠ id))
        let idle := !rest.any (fun x => (x.at_.map Prod.fst) == some b)
        let s0 := s.updBlock b (fun x => { x with work := if idle ∧ x.work = BWork.programming then .idle else x.work })
        match r with
        | .pass =>
          let s1 : State := { s0 with ftc := { s0.ftc with programs := rest } }
          let s2 := if s.programLive p then s1.unitPut p else s1.clearPage b i
          let s3 := match p.why with
            | .move o _ => s2.emptyBlock o
            | _ => s2
          (s3.pageWritten p.why).collect (blockLun b)
        | .fail =>
          let s1 := (s0.clearPage b i).updProgram id (fun x => { x with at_ := none })
          (s1.statusFail b Src.ftcProgFail).placePrograms

def execFlashProgramDone (u : Nat) (r : PassFail) (s : State) : Host.Outcome State Fault Refusal :=
  done (s.programDone u r).flashAfter

/-- STRIPE_CLOSE_TIMEOUT: a stripe without a write for 1 ms is padded and closed (R383). -/
def State.stripeTimeout (s : State) : State :=
  let n := s.ftc.stripeFill.length
  if n = 0 ∨ s.since s.ftc.lastWrite < 1000000 then s
  else
    (forAll (rangeFrom n (stripeUnits - n)) s (fun t i => match (t.dataChan i).bind t.writeBlock with
      | some b => t.takePage b none
      | none => t)).closeStripe

def execStripeCloseTimeout (s : State) : Host.Outcome State Fault Refusal := done s.stripeTimeout

/-! ## Erases and wear (R386, R390, R392, R394) -/

/-- Static levelling of a channel. -/
def State.levelWear (s : State) (c : Nat) : State :=
  let good := s.ftc.blocks.filter (fun e => e.2.chan == c && e.2.st == .good && !e.2.moving)
  match leastBy (fun (e : Nat × Block) => e.2.erases) good, leastBy (fun (e : Nat × Block) => 2 ^ 40 - e.2.erases) good with
  | some lo, some hi =>
    if s.runs Blk.ftc ∧ hi.2.erases > lo.2.erases + s.rf .ftcWear 15 0 ∧ !(s.validUnits lo.1).isEmpty then s.moveBlock lo.1 else s
  | _, _ => s

/-- Whether the erases that the mount left have finished (R395). -/
def State.mountErased (s : State) : Bool :=
  let g := s.ftcGeom
  decide ((s.ftc.blocks.filter (fun e => !e.2.dirty)).length ≥ s.ftcTargets * g.luns * g.blocks)

/-- A boot-zone block is replaced by the lowest-numbered good block of its LUN that holds nothing. -/
def State.zoneReplace (s : State) (b : Nat) : State :=
  let s1 := s.setBState b .grownBad
  let base := blockLun b * 2 ^ 20
  match (rangeFrom base s.ftcGeom.blocks).find? (fun n => (s1.block n).st == .good && (s1.block n).pages.isEmpty) with
  | some n => (s1.setBState n .zone).updBlock n (fun x => { x with dirty := false, work := .idle })
  | none => s1

/-- An erase of a boot-zone block ends: one that fails makes it GROWN_BAD, and another takes its place (R392, R396). -/
def State.zoneErased (s : State) (b : Nat) (r : PassFail) : State :=
  match r with
  | .pass => s.updBlock b (fun x => { x with erases := x.erases + 1 })
  | .fail => (s.raise (blockFault Src.ftcEraseFail b)).zoneReplace b

/-- FLASH_ERASE_DONE. -/
def State.eraseDone (s : State) (b : Nat) (r : PassFail) : State :=
  let x := s.block b
  if s.ftc.mounted ∧ s.blockExists b ∧ x.st = .zone then s.zoneErased b r
  else
    if !s.ftc.mounted ∨ !s.blockExists b ∨ !x.dirty ∨ x.st ≠ .good ∨ s.blockHeld b then s
    else match r with
      | .pass =>
        let n := x.erases + 1
        let s1 := s.updBlock b (fun y => { y with
          dirty := false, pages := [], reads := 0, erases := n, work := .idle, susp := false, suspAt := 0 })
        let s2 : State := if n % 16 = 0 then
            { s1 with ftc := { s1.ftc with zone := { s1.ftc.zone with erases := s1.ftc.zone.erases.put b n } } }
          else s1
        let s3 := if n ≥ s.ftcGeom.endurance then s2.setBState b .worn else s2
        let s4 : State := { s3 with ftc := { s3.ftc with erasing := s3.ftc.erasing && !s3.mountErased } }
        ((s4.levelWear (blockChan b)).collect (blockLun b)).placePrograms
      | .fail => (s.updBlock b (fun y => { y with work := .idle })).statusFail b Src.ftcEraseFail

def execFlashEraseDone (b : Nat) (r : PassFail) (s : State) : Host.Outcome State Fault Refusal :=
  done (s.eraseDone b r).flashAfter

/-- FLASH_SUSPEND_LIMIT: an operation that has been suspended for 2 ms runs for one tR (R386). -/
def State.suspendLimit (s : State) (b : Nat) : State :=
  let x := s.block b
  if x.susp ∧ s.since x.suspAt ≥ 2000000 then s.updBlock b (fun y => { y with susp := false, suspAt := s.now }) else s

def execFlashSuspendLimit (b : Nat) (s : State) : Host.Outcome State Fault Refusal := done (s.suspendLimit b)

/-! ## Patrol and tests (R391, R392) -/

/-- Blocks that a patrol pass checks. -/
def State.patrolSet (s : State) : List Nat :=
  (s.ftc.blocks.filter (fun e => e.2.st == .zone || !(s.validUnits e.1).isEmpty)).map Prod.fst

/-- Whether the patrol pass has outlasted its interval; the source is active until the pass ends. -/
def State.patrolClock (s : State) : State :=
  let ended := s.patrolSet.all (fun b => s.ftc.patrolled.contains b)
  let s1 : State := if ended then { s with ftc := { s.ftc with patrolAt := s.now, patrolled := [] } } else s
  let late := decide (s1.since s1.ftc.patrolAt > s.rf .ftcPatrol 23 16 * 3600000000000)
  s1.condFault { src := Src.ftcPatrolLate } late

/-- The first valid unit among the first, middle and last written pages of a block. -/
def State.patrolUnit (s : State) (b : Nat) : Option (Nat × Nat) :=
  let us := s.validUnits b
  let n := (s.block b).pages.length
  match us.find? (fun u => [0, n / 2, n - 1].contains u.2) with
  | some u => some u
  | none => us.head?

/-- FLASH_PATROL_CHECK: the step that the check needed, and whether it decoded. -/
def State.patrolCheck (s : State) (b k : Nat) (ok : Bool) : State :=
  let x := s.block b
  if !s.runs Blk.ftc ∨ !s.ftc.mounted ∨ !s.patrolSet.contains b then s
  else
    let s0 : State := { s with ftc := { s.ftc with patrolled := addTo s.ftc.patrolled b } }
    let s1 := s0.updBlock b (fun y => { y with reads := y.reads + 3 })
    let s2 :=
      if x.st = .zone then (if k ≥ 5 ∨ !ok then s1.zoneReplace b else s1)
      else if !ok then
        match s1.patrolUnit b with
        | some u => s1.unitLost u.1 b u.2
        | none => s1
      else
        let s3 := s1.unitDecoded b k
        let old := s.since x.progAt > s.rf .ftcPatrol 31 24 * 86400000000000
        let worn := (s3.block b).reads > s.rf .ftcPatrol 15 8 * 1000
        if (k ≥ s.rf .ftcPatrol 2 0) ∨ old ∨ worn then s3.moveBlock b else s3
    s2.patrolClock

def execFlashPatrolCheck (b : Nat) (step : BitVec 3) (ok : Bool) (s : State) : Host.Outcome State Fault Refusal :=
  done (s.patrolCheck b step.toNat ok).flashAfter

/-- FLASH_BLOCK_TEST: a SUSPECT block whose valid units have left is erased, programmed and read. -/
def State.blockTest (s : State) (b : Nat) (r : PassFail) : State :=
  let x := s.block b
  if !s.runs Blk.ftc ∨ !s.ftc.mounted ∨ x.st ≠ .suspect ∨ !(s.validUnits b).isEmpty then s
  else match r with
    | .pass => (s.updBlock b (fun y => { y with erases := y.erases + 1, dirty := true, pages := [], work := .erasing, moving := false })).setBState b .good
    | .fail => s.setBState b .grownBad

def execFlashBlockTest (b : Nat) (r : PassFail) (s : State) : Host.Outcome State Fault Refusal := done (s.blockTest b r)

def execFlashTargetFail (chan : BitVec 5) (tgt : BitVec 3) (s : State) : Host.Outcome State Fault Refusal :=
  done (s.targetFail (chan.toNat * 8 + tgt.toNat)).flashAfter

/-! ## Calibration and checkpoints (R374, R396) -/

def execZqCalShort (s : State) : Host.Outcome State Fault Refusal :=
  done (if s.ftc.mounted ∧ s.since s.ftc.zqAt ≥ 100000000 then { s with ftc := { s.ftc with zqAt := s.now } } else s)

/-- BLOCK_TABLE_CHECKPOINT: erase counts and states of all blocks that differ from the default. -/
def State.checkpoint (s : State) : State :=
  if !s.ftc.mounted ∨ s.since s.ftc.chkAt < 600000000000 then s
  else
    let z := s.ftc.zone
    let er := s.ftc.blocks.foldl (fun m e => m.put e.1 e.2.erases) z.erases
    let bad := s.ftc.blocks.foldl (fun m e => if e.2.st = .good then m.del e.1 else m.put e.1 e.2.st) z.badBlocks
    ({ s with ftc := { s.ftc with zone := { z with erases := er, badBlocks := bad }, chkAt := s.now } }).patrolClock

def execBlockTableCheckpoint (s : State) : Host.Outcome State Fault Refusal := done s.checkpoint

/-! ## Mount (R372, R373, R395, R396) -/

/-- Whether a target's own conditions hold, and whether its geometry is another's. -/
def targetFits (t : TargetInfo) : Bool := t.meets && decide (1 ≤ t.luns ∧ t.luns ≤ 8)
def sameGeom (a b : TargetInfo) : Bool := decide (a.luns = b.luns ∧ a.blocks = b.blocks ∧ a.pages = b.pages)

/-- Targets found, before those in excess are named. -/
def attachTargets (ts : List TargetInfo) : Map Target :=
  let m : Map Target := ts.foldl (fun m t => m.put (t.chan.toNat * 8 + t.tgt.toNat)
    { info := t, st := if !t.answers then .absent else if targetFits t then .active else .incompatible }) []
  match m.find? (fun e => e.2.st == .active) with
  | none => m
  | some f => m.map (fun e => if e.2.st = .active ∧ !sameGeom e.2.info f.2.info then (e.1, { e.2 with st := .incompatible }) else e)

/-- Active targets of a channel. -/
def activeOn (m : Map Target) (c : Nat) : List Nat := (m.filter (fun e => e.1 / 8 == c && e.2.st == .active)).map Prod.fst

/-- The number of targets in use on every populated channel (R373). -/
def targetsPer (m : Map Target) : Nat :=
  let cs := (rangeFrom 0 32).filter (fun c => !(activeOn m c).isEmpty)
  let t := ((leastBy id (cs.map (fun c => (activeOn m c).length))).getD 0)
  match m.find? (fun e => e.2.st == .active) with
  | none => 0
  | some f =>
    let fits (k : Nat) : Bool := decide (cs.length * k * f.2.info.luns * f.2.info.blocks * f.2.info.pages ≤ 2 ^ 33) &&
      decide (cs.length * k * f.2.info.luns * f.2.info.blocks ≤ 8388608)
    ((rangeFrom 0 (t + 1)).filter fits).getLast?.getD 0

/-- Targets with those in excess named. -/
def mountTargets (ts : List TargetInfo) : Map Target :=
  let m := attachTargets ts
  let t := targetsPer m
  m.map (fun e => if e.2.st = .active ∧ !((activeOn m (e.1 / 8)).take t).contains e.1 then (e.1, { e.2 with st := .excess }) else e)

/-- Rate that each channel runs at (R374). -/
def mountRates (m : Map Target) (rate : Nat) : Map (BitVec 3) :=
  (rangeFrom 0 32).foldl (fun r c =>
    match leastBy id ((m.filter (fun e => e.1 / 8 == c && e.2.st == .active)).map (fun e => e.2.info.rate.toNat)) with
    | some k => r.put c (BitVec.ofNat 3 (min k rate))
    | none => r) []

/-- Blocks of one copy of the boot zone, for blocks of a number of pages (R396). -/
def zoneBlocks (pages : Nat) : Nat :=
  if pages = 0 then 0
  else 2 + ([10240, 1024, 4096, 16384, 16384, 131072].map (fun n => (n + pages - 1) / pages)).sum

/-- The channel of a copy of the boot zone. -/
def zoneChan (chans copy : Nat) : Nat := if copy = 0 then 0 else if chans = 32 then 16 else chans / 2

/-- The winning lap slot (R398): the highest sequence number that is committed. -/
def BootZone.winner (z : BootZone) : Option (Bool × LapSlot) :=
  let ok (b : Bool) (x : Option LapSlot) : Option (Bool × LapSlot) := match x with
    | some y => if z.commits.contains (b, y.seq) then some (b, y) else none
    | none => none
  match ok false z.lapA, ok true z.lapB with
  | some a, some b => if a.2.seq ≥ b.2.seq then some a else some b
  | some a, none => some a
  | none, x => x

/-- FLASH_MOUNT. -/
def State.flashMount (s : State) (ts : List TargetInfo) : State :=
  if s.ftc.mounted ∨ !s.runs Blk.ftc ∨ s.rpc.inReset ∨ !s.islandOn 93 then s
  else
    let m := mountTargets ts
    let z0 := s.ftc.zone
    let s1 : State := { s with ftc := { zone := z0, targets := m, chrate := mountRates m (s.ce .ftcCtrl 2 0)
                                        mounted := true, erasing := true, zqAt := s.now, chkAt := s.now, patrolAt := s.now } }
    let g := s1.ftcGeom
    let n := zoneBlocks g.pages
    let chans := s1.ftcChans.length
    let there (copy : Nat) : Bool := (m.look (zoneChan chans copy * 8)).any (fun t => t.st == .active)
    let c0 := z0.copy0 && there 0
    let c1 := z0.copy1 && there 1
    let z1 : BootZone := if !c0 ∧ !c1 then { copy0 := there 0, copy1 := there 1 } else { z0 with copy0 := there 0, copy1 := there 1 }
    let z2 : BootZone := { z1 with sweeps := [], erases := z1.erases.map (fun e => (e.1, e.2 + 16)) }
    let bad : Map BState := m.foldl (fun b e =>
      e.2.info.factoryBad.foldl (fun b k => b.put (e.1 * 2 ^ 23 + k) .factoryBad) b) z2.badBlocks
    let usable (c : Nat) : List Nat :=
      (rangeFrom (c * 2 ^ 26) g.blocks).filter (fun b => match bad.look b with
        | some .good => true
        | some .zone => true
        | some _ => false
        | none => true)
    let zc0 := if there 0 then (usable (zoneChan chans 0)).take n else []
    let zc1 := if there 1 then ((usable (zoneChan chans 1)).filter (fun b => !zc0.contains b)).take n else []
    let bad2 := (zc0 ++ zc1).foldl (fun b k => b.put k .zone) bad
    let blk (e : Nat × BState) : Nat × Block :=
      (e.1, { chan := blockChan e.1, tgt := blockTgt e.1 % 8, lun := blockLun e.1 % 8, st := e.2
              erases := (z2.erases.look e.1).getD 0 })
    let z3 : BootZone := { z2 with badBlocks := bad2 }
    let s2 : State := { s1 with ftc := { s1.ftc with
      zone := z3
      blocks := (bad2.filter (fun e => e.2 != .good)).map blk } }
    let s3 := if !c0 ∧ !c1 then s2.raise { src := Src.ftcZoneLost }
      else if c0 ∧ c1 then s2
      else s2.raise { src := Src.ftcZoneCopy }
    let w := z3.winner
    let s4 : State := { s3 with sec := { s3.sec with
      lapBase := (w.map (fun x => x.2.base)).getD 0
      laps := (w.map (fun x => x.2.ctx)).getD []
      linkLaps := (w.map (fun x => x.2.link)).getD [] } }
    let used (g : Nat) : Bool := m.any (fun t => t.2.st == .active && t.1 / 8 / 4 == g)
    forAll (rangeFrom 0 8) s4.ftcSpareCheck (fun t g => t.setDomain (528 + g) (used g))

def execFlashMount (targets : List TargetInfo) (s : State) : Host.Outcome State Fault Refusal := done (s.flashMount targets)

end Sys2Proof.Machine
end

