-- ==== Sys2Proof/Machine/PageMove.lean ====
section
/-! DEFINITION. Pages that BND moves to a new home (R107, R482 to R486). The stream carries each write in the order of the
old ordering point, so the new home ends with what the old one holds when its last access has drained: the model copies
the page then. -/

namespace Sys2Proof.Machine

/-! ## The bytes of a page -/

/-- One 64 B line of a page at its old home: its bytes, its poison, and whether it holds the owner's data. -/
def State.homeLine (s : State) (cls : Nat) (idx : BitVec 24) (off : Nat) (own : CtxId) (lp : Bool) : (List Byte × Bool × Bool) × State :=
  if cls = 3 then
    let r := s.hbmRead idx off own lp 64
    ((r.1, false, true), r.2)
  else if cls = 0x0A then
    let r := s.tileRead idx off 64
    ((r.1, false, true), r.2)
  else
    let a := smsAddr (BitVec.ofNat 8 cls) off
    let m := s.line a
    if m.owned ∧ m.tag = own then ((s.mem.bytes.readN a 64, m.poison, true), s)
    else ((List.replicate 64 0, false, false), s)

/-- One line placed at the new home. A line of SMS that holds no data of the owner stays without a tag (R62); HBM and tile
memory keep no poison here, and what a poisoned line becomes there is free. -/
def State.putLineAt (s : State) (cls : Nat) (idx : BitVec 24) (off : Nat) (own : CtxId) (lp : Bool) (x : List Byte × Bool × Bool) : State :=
  if cls = 3 then if x.2.1 then s.hbmForget idx off 64 else s.hbmWrite idx off own lp x.1
  else if cls = 0x0A then if x.2.1 then s.tileForget idx off 64 else s.tileWrite idx off x.1
  else
    let a := smsAddr (BitVec.ofNat 8 cls) off
    if x.2.2 then s.smsWrite a x.1 (some own) x.2.1
    else (s.putBytes a x.1).putLine a {}

/-- A page copied line by line. -/
def State.copyPage (s : State) (old : PTE) (m : PageMove) (newLp : Bool) : State :=
  forAll (rangeFrom 0 (2 ^ Pte.lsize old / 64)) s (fun t i =>
    let g := t.homeLine (Pte.cls old).toNat (Pte.index old) (Pte.offpn old * 4096 + 64 * i) (Pte.owner old) (Pte.lp old)
    g.2.putLineAt m.cls.toNat m.idx (m.off + 64 * i) (Pte.owner old) newLp g.1)

/-- The bytes of a page. -/
def State.pageBytes (s : State) (old : PTE) : List Byte × State :=
  forAll (rangeFrom 0 (2 ^ Pte.lsize old / 64)) (([] : List Byte), s) (fun t i =>
    let g := t.2.homeLine (Pte.cls old).toNat (Pte.index old) (Pte.offpn old * 4096 + 64 * i) (Pte.owner old) (Pte.lp old)
    (t.1 ++ g.1.1, g.2))

/-- The flow of BND's copy streams toward a package (R462). -/
def streamKey (p : PkgId) : FlowKey := { pkg := p, dev := true, ctx := 0, gen := 0, queue := 2 }

/-- 4 KiB writes of a page on the copy stream: those of its packets that differ from what it has carried. -/
def State.streamPage (s : State) (m : PageMove) (bs : List Byte) : State :=
  let p : PkgId := BitVec.ofNat 16 (fld m.idx.toNat 15 0)
  let k := streamKey p
  forAll (rangeFrom 0 (bs.length / 4096)) s (fun t i =>
    let x := (bs.drop (4096 * i)).take 4096
    if (m.sent.drop (4096 * i)).take 4096 = x then t
    else
      let f := t.txFlow k
      ((t.putTx { f with next := f.next + 1 }).countFrame f.link).emit
        (.relay 0 k p f.next (BitVec.ofNat 64 (m.ca + 4096 * i)) x false))

/-! ## Translations that the HTU holds (R485) -/

/-- SMS addresses held for a page follow it to its new home. -/
def followSms (old new len : Nat) (a : Nat) : Nat := if old ≤ a ∧ a < old + len then new + (a - old) else a

/-- Held places follow a page. -/
def followPra (cls : Byte) (idx : BitVec 24) (old len : Nat) (m : PageMove) (p : Byte × BitVec 24 × Nat) : Byte × BitVec 24 × Nat :=
  if p.1 = cls ∧ p.2.1 = idx ∧ old ≤ p.2.2 ∧ p.2.2 < old + len then (m.cls, m.idx, m.off + (p.2.2 - old)) else p

/-- Every translation that the HTU holds for a moved page follows it. -/
def State.follow (s : State) (old : PTE) (m : PageMove) : State :=
  let len := 2 ^ Pte.lsize old
  let off := Pte.offpn old * 4096
  let pra := followPra (Pte.cls old) (Pte.index old) off len m
  let sms (a : Nat) : Nat :=
    if (Pte.cls old = 1 ∨ Pte.cls old = 2) ∧ (m.cls = 1 ∨ m.cls = 2) then followSms (smsAddr (Pte.cls old) off) (smsAddr m.cls m.off) len a
    else a
  let fq (q : Queue) : Queue := { q with ring := q.ring.map sms }
  let fc (x : Ctx) : Ctx := { x with
    queues := x.queues.map fq
    evPages := x.evPages.map sms
    dcqPages := x.dcqPages.map sms
    cqPages := x.cqPages.map pra }
  let fr (r : Round) : Round := { r with accPages := r.accPages.map pra, recPages := r.recPages.map pra }
  let fw (w : MemWin) : MemWin := { w with pages := w.pages.map sms }
  let ff (q : FaultQ) : FaultQ := { q with pages := q.pages.map sms }
  { s with
    ctxs := s.ctxs.map (fun e => (e.1, fc e.2))
    map := { s.map with rounds := s.map.rounds.map (fun e => (e.1, fr e.2)) }
    crg := { s.crg with wins := s.crg.wins.map (fun e => (e.1, fw e.2)) }
    xlt := { s.xlt with faultQs := s.xlt.faultQs.map (fun e => (e.1, ff e.2)) } }

/-- Whether the HTU holds an SMS translation for a page. -/
def State.pageHeld (s : State) (old : PTE) : Bool :=
  let a0 := smsAddr (Pte.cls old) (Pte.offpn old * 4096)
  let hit (a : Nat) : Bool := (Pte.cls old == 1 || Pte.cls old == 2) && decide (a0 ≤ a ∧ a < a0 + 2 ^ Pte.lsize old)
  s.ctxs.any (fun e => e.2.evPages.any hit || e.2.dcqPages.any hit || e.2.queues.any (fun q => q.ring.any hit)) ||
  s.crg.wins.any (fun e => e.2.pages.any hit) || s.xlt.faultQs.any (fun e => e.2.pages.any hit)

/-! ## A move -/

/-- Pages that can be between steps 1 and 5. -/
def moveMax : Nat := 512

/-- A move of a page. -/
def State.moveOf (s : State) (v : Vdix) (ca : Nat) : Option PageMove :=
  s.bnd.moves.find? (fun m => m.vdix == v && m.ca == ca)

/-- A move changed or ended. -/
def State.setMove (s : State) (v : Vdix) (ca : Nat) (x : Option PageMove) : State :=
  let rest := s.bnd.moves.filter (fun m => !(m.vdix == v && m.ca == ca))
  { s with bnd := { s.bnd with moves := rest ++ x.toList } }

/-- Whether a place can be a new home: another package of the virtual device, or free memory in its usable grant. -/
def State.homeFree (s : State) (v : Vdix) (leaf : PTE) (cls : Byte) (idx : BitVec 24) (off : Nat) : Bool :=
  let new := Pte.setPra leaf cls.toNat idx.toNat off
  if cls = 7 then s.inGrant v new && !s.pageHeld leaf
  else
    (cls == 1 || cls == 3 || cls == 0x0A) && decide (off % 2 ^ Pte.lsize leaf = 0) &&
    s.praIn cls.toNat idx.toNat off (2 ^ Pte.lsize leaf) && s.inGrant v new && (cls == 1 || !s.pageHeld leaf) &&
    !((s.leavesOf (s.vdev v).s2root.toNat).any (fun x => Pte.ts x.2.2 == Ts.mapped && Pte.cls x.2.2 == cls && Pte.index x.2.2 == idx &&
      rangesClash (Pte.offpn x.2.2 * 4096) (2 ^ Pte.lsize x.2.2) off (2 ^ Pte.lsize leaf)))

/-- A leaf in state ZERO or HOST that goes to another package is rewritten at once (R484). -/
def State.moveEmpty (s : State) (v : Vdix) (key : Nat) (leaf : PTE) (cls : Byte) (idx : BitVec 24) : State :=
  if cls = 7 ∧ s.inGrant v (Pte.setPra leaf 7 idx.toNat 0) then
    s.putPte key (Pte.setTs (Pte.setPra leaf 7 idx.toNat 0) Ts.mapped)
  else s

/-- The fault service of a FLASHED page that BND starts (R484): it has no waiter. -/
def State.moveFill (s : State) (v : Vdix) (ca key : Nat) (leaf : PTE) : State :=
  match s.freeFault with
  | none => s
  | some e =>
    let p : PFault := { vdix := v, ca := ca, key := key, leaf := leaf, svc := .flash, start := s.now
                        ctx := Pte.owner leaf, func := (s.vdev v).grant.func }
    let s1 := s.putPte key (Pte.setTs leaf Ts.busy)
    ({ s1 with xlt := { s1.xlt with faults := s1.xlt.faults.put e p } } : State).serveFault e false

/-- PAGE_MOVE_START: steps 1 and 2 begin; other tier states by R484. -/
def State.moveStart (s : State) (v : Vdix) (a : Nat) (cls : Byte) (idx : BitVec 24) (off : Nat) : State :=
  if !s.runs Blk.bnd ∨ !(s.vdev v).vv ∨ (s.vdev v).st ≠ .bound then s
  else
    match s.s2leaf v a with
    | none => s
    | some (key, leaf) =>
      let ca := pageBase a (Pte.lsize leaf)
      if (s.moveOf v ca).isSome ∨ s.bnd.moves.length ≥ moveMax then s
      else if Pte.ts leaf = Ts.zero ∨ Pte.ts leaf = Ts.host then s.moveEmpty v key leaf cls idx
      else if Pte.ts leaf = Ts.flashed then s.moveFill v ca key leaf
      else if movable leaf && s.homeFree v leaf cls idx off then
        s.setMove v ca (some { vdix := v, ca := ca, leaf := leaf, cls := cls, idx := idx, off := if cls = 7 then 0 else off })
      else s

def execPageMoveStart (v : Vdix) (ca : BitVec 56) (cls : Byte) (idx : BitVec 24) (off : BitVec 48) (s : State) :
    Host.Outcome State Fault Refusal := done (s.moveStart v ca.toNat cls idx off.toNat)

/-- Whether two leaves map the same page alike: the bits that the HTU itself sets apart. -/
def sameMapping (a b : PTE) : Bool :=
  let f (e : PTE) : PTE := Pte.set (Pte.set (Pte.set e 13 13 0) 14 14 0) 9 9 0
  f a == f b

/-- PAGE_MOVE_COPY_DONE: step 3. A leaf that has changed starts the move again; a BUSY one is waited for (R486). -/
def State.moveCopied (s : State) (v : Vdix) (ca : Nat) : State :=
  match s.moveOf v ca with
  | none => s
  | some m =>
    if m.step ≠ 1 then s
    else
      match s.s2leaf v ca with
      | none => s.setMove v ca none
      | some (key, leaf) =>
        if Pte.ts leaf = Ts.busy ∨ (s.xlt.invs ++ s.xlt.invWait).any (fun i => i.after == .pageMove v ca) then s
        else if !movable leaf then s.setMove v ca none
        else if !sameMapping leaf m.leaf then s.setMove v ca (some { m with leaf := leaf })
        else
          let g := if m.cls = 7 then s.pageBytes leaf else ([], s)
          let s1 := if m.cls = 7 then g.2.streamPage m g.1 else g.2
          let s2 := s1.setMove v ca (some { m with step := 2, leaf := leaf, sent := g.1 })
          (s2.putPte key (Pte.setTs (Pte.setPra leaf m.cls.toNat m.idx.toNat m.off) Ts.relay)).invInternal .s2page v.toNat
            (BitVec.ofNat 64 ca) (.pageMove v ca)

def execPageMoveCopyDone (v : Vdix) (ca : BitVec 56) (s : State) : Host.Outcome State Fault Refusal := done (s.moveCopied v ca.toNat)

/-- The invalidation of step 3 has completed: no access reaches the old home any more, and the tail of a stream to another
package leaves. -/
def State.moveInvDone (s : State) (v : Vdix) (ca : Nat) : State :=
  match s.moveOf v ca with
  | none => s
  | some m =>
    if m.step ≠ 2 then s
    else
      let g := if m.cls = 7 then s.pageBytes m.leaf else ([], s)
      let s1 := if m.cls = 7 then g.2.streamPage m g.1 else g.2
      s1.setMove v ca (some { m with step := 3 })

/-- The old home of a page that has moved: HBM waits for its scrub, a tier place is free. -/
def State.leaveHome (s : State) (v : Vdix) (old : PTE) : State :=
  let off := Pte.offpn old * 4096
  if Pte.cls old = 3 then
    { s with sec := { s.sec with scrub := s.sec.scrub ++ [{ chan := (Pte.index old).toNat, page := off / 4096, lsize := Pte.lsize old, vdix := v }] } }
  else if Pte.cls old = 2 then
    let s1 := match (s.xlt.dir.look off).bind DirEntry.flash with
      | some a => s.rangeDec a
      | none => s
    ({ s1 with xlt := { s1.xlt with dir := s1.xlt.dir.del off } } : State).freePlace off
  else s

/-- RELAY_WINDOW_CLOSE: steps 4 and 5. -/
def State.moveClose (s : State) (v : Vdix) (ca : Nat) : State :=
  match s.moveOf v ca with
  | none => s
  | some m =>
    if m.step ≠ 3 then s
    else
      match s.s2leaf v ca with
      | none => s.setMove v ca none
      | some (key, leaf) =>
        if Pte.ts leaf ≠ Ts.relay then s.setMove v ca none
        else
          let new := s.withLp (Pte.setTs leaf Ts.mapped)
          let s1 := if m.cls = 7 then s else s.copyPage m.leaf m (Pte.lp new)
          let s2 := ((s1.follow m.leaf m).putPte key new).leaveHome v m.leaf
          let s3 : State := { s2 with bnd := { s2.bnd with cntMove := satInc s2.bnd.cntMove } }
          ((s3.setMove v ca none).relayAgain).removeCheck v

def execRelayWindowClose (v : Vdix) (ca : BitVec 56) (s : State) : Host.Outcome State Fault Refusal := done (s.moveClose v ca.toNat)

/-- PAGE_MOVE_STREAM_FAIL: the page stays at its old home; the third failure of a move is recorded, and the move ends. -/
def State.moveFail (s : State) (v : Vdix) (ca : Nat) : State :=
  match s.moveOf v ca with
  | none => s
  | some m =>
    let s1 := match s.s2leaf v ca with
      | some (key, leaf) => if Pte.ts leaf = Ts.relay then (s.putPte key m.leaf).relayAgain else s
      | none => s
    if m.fails + 1 ≥ 3 then
      (s1.setMove v ca none).raise { src := Src.bndMoveFail, addr := BitVec.ofNat 64 ca, akind := .ca, synd := BitVec.ofNat 160 v.toNat }
    else s1.setMove v ca (some { m with step := 1, fails := m.fails + 1, sent := [] })

def execPageMoveStreamFail (v : Vdix) (ca : BitVec 56) (s : State) : Host.Outcome State Fault Refusal := done (s.moveFail v ca.toNat)

end Sys2Proof.Machine
end

