-- ==== Sys2Proof/Machine/SecCmd.lean ====
section
/-! DEFINITION. SEC and MGT: laps and their updates in the boot zone, the sweep and the scrubs, entropy, SPDM requests,
sessions of the management network, claim, anchors, security version, settings (R398, R399, R526 to R551). -/

namespace Sys2Proof.Machine

/-! ## Laps (R398, R531 to R534) -/

/-- The last lap, which cannot be stepped. -/
def lapMax : Word := 0xFFFFFFFF

/-- Why a LAP command is refused, if it is. -/
def State.lapRefusal (s : State) (link : Bool) (id : Nat) : Option Nat :=
  let sweeping : Bool := !link && (match s.ctx? (BitVec.ofNat 14 id) with
    | some x => x.sweep
    | none => false)
  if link ∧ id ≥ 64 then some Why.missing
  else if sweeping then some Why.state
  else if s.lapStored link id = lapMax then some Why.lapExhausted
  else none

/-- SEQ of the winning lap slot. -/
def State.lapSeq (s : State) : Nat := match s.ftc.zone.winner with
  | some w => w.2.seq
  | none => 0

/-- A lap map with one entry a step further. -/
def lapStepAt (m : Map Word) (id : Nat) : Map Word := m.put id ((m.look id).getD 0 + 1)

/-- A LAP command is served: it is refused, or FTC begins the slot update. -/
def State.lapServe (s : State) (link : Bool) (id : Nat) : State :=
  match s.lapRefusal link id with
  | some why => s.emit (.mgtRefuse why)
  | none =>
    let slot : LapSlot :=
      { seq := s.lapSeq + 1, base := s.sec.lapBase
        ctx := if link then s.sec.laps else lapStepAt s.sec.laps id
        link := if link then lapStepAt s.sec.linkLaps id else s.sec.linkLaps }
    { s with
      ftc := { s.ftc with lapUpd := some slot }
      sec := { s.sec with lapBusy := some (link, id, s.lapStored link id + 1) } }

/-- LAP: one command at a time; another waits for the update in progress. -/
def State.lapCmd (s : State) (link : Bool) (id : Nat) : State :=
  s.byAuthority (fun t =>
    if !t.sec.ready || !t.ftc.mounted then t.emit (.mgtRefuse Why.state)
    else if t.ftc.lapUpd.isSome then { t with sec := { t.sec with lapQ := t.sec.lapQ ++ [(link, id)] } }
    else t.lapServe link id)

def execLap (link : Bool) (id : BitVec 14) (s : State) : Host.Outcome State Fault Refusal := done (s.lapCmd link id.toNat)

/-- Waiting LAP commands are served until one begins an update. -/
def State.lapNext (s : State) : List (Bool × Nat) → State
  | [] => s
  | (link, id) :: rest =>
    let s1 := ({ s with sec := { s.sec with lapQ := rest } }).lapServe link id
    if s1.ftc.lapUpd.isSome then s1 else s1.lapNext rest

/-- Whether some lap has reached the last value. -/
def State.lapsOver (s : State) : Bool :=
  s.sec.lapBase == lapMax || (s.sec.laps ++ s.sec.linkLaps).any (fun e => s.sec.lapBase + e.2 == lapMax)

/-- Laps one greater; those at the last value stay. -/
def lapStepAll (base : Word) (m : Map Word) : Map Word := m.map (fun e => if base + e.2 = lapMax then (e.1, e.2 - 1) else e)

/-- LAP_STEP (R533): FTC begins the update that steps every lap. -/
def State.lapStep (s : State) : State :=
  if !s.ftc.mounted || !s.sec.fuses || s.sec.stepped || s.ftc.lapUpd.isSome then s
  else
    let b := s.sec.lapBase
    let slot : LapSlot :=
      if b = lapMax then { seq := s.lapSeq + 1, base := b, ctx := s.sec.laps, link := s.sec.linkLaps }
      else { seq := s.lapSeq + 1, base := b + 1, ctx := lapStepAll b s.sec.laps, link := lapStepAll b s.sec.linkLaps }
    let s1 : State := { s with
      ftc := { s.ftc with lapUpd := some slot, lapStepUpd := true }
      sec := { s.sec with stepped := true } }
    if s.lapsOver then s1.raise { src := Src.secLapExhaust } else s1

def execLapStep (s : State) : Host.Outcome State Fault Refusal := done s.lapStep

/-- The boot zone with a lap slot written over the one that does not hold the winner, and committed (R398). -/
def BootZone.putLap (z : BootZone) (slot : LapSlot) : BootZone :=
  let b : Bool := match z.winner with
    | some w => !w.1
    | none => false
  let commits := z.commits.filter (fun c => c.1 != b) ++ [(b, slot.seq)]
  if b then { z with lapB := some slot, commits := commits } else { z with lapA := some slot, commits := commits }

/-- SEC takes a context's or a link's new lap into use (R531, R534). -/
def State.lapUse (s : State) (link : Bool) (id : Nat) (new : Word) : State :=
  if link then
    let l : OLink := BitVec.ofNat 6 id
    if (s.olink l).carries then (s.updOlink l (fun x => { x with txLap := new, frames := 0 })).emit (.control id new) else s
  else
    let c : CtxId := BitVec.ofNat 14 id
    match s.ctx? c with
    | none => s
    | some _ =>
      let s1 := s.updCtx c (fun x => { x with lap := new, sweep := true })
      ({ s1 with sec := { s1.sec with sweepQ := s1.sec.sweepQ ++ [c] } }).sweepNext sweepSteps

/-- LAP_COMMIT_REPORT. -/
def State.lapCommit (s : State) : State :=
  match s.ftc.lapUpd with
  | none => s
  | some slot =>
    if !s.ftc.mounted || !s.runs Blk.ftc then s
    else
      let step := s.ftc.lapStepUpd
      let exhausted := s.lapsOver
      let s1 : State := { s with
        ftc := { s.ftc with zone := s.ftc.zone.putLap slot, lapUpd := none, lapStepUpd := false }
        sec := { s.sec with
          lapBase := slot.base, laps := slot.ctx, linkLaps := slot.link, lapBusy := none
          ready := s.sec.ready || (step && !exhausted) } }
      let s2 := match s.sec.lapBusy with
        | some (link, id, new) => (s1.lapUse link id new).mgtDone 0
        | none => s1
      s2.lapNext s2.sec.lapQ

def execLapCommitReport (s : State) : Host.Outcome State Fault Refusal := done s.lapCommit

/-! ## The sweep and the scrubs (R535 to R542) -/

/-- Whether a leaf is still the page of a sweep register. -/
def SweepReg.stands (r : SweepReg) (chan : Nat) (e : PTE) (old : Bool) : Bool :=
  Pte.leaf e && decide (Pte.cls e = 3) && decide ((Pte.index e).toNat = chan) && decide (Pte.offpn e = r.page) &&
  Pte.owner e == r.ctx && Pte.lsize e == r.lsize && Pte.lp e == old

/-- The bytes of a page under a context's old lap are under its new one. -/
def State.rekey (s : State) (chan : Nat) (r : SweepReg) (old new : Word) : State :=
  let a := hbmKey (BitVec.ofNat 24 chan) (r.page * 4096)
  let one (e : Nat × (Byte × CtxId × Word × Word)) : Nat × (Byte × CtxId × Word × Word) :=
    if a ≤ e.1 ∧ e.1 < a + 2 ^ r.lsize ∧ e.2.2.1 = r.ctx ∧ e.2.2.2.2 = old then (e.1, (e.2.1, r.ctx, e.2.2.2.1, new)) else e
  { s with mem := { s.mem with hbm := s.mem.hbm.map one } }

/-- SWEEP_PAGE_DONE: the cursor of a channel's sweep register reaches the end of its page. A TBL write that has won the
compare ends the sweep of the page. -/
def State.sweepPageDone (s : State) (chan : Nat) : State :=
  if !s.runs Blk.sec then s
  else
    match s.sec.regs.look chan, s.sec.sweep with
    | some r, some w =>
      if r.finished then s
      else
        let e := s.pte r.key
        let old := w.old.toNat.testBit 0
        if r.stands chan e old then
          let s1 := (s.putPte r.key (Pte.set e 9 9 (b2n (!old)))).rekey chan r w.old w.new
          let s2 : State := { s1 with sec := { s1.sec with
            regs := s1.sec.regs.put chan { r with finished := true, cursor := 2 ^ r.lsize / 64 } } }
          s2.invInternal .s2page r.vdix.toNat (BitVec.ofNat 64 r.ca) (.sweepReg chan)
        else ({ s with sec := { s.sec with regs := s.sec.regs.del chan } }).sweepNext sweepSteps
    | _, _ => s.sweepNext sweepSteps

def execSweepPageDone (chan : BitVec 4) (s : State) : Host.Outcome State Fault Refusal := done (s.sweepPageDone chan.toNat)

/-- SCRUB_PAGE_DONE: a page goes back to its pool as zeros in raw form; one that meets a write error stays out of it. -/
def State.scrubDone (s : State) (chan page : Nat) (r : PassFail) : State :=
  match s.sec.scrub.find? (fun x => x.chan == chan && x.page == page) with
  | none => s
  | some x =>
    if !s.runs Blk.sec then s
    else
      let a := hbmKey (BitVec.ofNat 24 chan) (page * 4096)
      let s1 : State := { s with
        sec := { s.sec with scrub := dropFrom s.sec.scrub x }
        mem := { s.mem with hbm := s.mem.hbm.filter (fun e => !(decide (a ≤ e.1 ∧ e.1 < a + 2 ^ x.lsize))) } }
      match r with
      | .pass => s1
      | .fail => ({ s1 with sec := { s1.sec with badPages := addTo s1.sec.badPages (chan, page) } }).raise
          { src := Src.secScrubFail, addr := BitVec.ofNat 64 (page * 4096), akind := .pra, pcls := 3 }

def execScrubPageDone (chan : BitVec 4) (page : BitVec 24) (r : PassFail) (s : State) : Host.Outcome State Fault Refusal :=
  done (s.scrubDone chan.toNat page.toNat r)

/-! ## Entropy and attestation (R526, R543) -/

/-- ENTROPY_HEALTH_FAIL. -/
def State.entropyFail (s : State) : State :=
  if s.sec.entropy then ({ s with sec := { s.sec with entropy := false } }).raise { src := Src.secEntropy } else s

def execEntropyHealthFail (s : State) : Host.Outcome State Fault Refusal := done s.entropyFail

/-- SPDM request codes (notes/assumptions/42) that SEC supports: GET_DIGESTS, GET_CERTIFICATE, CHALLENGE, GET_VERSION,
CHUNK_SEND, CHUNK_GET, GET_MEASUREMENTS, GET_CAPABILITIES, NEGOTIATE_ALGORITHMS, KEY_EXCHANGE, FINISH, HEARTBEAT,
KEY_UPDATE, END_SESSION. -/
def spdmCodes : List Nat := [0x81, 0x82, 0x83, 0x84, 0x85, 0x86, 0xE0, 0xE1, 0xE3, 0xE4, 0xE5, 0xE8, 0xE9, 0xEC]
/-- KEY_EXCHANGE. -/
def spdmKeyExchange : Nat := 0xE4

/-- Whether a requester can reach SEC's responder: DOE on the PF of link A, a session, or a Relay link that is training its
attestation or carries traffic. -/
def State.spdmPath (s : State) : Who → Bool
  | .host f => s.isPf f && s.fnLink f % 2 == 0 && (s.link (s.fnLink f)).dlup && !(s.link (s.fnLink f)).frozen
  | .mgt p n => s.mgt.sessions.any (fun x => x.port == p.toNat && x.num == n.toNat && x.right != .claim)
  | .fabric l => s.olinkMode l == 1 && (s.olink l).st != .down && (s.olink l).st != .training
  | _ => false

/-- SPDM_REQUEST: a request that is not supported gets an error; a key exchange waits for entropy, and there is none over
DOE. -/
def State.spdm (s : State) (via : Who) (msg : Byte) : State :=
  let doe : Bool := match via with
    | .host _ => true
    | _ => false
  if !s.spdmPath via then s
  else if msg.toNat = spdmKeyExchange ∧ !doe ∧ !s.sec.entropy then
    { s with sec := { s.sec with keyx := s.sec.keyx ++ [(via, msg)] } }
  else s.emit (.spdm via msg (spdmCodes.contains msg.toNat && !(doe && msg.toNat == spdmKeyExchange)))

def execSpdmRequest (via : Who) (msg : Byte) (s : State) : Host.Outcome State Fault Refusal := done (s.spdm via msg)

/-! ## Settings records (R399) -/

/-- The newest record of a schema, with its slot. -/
def BootZone.current (z : BootZone) (schema : Nat) : Option (Nat × Settings) :=
  z.settings.foldl (fun best e =>
    if e.2.schema ≠ schema then best
    else match best with
      | none => some e
      | some b => if b.2.seq < e.2.seq then some e else best) none

/-- The highest SEQ of any record. -/
def BootZone.settingsSeq (z : BootZone) : Nat := z.settings.foldl (fun m e => max m e.2.seq) 0

/-- The slot that a record of a schema goes to: the other slot of the current pair, else the pair that no newest record
stands in, else slot 0. -/
def BootZone.nextSlot (z : BootZone) (schema : Nat) : Nat :=
  match z.current schema with
  | some c => if c.1 % 2 = 0 then c.1 + 1 else c.1 - 1
  | none =>
    match leastBy (fun e => z.settingsSeq - e.2.seq) z.settings with
    | some e => if e.1 < 2 then 2 else 0
    | none => 0

/-- The firmware writes a settings record and applies it. -/
def State.writeSettings (s : State) (schema body : Nat) (anchors : List (BitVec 2 × BitVec 64)) : State :=
  let z := s.ftc.zone
  let r : Settings := { schema := schema, seq := z.settingsSeq + 1, body := body, anchors := anchors }
  { s with
    ftc := { s.ftc with zone := { z with settings := (Map.put z.settings (z.nextSlot schema) r) } }
    rpc := { s.rpc with settings := some r }
    sec := { s.sec with anchors := anchors.foldl (fun m e => m.put e.1.toNat e.2) [] } }

/-- The trust anchors in force. -/
def State.anchorList (s : State) : List (BitVec 2 × BitVec 64) := s.sec.anchors.map (fun e => (BitVec.ofNat 2 e.1, e.2))

/-- The anchors change: the firmware writes them with the settings in force. -/
def State.setAnchors (s : State) (anchors : List (BitVec 2 × BitVec 64)) : State :=
  let schema := match s.rpc.running with
    | some i => i.schema
    | none => 0
  s.writeSettings schema (match s.rpc.settings with
    | some r => r.body
    | none => 0) anchors

/-- SETTINGS_COMMAND: the firmware writes records only in a schema of its own; anchors have their own command. -/
def State.settingsCmd (s : State) (r : Settings) : State :=
  s.byAuthority (fun t =>
    match t.rpc.running with
    | none => t.emit (.mgtRefuse Why.state)
    | some i =>
      if r.schema ≠ i.schema ∨ !t.ftc.mounted then t.emit (.mgtRefuse Why.state)
      else (t.writeSettings r.schema r.body t.anchorList).mgtDone 1)

def execSettingsCommand (r : Settings) (s : State) : Host.Outcome State Fault Refusal := done (s.settingsCmd r)

/-! ## Sessions, claim, anchors (R546 to R551) -/

/-- Sessions of a port. -/
def sessionMax : Nat := 8

/-- Whether an operator anchor is installed. -/
def State.anchorRight (s : State) (a : BitVec 64) : Option Right :=
  if s.sec.anchors.look 0 = some a ∨ s.sec.anchors.look 1 = some a then some .operator
  else if s.sec.anchors.look 2 = some a ∨ s.sec.anchors.look 3 = some a then some .monitor
  else none

/-- Whether MGT is ready (R553, R595). -/
def State.mgtReady (s : State) : Bool :=
  s.mgt.up.any (fun b => b) && s.sec.ready && s.sec.fuses && s.runs Blk.mgt

/-- The sessions of a port. -/
def State.sessionsOn (s : State) (p : Nat) : List Session := s.mgt.sessions.filter (fun x => x.port == p)

/-- MGT_SESSION_CONNECT: a TLS handshake waits for entropy; a client whose certificate chains to no anchor completes none,
but an unclaimed die takes a client without a certificate, for CLAIM. -/
def State.sessionConnect (s : State) (p : Nat) (cert : Option (BitVec 64)) : State :=
  if !s.mgtReady ∨ s.mgt.up.getD p false = false then s
  else if (s.sessionsOn p).length ≥ sessionMax then s.raise { src := Src.mgtSessions }
  else if !s.sec.entropy then
    if (s.sessionsOn p).length + s.sec.hands.countP (fun h => h.1 == p) ≥ sessionMax then s.raise { src := Src.mgtSessions }
    else { s with sec := { s.sec with hands := s.sec.hands ++ [(p, cert)] } }
  else
    let right : Option Right := match cert with
      | some a => s.anchorRight a
      | none => if s.claimed then none else some .claim
    match right with
    | none => s.raise { src := Src.mgtAuthFail }
    | some r =>
      let used := (s.sessionsOn p).map Session.num
      let n := ((rangeFrom 0 sessionMax).find? (fun k => !used.contains k)).getD 0
      { s with mgt := { s.mgt with
        sessions := s.mgt.sessions ++ [{ port := p, num := n, right := r, anchor := cert.getD 0 }] } }

def execMgtSessionConnect (port : BitVec 1) (cert : Option (BitVec 64)) (s : State) : Host.Outcome State Fault Refusal :=
  done (s.sessionConnect port.toNat cert)

/-- What waited for the entropy source goes on (R526): key exchanges and key updates of links, TLS handshakes, and SPDM key
exchanges. -/
def State.entropyServe (s : State) : State :=
  let s1 := forAll (rangeFrom 0 64) s (fun t k =>
    let l : OLink := BitVec.ofNat 6 k
    if (t.olink l).keyWait then t.attested l .pass
    else if (t.olink l).updWait then t.linkKeyUpdate l
    else t)
  let s2 := forAll s.sec.hands { s1 with sec := { s1.sec with hands := [] } } (fun t h => t.sessionConnect h.1 h.2)
  forAll s.sec.keyx { s2 with sec := { s2.sec with keyx := [] } } (fun t x => t.spdm x.1 x.2)

/-- ENTROPY_HEALTH_PASS. -/
def State.entropyPass (s : State) : State :=
  if s.sec.entropy then s else ({ s with sec := { s.sec with entropy := true } }).entropyServe

def execEntropyHealthPass (s : State) : Host.Outcome State Fault Refusal := done s.entropyPass

/-- Sessions that a test names end. -/
def State.endSessions (s : State) (gone : Session → Bool) : State :=
  { s with mgt := { s.mgt with sessions := s.mgt.sessions.filter (fun x => !gone x) } }

/-- MGT_SESSION_END. -/
def execMgtSessionEnd (port : BitVec 1) (sess : BitVec 3) (s : State) : Host.Outcome State Fault Refusal :=
  done (s.endSessions (fun x => x.port == port.toNat && x.num == sess.toNat))

/-- The link of a management port comes up or goes down, and with it end the handshakes that wait on it. -/
def State.mgtLink (s : State) (p : Nat) (up : Bool) : State :=
  { s with
    mgt := { s.mgt with up := modAt (fun _ => up) s.mgt.up p }
    sec := { s.sec with hands := if up then s.sec.hands else s.sec.hands.filter (fun h => h.1 != p) } }

/-- MGT_LINK_UP. -/
def execMgtLinkUp (port : BitVec 1) (s : State) : Host.Outcome State Fault Refusal := done (s.mgtLink port.toNat true)

/-- MGT_LINK_DOWN: the port's sessions end, and nothing else changes. -/
def execMgtLinkDown (port : BitVec 1) (s : State) : Host.Outcome State Fault Refusal :=
  done ((s.mgtLink port.toNat false).endSessions (fun x => x.port == port.toNat))

/-- Wrong codes after which CLAIM is shut out, and for how long. -/
def claimTries : Nat := 3
def claimWait : Nat := 600000000000

/-- CLAIM: over a session that an unclaimed die took without a certificate. -/
def State.claim (s : State) (code : Nat) (anchor : BitVec 64) : State :=
  if !s.mgt.sessions.any (fun x => x.right == .claim) then s
  else if s.rpc.bootSt = 3 then s.emit (.mgtRefuse Why.state)
  else if s.rpc.quar then s.emit (.mgtRefuse Why.quarantine)
  else if s.claimed then s.emit (.mgtRefuse Why.state)
  else if s.sec.lockout.isSome then s.emit (.mgtRefuse Why.lockout)
  else if code = Config.claimCode then
    (({ s with sec := { s.sec with claimFails := 0 } }).setAnchors ((0, anchor) :: s.anchorList)).mgtDone 2
  else
    let n := s.sec.claimFails + 1
    ({ s with sec := { s.sec with
      claimFails := n, lockout := if n ≥ claimTries then some (s.after claimWait) else none } }).emit (.mgtRefuse Why.wrongCode)

def execClaim (code : Nat) (anchor : BitVec 64) (s : State) : Host.Outcome State Fault Refusal := done (s.claim code anchor)

/-- CLAIM_LOCKOUT_EXPIRE. -/
def State.claimExpire (s : State) : State :=
  match s.sec.lockout with
  | some t => if s.reached t then { s with sec := { s.sec with lockout := none, claimFails := 0 } } else s
  | none => s

def execClaimLockoutExpire (s : State) : Host.Outcome State Fault Refusal := done s.claimExpire

/-- ANCHOR_CHANGE: one that would leave no operator anchor is refused; sessions of an anchor that is gone end. -/
def State.anchorChange (s : State) (slot : BitVec 2) (anchor : Option (BitVec 64)) : State :=
  s.byAuthority (fun t =>
    let rest := t.anchorList.filter (fun e => e.1 != slot)
    let new := match anchor with
      | some a => (slot, a) :: rest
      | none => rest
    if !new.any (fun e => decide (e.1.toNat < 2)) then t.emit (.mgtRefuse Why.lastAnchor)
    else
      ((t.setAnchors new).endSessions (fun x => x.right != .claim && !new.any (fun e => e.2 == x.anchor))).mgtDone 3)

def execAnchorChange (slot : BitVec 2) (anchor : Option (BitVec 64)) (s : State) : Host.Outcome State Fault Refusal :=
  done (s.anchorChange slot anchor)

/-! ## Security version and images (R545, R598, R600) -/

/-- The minimum SVN in force (R525, R545). -/
def State.svnMin (s : State) : Nat := max Config.fusedSvn s.sec.minSvn

/-- Whether an image is accepted (R598 step 2). -/
def State.imageOk (s : State) (i : Image) : Bool := i.signed && decide (s.svnMin ≤ i.svn)

/-- The image area that the selector names active or previous. -/
def BootZone.image (z : BootZone) (b : Bool) : Option Image := if b then z.imageB else z.imageA

/-- SVN_RAISE: not above the previous image's. -/
def State.svnRaise (s : State) (svn : Nat) : State :=
  s.byAuthority (fun t =>
    match t.ftc.zone.image (!t.ftc.zone.selB) with
    | some i =>
      if svn ≤ i.svn ∧ t.svnMin ≤ svn then ({ t with sec := { t.sec with minSvn := svn } }).mgtDone 4
      else t.emit (.mgtRefuse Why.image)
    | none => t.emit (.mgtRefuse Why.image))

def execSvnRaise (svn : Nat) (s : State) : Host.Outcome State Fault Refusal := done (s.svnRaise svn)

/-- UPDATE: the image goes to the area that is not active, and after its read-back the selector names it active. -/
def State.update (s : State) (img : Image) (readback : Bool) : State :=
  s.bySession (fun t =>
    if !t.ftc.mounted then t.emit (.mgtRefuse Why.state)
    else if !t.imageOk img then t.emit (.mgtRefuse Why.image)
    else
      let z := t.ftc.zone
      let put (i : Option Image) : BootZone := if z.selB then { z with imageA := i } else { z with imageB := i }
      if readback then
        let z1 : BootZone := { put (some img) with selB := !z.selB, selSeq := z.selSeq + 1 }
        ({ t with ftc := { t.ftc with zone := z1 } }).mgtDone 5
      else ({ t with ftc := { t.ftc with zone := put none } }).emit (.mgtRefuse Why.image))

def execUpdate (img : Image) (readback : Bool) (s : State) : Host.Outcome State Fault Refusal := done (s.update img readback)

end Sys2Proof.Machine
end

