-- ==== Sys2Proof/Machine/InvDone.lean ====
section
/-! DEFINITION. The completion of an invalidation (R72, R97, R102, R118, R621), and what the HTU does when one that it issued
itself completes. -/

namespace Sys2Proof.Machine

/-- What follows the completion of an internal invalidation (R127, R178, R179, R476, R482, R536). -/
def State.invThen (s : State) : InvThen → State
  | .nothing => s
  | .evict e => s.evictPurged e
  | .reclaim i =>
    match s.xlt.reclaim.look i with
    | some r => ({ s with xlt := { s.xlt with reclaim := s.xlt.reclaim.del i } }).releasedDone r
    | none => s
  | .undefine c => s.ctxPurge c
  | .pageMove v ca => s.moveInvDone v ca
  | .sweepReg chan => ({ s with sec := { s.sec with regs := s.sec.regs.del chan } }).sweepNext sweepSteps
  | .vdevGone v => s.vdevGone v

/-- INV_COMPLETE: once every access that used a covered translation has reached its ordering point. -/
def State.invComplete (s : State) (i : Nat) : State :=
  match s.xlt.invs.find? (fun x => x.id == i) with
  | none => s
  | some x =>
    if !s.invDrained x then s
    else
      let regs : Bool := decide (x.src = .regs)
      let s1 : State := { s with xlt := { s.xlt with
        invs := s.xlt.invs.filter (fun j => j.id != i)
        placeWait := s.xlt.placeWait.filter (fun p => !x.places.contains p.1)
        unlinks := s.xlt.unlinks.map (fun u => if x.frames.contains u.frame then { u with invDone := true } else u)
        invBusy := if regs then false else s.xlt.invBusy
        invResult := if regs then 0 else s.xlt.invResult } }
      let waits (p : Nat) : Bool := s.xlt.placeWait.any (fun y => y.1 == p)
      ((forAll (x.places.filter waits) s1 State.freePlace).invThen x.after).invRefill

def execInvComplete (i : Nat) (s : State) : Host.Outcome State Fault Refusal := done (s.invComplete i)

end Sys2Proof.Machine
end

