-- ==== Sys2Proof/Machine/CoreCmd.lean ====
section
/-! DEFINITION. Control cores: the coprocessor port and its starting block, false starts, refused accesses (R497 to R503);
the offers of the interrupt controller (R506 to R511); locks of cores and of host functions (R513 to R515). -/

namespace Sys2Proof.Machine

/-! ## The coprocessor port (R499 to R503) -/

/-- Operations that a core's starting block holds (R502). -/
def blockMax : Nat := 8

/-- A core's coprocessor instruction issues: the core runs, and its starting block has a free entry (R502). -/
def State.cpPort (s : State) (n : CoreId) (f : State → State) : State :=
  if s.coreRuns n ∧ (s.core n.toNat).block.length < blockMax then f s else s

/-- The port's result. -/
def State.cpResult (s : State) (n : CoreId) (v : DWord) : State := s.updCore n.toNat (fun c => { c with result := v })

/-- An operation with a side effect enters the starting block where its operands are within their ranges; else it returns
code 1 and performs nothing (R499, R500). -/
def State.cpEnter (s : State) (n : CoreId) (ok : Bool) (op : CpOp) : State :=
  s.cpPort n (fun t =>
    if ok then t.updCore n.toNat (fun c => { c with block := c.block ++ [op] }) else t.cpResult n 1)

/-- CP.TIME. -/
def execCpTime (n : CoreId) (s : State) : Host.Outcome State Fault Refusal :=
  done (s.cpPort n (fun t => t.cpResult n t.now))

/-- CP.XLATE: x names the context, y the DVA; the word is that of R239 for a read. -/
def State.cpXlate (s : State) (n : CoreId) (x y : DWord) : State :=
  s.cpPort n (fun t =>
    if x.toNat < 2 ^ 14 then
      if t.runs Blk.xlt then t.cpResult n (BitVec.ofNat 64 (t.probeWord (BitVec.ofNat 14 x.toNat) y.toNat false)) else t
    else t.cpResult n 1)

def execCpXlate (n : CoreId) (x y : DWord) (s : State) : Host.Outcome State Fault Refusal := done (s.cpXlate n x y)

def execCpLocktry (n : CoreId) (x : DWord) (s : State) : Host.Outcome State Fault Refusal :=
  done (s.cpEnter n true (.locktry (fld x.toNat 11 0)))

/-- CP.LOCKACQ: y is the timeout in nanoseconds, 0 for none. -/
def execCpLockacq (n : CoreId) (x y : DWord) (s : State) : Host.Outcome State Fault Refusal :=
  done (s.cpEnter n true (.lockacq (fld x.toNat 11 0) (if y = 0 then none else some y)))

def execCpLockrel (n : CoreId) (x : DWord) (s : State) : Host.Outcome State Fault Refusal :=
  done (s.cpEnter n true (.lockrel (fld x.toNat 11 0)))

def execCpEoi (n : CoreId) (x : DWord) (s : State) : Host.Outcome State Fault Refusal :=
  done (s.cpEnter n true (.eoi (fld x.toNat 9 0)))

def execCpTpr (n : CoreId) (x : DWord) (s : State) : Host.Outcome State Fault Refusal :=
  done (s.cpEnter n (decide (fld x.toNat 8 0 ≤ 256)) (.tpr (fld x.toNat 8 0)))

def execCpMaskwin (n : CoreId) (x y : DWord) (s : State) : Host.Outcome State Fault Refusal :=
  done (s.cpEnter n (decide (fld x.toNat 8 0 ≤ 256 ∧ y.toNat ≤ 65535)) (.maskwin (fld x.toNat 8 0) y.toNat))

def execCpIpi (n : CoreId) (x : DWord) (s : State) : Host.Outcome State Fault Refusal :=
  done (s.cpEnter n true (.ipi (BitVec.ofNat 16 x.toNat)))

/-- Whether every earlier store of a core has its grant (R438, R502): no request of its agent for ownership is open. -/
def State.storesGranted (s : State) (n : CoreId) : Bool :=
  !(s.crg.tracks ++ s.crg.retry ++ s.crg.credits).any (fun t => t.agent == 4 + n.toNat && (t.req == .rdx || t.req == .upg))

/-- An end of interrupt (R509). -/
def State.eoi (s : State) (n : CoreId) (src : Nat) : State :=
  if (s.core n.toNat).active.contains src then
    let s1 := s.updCore n.toNat (fun c => { c with active := dropFrom c.active src })
    let s2 : State :=
      if !icuPulseKind src && s.icu.causes.contains src then { s1 with icu := { s1.icu with pend := addTo s1.icu.pend src } } else s1
    s2.cpResult n 0
  else s.cpResult n 7

/-- CP.MASKWIN performed (R510). -/
def State.maskwin (s : State) (n : CoreId) (thr dur : Nat) : State :=
  (s.updCore n.toNat (fun c =>
    if dur = 0 then { c with winOpen := false, mth := 256 }
    else if c.winOpen then { c with mth := min c.mth thr }
    else { c with winOpen := true, mth := thr, winEnd := s.after dur })).cpResult n 0

/-- A committed operation is performed by its target; none where it still waits for it (R500, R502, R515, R520). -/
def State.cpPerform (s : State) (n : CoreId) : CpOp → Option State
  | .locktry k => if s.runs Blk.lkt then let r := s.lkTry k (.core n); some (r.2.cpResult n r.1) else none
  | .lockacq k limit =>
    if !s.runs Blk.lkt then none
    else
      let r := s.lkTry k (.core n)
      if r.1 ≠ 5 then some (r.2.cpResult n r.1)
      else if s.lkt.waiters.length ≥ lkWaiterMax then none
      else
        let w : LkWaiter := { lk := k, who := .core n, limit := limit.map (fun d => s.now + d) }
        some { s with lkt := { s.lkt with waiters := s.lkt.waiters ++ [w] } }
  | .lockrel k =>
    if !s.runs Blk.lkt || !s.storesGranted n then none
    else let r := s.lkRel k (.core n); some (r.2.cpResult n r.1)
  | .eoi src => if s.storesGranted n then some (s.eoi n src) else none
  | .tpr v => some ((s.updCore n.toNat (fun c => { c with tpr := v })).cpResult n 0)
  | .maskwin thr dur => some (s.maskwin n thr dur)
  | .ipi mask =>
    some ((forAll ((rangeFrom 0 16).filter (fun i => mask.toNat.testBit i)) s (fun t i => t.icuPulse i)).cpResult n 0)

/-- CP_COMMIT: the oldest operation of the starting block. -/
def State.cpCommit (s : State) (n : CoreId) : State :=
  if !s.coreRuns n then s
  else
    match (s.core n.toNat).block with
    | [] => s
    | op :: rest =>
      match (s.updCore n.toNat (fun c => { c with block := rest })).cpPerform n op with
      | some t => t
      | none => s

def execCpCommit (n : CoreId) (s : State) : Host.Outcome State Fault Refusal := done (s.cpCommit n)

/-- FALSE_START: entry `k` of the starting block is squashed, or an operation without a side effect where there is no such
entry (R501). -/
def State.falseStart (s : State) (n : CoreId) (k : Nat) : State :=
  if s.coreRuns n then s.updCore n.toNat (fun c => { c with block := c.block.eraseIdx k, fs := satInc c.fs }) else s

def execFalseStart (n : CoreId) (k : Nat) (s : State) : Host.Outcome State Fault Refusal := done (s.falseStart n k)

/-! ## The core address map (R497, R498, R603) -/

/-- Whether a core may make an access. -/
def State.ccPermits (s : State) (n : CoreId) (a size : Nat) (write : Bool) : Bool :=
  if a < 0x04000000 then !write || s.rf .icuCcCtrl 0 0 == 0
  else if a < 0x0C000000 then (a - 0x04000000) / 0x00800000 == n.toNat
  else if a < 0x15400000 then true
  else if a < 0x1C000000 then !write
  else if 0x0100000000 ≤ a && a < 0x0100130000 then (size == 4 || size == 8) && a % size == 0
  else if 0x0200000000 ≤ a && a < 0x0300000000 then !write
  else if 0x0300000000 ≤ a && a < 0x0300040000 then !write
  else false

/-- CC_BUS_ERR. -/
def State.ccBusErr (s : State) (n : CoreId) (a : BitVec 40) (size : Nat) (write : Bool) : State :=
  if !s.coreRuns n || s.ccPermits n a.toNat size write then s
  else
    (if write then s else s.emit (.coreErr n)).raise
      { src := Src.ccBusErr, who := .core n, addr := BitVec.ofNat 64 a.toNat
        acc := if write then Sys2Proof.Acc.write else Sys2Proof.Acc.read, akind := .ccpa }

def execCcBusErr (n : CoreId) (addr : BitVec 40) (size : BitVec 7) (write : Bool) (s : State) :
    Host.Outcome State Fault Refusal := done (s.ccBusErr n addr size.toNat write)

/-! ## Offers (R506 to R511) -/

/-- The eligible cores that could be offered a source now: those without an offer, and those whose offer is less urgent. -/
def State.offerCores (s : State) (src : Nat) : List Nat :=
  allCores.filter (fun n => s.eligible src n && (match (s.core n).offer with
    | none => true
    | some o => !(s.core n).withdrawing && decide (s.icuPrio src < s.icuPrio o)))

/-- The core of greatest CUR, in rotation after the core of the source's previous offer (R507). -/
def State.offerCore (s : State) (src : Nat) : Option Nat :=
  let start := match s.icu.last.look src with
    | some n => n + 1
    | none => 0
  leastBy (fun n => (256 - s.coreCur (s.core n)) * 16 + (n + 16 - start % 16) % 16) (s.offerCores src)

/-- Pending enabled sources that are not being offered, for which a core can be found. -/
def State.offerable (s : State) : List Nat :=
  s.icuReady.filter (fun n => !allCores.any (fun c => (s.core c).offer == some n) && (s.offerCore n).isSome)

/-- ICU_OFFER: a core that holds a less urgent offer has it withdrawn first (R508). -/
def State.icuOffer (s : State) : State :=
  if !s.runs Blk.icu then s
  else
    match leastBy (fun n => s.icuPrio n * 1024 + n) s.offerable with
    | none => s
    | some src =>
      match s.offerCore src with
      | none => s
      | some n =>
        if (s.core n).offer.isSome then s.updCore n (fun c => { c with withdrawing := true })
        else
          let s1 := s.updCore n (fun c => { c with offer := some src, offerAt := s.now, withdrawing := false })
          { s1 with icu := { s1.icu with last := s1.icu.last.put src n } }

def execIcuOffer (s : State) : Host.Outcome State Fault Refusal := done s.icuOffer

/-- A core takes its offer: the source becomes active there, and the core gets it as its vector (R508). -/
def State.offerTake (s : State) (n : CoreId) (src : Nat) : State :=
  let s1 := s.updCore n.toNat (fun c => { c with offer := none, withdrawing := false, active := c.active ++ [src] })
  ({ s1 with icu := { s1.icu with pend := dropFrom s1.icu.pend src } }).emit (.vector n src (s.icuPrio src))

/-- ICU_OFFER_ACCEPT. -/
def State.offerAccept (s : State) (n : CoreId) : State :=
  let c := s.core n.toNat
  match c.offer with
  | some src => if s.coreRuns n ∧ !c.withdrawing then s.offerTake n src else s
  | none => s

def execIcuOfferAccept (n : CoreId) (s : State) : Host.Outcome State Fault Refusal := done (s.offerAccept n)

/-- ICU_OFFER_TIMEOUT: the withdrawal begins; it ends with the core's answer. -/
def State.offerTimeout (s : State) (n : CoreId) : State :=
  let c := s.core n.toNat
  if c.offer.isSome ∧ !c.withdrawing ∧ s.since c.offerAt ≥ s.ce .icuCtrl 15 0 then
    s.updCore n.toNat (fun x => { x with withdrawing := true })
  else s

def execIcuOfferTimeout (n : CoreId) (s : State) : Host.Outcome State Fault Refusal := done (s.offerTimeout n)

/-- ICU_WITHDRAW_ANSWER. -/
def State.withdrawAnswer (s : State) (n : CoreId) (accepted : Bool) : State :=
  let c := s.core n.toNat
  match c.offer with
  | some src =>
    if !c.withdrawing then s
    else if accepted then s.offerTake n src
    else
      let s1 := s.updCore n.toNat (fun x => { x with offer := none, withdrawing := false })
      { s1 with icu := { s1.icu with last := s1.icu.last.put src n.toNat } }
  | none => s

def execIcuWithdrawAnswer (n : CoreId) (accepted : Bool) (s : State) : Host.Outcome State Fault Refusal :=
  done (s.withdrawAnswer n accepted)

/-- MASK_WINDOW_EXPIRE. -/
def State.maskExpire (s : State) (n : CoreId) : State :=
  let c := s.core n.toNat
  if c.winOpen ∧ s.reached c.winEnd then
    (s.updCore n.toNat (fun x => { x with winOpen := false, mth := 256 })).raise { src := Src.icuMaskExpire, who := .core n }
  else s

def execMaskWindowExpire (n : CoreId) (s : State) : Host.Outcome State Fault Refusal := done (s.maskExpire n)

/-- Nanoseconds without an eligible core after which a source is recorded (R511). -/
def noTargetTime : Nat := 100000

/-- ICU_NO_TARGET. -/
def State.noTargetCmd (s : State) (src : Nat) : State :=
  match s.icu.noTarget.look src with
  | some (at_, false) =>
    if s.since at_ ≥ noTargetTime then
      ({ s with icu := { s.icu with noTarget := s.icu.noTarget.put src (at_, true) } }).raise
        { src := Src.icuNoTarget, synd := BitVec.ofNat 160 src }
    else s
  | _ => s

def execIcuNoTarget (src : BitVec 10) (s : State) : Host.Outcome State Fault Refusal := done (s.noTargetCmd src.toNat)

/-- Whether an initiator is a control core. -/
def Who.isCore : Who → Bool
  | .core _ => true
  | _ => false

/-- ICU_SWSET: sources 0 to 15 and 128 to 1,023; any other is a reserved encoding. -/
def State.icuSwset (s : State) (who : Who) (src : Nat) : State :=
  s.writeBy (Who.isCore who && (src < 16 || 128 ≤ src)) who .icuSwset [] (fun t => t.icuPulse src)

def execIcuSwset (who : Who) (src : BitVec 10) (s : State) : Host.Outcome State Fault Refusal :=
  done (s.icuSwset who src.toNat)

/-! ## Locks of functions and cores (R513 to R515, R520) -/

/-- Whether a lock lies in a range of a virtual device bound to a function. -/
def State.fnLock (s : State) (f : FnId) (k : Nat) : Bool :=
  s.bnd.vdevs.any (fun e => e.2.st == .bound && e.2.grant.func == f &&
    decide (e.2.grant.lkBase.toNat ≤ k ∧ k < e.2.grant.lkBase.toNat + e.2.grant.lkCount.toNat))

/-- The owner that an LKT_REQ stands for, where its writer may make one: a PF or a control core. -/
def State.lktOwner (s : State) : Who → Option LockOwner
  | .host f => if s.isPf f then some (.pf f) else none
  | .core n => some (.core n)
  | _ => none

/-- A result of LKT_REQ is kept for its writer. -/
def State.lktKeep (s : State) (o : LockOwner) (k : BitVec 12) (code : DWord) : State :=
  let c : BitVec 3 := BitVec.ofNat 3 code.toNat
  match o with
  | .pf f => s.updFn f (fun x => { x with lktValid := true, lktCode := c, lktLk := k })
  | .core n => { s with lkt := { s.lkt with coreRes := s.lkt.coreRes.put n.toNat (c, k) } }
  | .queue _ _ _ => s

/-- LKT_REQ. While LKT is disabled the operation waits at its source. -/
def State.lktReq (s : State) (who : Who) (k : BitVec 12) (op : State → LockOwner → DWord × State) : State :=
  s.writeBy (s.lktOwner who).isSome who .lktReq [] (fun t =>
    match t.lktOwner who with
    | none => t
    | some o =>
      if !t.runs Blk.lkt then t
      else
        let out : Bool := match o with
          | .pf f => !t.fnLock f k.toNat
          | _ => false
        if out then t.lktKeep o k 2
        else let r := op t o; r.2.lktKeep o k r.1)

/-- LKT_REQ_TRY. -/
def execLktReqTry (who : Who) (lk : BitVec 12) (s : State) : Host.Outcome State Fault Refusal :=
  done (s.lktReq who lk (fun t o => t.lkTry lk.toNat o))

/-- LKT_REQ_REL. -/
def execLktReqRel (who : Who) (lk : BitVec 12) (s : State) : Host.Outcome State Fault Refusal :=
  done (s.lktReq who lk (fun t o => t.lkRel lk.toNat o))

/-- LOCK_WAIT_TIMEOUT: the waiter leaves with code 5. -/
def State.lockTimeout (s : State) (o : LockOwner) : State :=
  match s.lkt.waiters.find? (fun w => w.who.same o) with
  | none => s
  | some w =>
    match w.limit with
    | none => s
    | some e =>
      if s.reached e then
        ({ s with lkt := { s.lkt with waiters := s.lkt.waiters.filter (fun x => !x.who.same o) } }).lkReply w.who 5
      else s

def execLockWaitTimeout (who : Who) (c : CtxId) (q : QIdx) (s : State) : Host.Outcome State Fault Refusal :=
  done (match who with
    | .core n => s.lockTimeout (.core n)
    | _ => s.lockTimeout (.queue c q 0))

end Sys2Proof.Machine
end

