-- ==== Sys2Proof/Machine/RcCmd.lean ====
section
/-! DEFINITION. The recovery controllers and the fallback sequencer (R577 to R580), releases of frozen regions and blocks
(R581), and unit, cluster and core resets (R13, R351, R586). -/

namespace Sys2Proof.Machine

/-! ## Heartbeats (R577, R578) -/

/-- Nanoseconds without a heartbeat after which a core counts as silent. -/
def beatMax : Nat := 300000

/-- The two cores of the recovery controller. -/
def rcCore (standbyReg : Bool) : CoreId := if standbyReg then 15 else 0

/-- The last accepted write of a core's heartbeat register. -/
def Flc.beat (x : Flc) (standbyReg : Bool) : Option DWord := if standbyReg then x.beat15 else x.beat0

/-- Whether a core is silent; one that has not written yet is (its age reads 0xFFFF). -/
def State.silent (s : State) (standbyReg : Bool) : Bool :=
  match s.flc.beat standbyReg with
  | some t => decide (s.since t ≥ beatMax)
  | none => true

/-- RC_HEARTBEAT: each register takes writes of its own core only. -/
def State.heartbeat (s : State) (n : CoreId) (standbyReg : Bool) : State :=
  s.writeBy (decide (n = rcCore standbyReg)) (.core n) (if standbyReg then .flcRcHb1 else .flcRcHb0) [] (fun t =>
    let b0 := if standbyReg then t.flc.beat0 else some t.now
    let b15 := if standbyReg then some t.now else t.flc.beat15
    { t with flc := { t.flc with
      beat0 := b0, beat15 := b15
      monitor := t.flc.monitor || (t.flc.arm && b0.isSome && b15.isSome)
      standbyLost := if standbyReg = t.flc.primary then t.flc.standbyLost else false } })

def execRcHeartbeat (n : CoreId) (standbyReg : Bool) (s : State) : Host.Outcome State Fault Refusal :=
  done (s.heartbeat n standbyReg)

/-- RC_ARM. -/
def State.rcArm (s : State) (who : Who) : State :=
  s.writeBy (s.coreOrOperator who) who .flcRcCtrl [] (fun t => { t with flc := { t.flc with arm := true, monitor := true } })

def execRcArm (who : Who) (s : State) : Host.Outcome State Fault Refusal := done (s.rcArm who)

/-- A core is held in reset (R578, R580). -/
def State.holdCore (s : State) (n : Nat) : State := (s.coreReset n).updCore n (fun c => { c with held := true })

/-- Whether heartbeats are watched now. -/
def State.watches (s : State) : Bool := s.flc.monitor && !s.flc.fallback

/-- RC_TAKEOVER. -/
def State.rcTakeover (s : State) : State :=
  let p := s.flc.primary
  if !s.watches || !s.silent p || s.silent (!p) then s
  else
    let s1 : State := { s with flc := { s.flc with primary := !p, standbyLost := true } }
    (s1.holdCore (rcCore p).toNat).raise { src := Src.rcTakeover }

def execRcTakeover (s : State) : Host.Outcome State Fault Refusal := done s.rcTakeover

/-- RC_STANDBY_LOST. -/
def State.rcStandbyLost (s : State) : State :=
  let p := s.flc.primary
  if !s.watches || s.silent p || !s.silent (!p) || s.flc.standbyLost then s
  else ({ s with flc := { s.flc with standbyLost := true } }).raise { src := Src.rcStandbyLost }

def execRcStandbyLost (s : State) : Host.Outcome State Fault Refusal := done s.rcStandbyLost

/-- Host links. -/
def allLinks : List Nat := rangeFrom 0 8

/-- FALLBACK_HOLD (R580). -/
def State.fallbackHold (s : State) : State :=
  if !s.watches || !s.silent false || !s.silent true then s
  else
    let s1 := s.raise { src := Src.rcBothLost }
    let s2 := forAll allCores s1 State.holdCore
    let s3 := forAll allLinks s2 (fun t l => t.freezeLink l 0xFE)
    { s3 with flc := { s3.flc with fallback := true } }

def execFallbackHold (s : State) : Host.Outcome State Fault Refusal := done s.fallbackHold

/-- RC_RESTART: the primary lets the other recovery core run again. -/
def State.rcRestart (s : State) (who : Who) : State :=
  s.writeBy (decide (who = .core s.primaryCore)) who .flcRcCtrl [] (fun t =>
    t.updCore (rcCore (!t.flc.primary)).toNat (fun c => { c with held := false }))

def execRcRestart (who : Who) (s : State) : Host.Outcome State Fault Refusal := done (s.rcRestart who)

/-- RECOVER: the hold ends, CC0 and CC15 run again, monitoring waits for their first heartbeats, and the watchdogs start
from their full time (R580, R594). Links stay frozen. -/
def State.recover (s : State) : State :=
  s.bySession (fun t =>
    if !t.flc.fallback then t.emit (.mgtRefuse Why.state)
    else
      let run (c : Core) : Core := { c with held := false }
      let t1 := (t.updCore 0 run).updCore 15 run
      { t1 with
        flc := { t1.flc with fallback := false, monitor := false, beat0 := none, beat15 := none }
        rpc := { t1.rpc with released := t1.now, kickAt := t1.now } })

def execRecover (s : State) : Host.Outcome State Fault Refusal := done s.recover

/-! ## Unit resets (R13, R351, R586) -/

/-- A context resident in a slot of a stride engine that is reset: its queues break, their locks will be abandoned, and a
pinned context returns to the waiting room; one whose restore had not ended returns to its head. -/
def State.seLeave (s : State) (c : CtxId) : State :=
  match s.ctx? c with
  | none => s
  | some x =>
    if x.restoring then (s.leaveSlot c).roomAhead c true
    else
      let s1 := (s.breakAll c Code.queueBroken).leaveSlot c
      let s2 : State := { s1 with lkt := { s1.lkt with
        dropWait := allQ.foldl (fun l q => addTo l (c, q)) s1.lkt.dropWait } }
      if x.pin then s2.roomAhead c false else s2

/-- A stride engine is reset. -/
def State.seReset (s : State) (k : Nat) : State :=
  let cs := [2 * k, 2 * k + 1].filterMap s.slotCtx
  forAll cs s State.seLeave

/-- A mover unit is reset: the descriptors on its channels fail, and no channel of it is failed any more (R351). -/
def State.moverReset (s : State) (u : Nat) : State :=
  let ds := s.map.descs.filter (fun d => match d.chan with
    | some p => p.1 == u
    | none => false)
  let s1 := forAll (ds.map Desc.id) s (fun t d => t.failDesc d Code.queueBroken)
  { s1 with map := { s1.map with chFail := s1.map.chFail.filter (fun p => p.1 != u) } }

/-- The L1 of a cluster loses every entry (R13). -/
def State.l1Clear (s : State) (k : Nat) : State :=
  { s with xlt := { s.xlt with cache := s.xlt.cache.filter (fun e => match e.l1 with
      | some c => c.toNat != k
      | none => true) } }

/-- A stripe in a cluster's lanes is sent again from its first element (R302, R586): a party's descriptor that has not had
its stripe accepted starts it anew. -/
def State.laneReset (s : State) (k : Nat) : State :=
  let again (d : Desc) : Desc :=
    let here : Bool := match d.chan with
      | some p => unitRegion p.1 == k / 4
      | none => false
    if d.agg.isSome ∧ d.writing ∧ here then { d with wrOff := 0 } else d
  { s with map := { s.map with descs := s.map.descs.map again } }

/-- A reset command of the primary recovery core (R586, R602): not while RPC is disabled, and for no unit of a frozen
region, which only FLC_RELEASE resets. -/
def State.rstCmd (s : State) (who : Who) (kind idx region : Nat) (f : State → State) : State :=
  let self : Bool := kind == 4 && decide (who = .core (BitVec.ofNat 4 idx))
  s.writeBy (decide (who = .core s.primaryCore) && s.enabled Blk.rpc && !self) who .rpcRstCmd [] (fun t =>
    let t1 := t.putReg .rpcRstCmd [] (kind * 256 + idx)
    if t1.regionFrozen region then t1 else (f t1).rstCause (if kind = 6 then 2 else 1) 9 (kind * 256 + idx))

def execStrideEngineReset (who : Who) (k : BitVec 5) (s : State) : Host.Outcome State Fault Refusal :=
  done (s.rstCmd who 0 k.toNat (k.toNat / 8) (fun t => t.seReset k.toNat))

def execMoverUnitReset (who : Who) (k : BitVec 3) (s : State) : Host.Outcome State Fault Refusal :=
  done (s.rstCmd who 1 k.toNat (unitRegion k.toNat) (fun t => t.moverReset k.toNat))

/-- WALKER_QUARTER_RESET: walks in progress return to the walk queue (R94). -/
def execWalkerQuarterReset (who : Who) (k : BitVec 2) (s : State) : Host.Outcome State Fault Refusal :=
  done (s.rstCmd who 2 k.toNat k.toNat (fun t => t.requeueWalks k.toNat))

def execLanePairReset (who : Who) (k : BitVec 4) (s : State) : Host.Outcome State Fault Refusal :=
  done (s.rstCmd who 3 k.toNat (k.toNat / 4) (fun t => t.laneReset k.toNat))

def execControlCoreReset (who : Who) (k : CoreId) (s : State) : Host.Outcome State Fault Refusal :=
  done (s.rstCmd who 4 k.toNat (coreRegion k.toNat) (fun t => t.coreReset k.toNat))

/-- Both engines, the L1 and the lanes of a cluster. -/
def State.clusterReset (s : State) (k : Nat) : State :=
  (((s.seReset (2 * k)).seReset (2 * k + 1)).l1Clear k).laneReset k

def execClusterReset (who : Who) (k : BitVec 4) (s : State) : Host.Outcome State Fault Refusal :=
  done (s.rstCmd who 6 k.toNat (k.toNat / 4) (fun t => t.clusterReset k.toNat))

/-! ## Releases (R581) -/

/-- The reset of a region: engines, L1, lanes, walkers, mover units and cores. -/
def State.regionReset (s : State) (r : Nat) : State :=
  let s1 := forAll (rangeFrom (4 * r) 4) s State.clusterReset
  let s2 := (forAll [2 * r, 2 * r + 1] s1 State.moverReset).requeueWalks r
  forAll (rangeFrom (4 * r) 4) s2 State.coreReset

/-- FLC_RELEASE_REGION. -/
def State.releaseRegion (s : State) (who : Who) (r : Nat) : State :=
  s.writeBy (decide (who = .core s.primaryCore)) who .flcRelease [] (fun t =>
    let t1 := t.putReg .flcRelease [] r
    if !t1.regionFrozen r then t1
    else
      let t2 := (t1.regionReset r).rstCause 3 9 (5 * 256 + r)
      { t2 with flc := { t2.flc with regions := dropFrom t2.flc.regions r } })

def execFlcReleaseRegion (who : Who) (r : BitVec 2) (s : State) : Host.Outcome State Fault Refusal :=
  done (s.releaseRegion who r.toNat)

end Sys2Proof.Machine
end

