-- ==== Sys2Proof/Machine/Boot.lean ====
section
/-! DEFINITION. Cold and die resets, their sources and pins, the watchdogs, bring-up, firmware images and settings-quarantine,
and the loss of power (R15, R34, R52, R394, R529, R555, R574, R584 to R602). -/

namespace Sys2Proof.Machine

/-! ## What a reset keeps (R15, R587) -/

/-- The uncleared fault of a source that was applied at level 4, or else its first (R584). -/
def Flc.causeOf (x : Flc) (n : Nat) : List (Nat × BitVec 2 × Bool) :=
  let lv : Nat := match x.srcCfg.look n, srcDefault n with
    | some p, _ => p.2.toNat
    | none, some d => d.2.toNat
    | none, none => 0
  match x.unclr.find? (fun u => u.1 == n && decide (lv + b2n u.2.2 ≥ 4)) with
  | some u => [u]
  | none => (x.unclr.filter (fun u => u.1 == n)).take 1

/-- FLC after a die reset: the log and its indices, last-gasp mode and log, and the fault of level 4 that caused it (R574,
R575, R584). -/
def Flc.afterDie (x : Flc) (cause : Option Nat) : Flc :=
  { log := x.log, prod := x.prod, cons := x.cons, spill := x.spill, lastgasp := x.lastgasp, lg := x.lg, lgLost := x.lgLost
    unclr := match cause with
      | some n => x.causeOf n
      | none => [] }

/-- FLC after a cold reset: only the last-gasp log stays. -/
def Flc.afterCold (x : Flc) : Flc := { lg := x.lg, lgLost := x.lgLost }

/-- The pins of the host links stay as they are driven. -/
def Hpx.afterReset (x : Hpx) : Hpx := { links := x.links.map (fun k => { perst := k.perst }) }

/-- SEC after a reset: the fuses and the operator's minimum stay. -/
def Sec.afterReset (x : Sec) : Sec := { minSvn := x.minSvn, fuses := x.fuses }

/-- A die reset (R587, R588): every block is at its reset values but for what R587 keeps; the test access port is outside
its reach. The model's own fields and the queue go on. -/
def State.dieReset (s : State) (source inst : Nat) (cause : Option Nat) : State :=
  let att := if source = 8 then 0 else if s.rpc.done then s.rpc.attempts else min 15 (s.rpc.attempts + 1)
  let t : State :=
    { pending := s.pending, now := s.now, nextId := s.nextId, free := s.free, out := s.out
      ftc := { zone := s.ftc.zone }
      hpx := s.hpx.afterReset
      sec := s.sec.afterReset
      mgt := { up := s.mgt.up }
      flc := s.flc.afterDie cause
      tap := s.tap
      rpc := { rstPin := s.rpc.rstPin, wrstPin := s.rpc.wrstPin, attempts := att, released := s.now, kickAt := s.now
               inReset := !s.rpc.rstPin || !s.rpc.wrstPin } }
  t.rstCause 6 source inst

/-- A cold reset: I95 is reset too, and the time base restarts at 0. -/
def State.coldReset (s : State) (source : Nat) : State :=
  let t : State :=
    { pending := s.pending, nextId := s.nextId, free := s.free, out := s.out
      ftc := { zone := s.ftc.zone }
      hpx := s.hpx.afterReset
      sec := s.sec.afterReset
      flc := s.flc.afterCold
      tap := s.tap
      rpc := { rstPin := s.rpc.rstPin, wrstPin := s.rpc.wrstPin
               inReset := !s.rpc.rstPin || !s.rpc.wrstPin } }
  t.rstCause 7 source 0

/-- Whether the die has power. -/
def State.powered (s : State) : Bool := s.islandOn 95

/-! ## Sources (R585, R589, R590, R594) -/

/-- POWER_ON. -/
def execPowerOn (s : State) : Host.Outcome State Fault Refusal := done (s.coldReset 0)

/-- RST_N_ASSERT. -/
def State.rstAssert (s : State) : State :=
  if !s.powered || !s.rpc.rstPin then s else ({ s with rpc := { s.rpc with rstPin := false } }).coldReset 1

def execRstNAssert (s : State) : Host.Outcome State Fault Refusal := done s.rstAssert

/-- WRST_N_ASSERT: while RST_N holds a cold reset, the pin changes nothing but the release (R590). -/
def State.wrstAssert (s : State) : State :=
  if !s.powered || !s.rpc.wrstPin then s
  else
    let s1 : State := { s with rpc := { s.rpc with wrstPin := false } }
    if !s.rpc.rstPin then s1 else s1.dieReset 2 0 none

def execWrstNAssert (s : State) : Host.Outcome State Fault Refusal := done s.wrstAssert

/-- A reset pin rises: the reset is released with the later of the two, and bring-up begins. -/
def State.pinRise (s : State) (rst wrst : Bool) : State :=
  let free := rst && wrst
  { s with rpc := { s.rpc with
    rstPin := rst, wrstPin := wrst
    inReset := if free then false else s.rpc.inReset
    released := if free then s.now else s.rpc.released
    kickAt := if free then s.now else s.rpc.kickAt } }

/-- RST_N_RELEASE. -/
def execRstNRelease (s : State) : Host.Outcome State Fault Refusal :=
  done (if s.rpc.rstPin then s else s.pinRise true s.rpc.wrstPin)

/-- WRST_N_RELEASE. -/
def execWrstNRelease (s : State) : Host.Outcome State Fault Refusal :=
  done (if s.rpc.wrstPin then s else s.pinRise s.rpc.rstPin true)

/-- Nanoseconds of the boot watchdog. -/
def bootWatch : Nat := 2000000000

/-- BOOT_WATCHDOG_EXPIRE. -/
def State.bootExpire (s : State) : State :=
  if s.rpc.bootRun ∧ !s.rpc.done ∧ !s.rpc.inReset ∧ !s.flc.fallback ∧ s.powered ∧ s.since s.rpc.released ≥ bootWatch then
    s.dieReset 6 1 none
  else s

def execBootWatchdogExpire (s : State) : Host.Outcome State Fault Refusal := done s.bootExpire

/-- RUNTIME_WATCHDOG_EXPIRE. -/
def State.runExpire (s : State) : State :=
  if s.rpc.wdogEn ∧ !s.rpc.inReset ∧ !s.flc.fallback ∧ s.since s.rpc.kickAt ≥ s.rf .rpcWdog 15 0 * 1000000 then
    s.dieReset 6 0 none
  else s

def execRuntimeWatchdogExpire (s : State) : Host.Outcome State Fault Refusal := done s.runExpire

/-- Whether the record of a fault has left its capture register, or cannot enter either log (R555). -/
def State.recordGone (s : State) (n : Nat) : Bool :=
  (s.flc.capture.look n).isNone || !s.runs Blk.flc ||
  (if s.flc.lastgasp then decide (s.flc.lg.length ≥ lgMax) else s.logFull)

/-- ESCALATION_DIE_RESET. -/
def State.escalation (s : State) : State :=
  match s.flc.dieReset with
  | some n => if s.recordGone n then s.dieReset 7 n (some n) else s
  | none => s

def execEscalationDieReset (s : State) : Host.Outcome State Fault Refusal := done s.escalation

/-- The initiator index of a session (R558). -/
def whoIndex (who : Who) : Nat := (initId who).toNat % 4096

/-- RESET of an operator's session. -/
def execReset (who : Who) (s : State) : Host.Outcome State Fault Refusal :=
  done (if s.operator who then s.dieReset 8 (whoIndex who) none else s)

/-- ROLLBACK: the selector exchanges active and previous, and the die is reset (R600). -/
def State.rollback (s : State) (who : Who) : State :=
  if !s.operator who then s
  else if s.rpc.bootSt = 3 ∨ !s.ftc.mounted then s.emit (.mgtRefuse Why.state)
  else
    let z := s.ftc.zone
    ({ s with ftc := { s.ftc with zone := { z with selB := !z.selB, selSeq := z.selSeq + 1 } } }).dieReset 8 (whoIndex who) none

def execRollback (who : Who) (s : State) : Host.Outcome State Fault Refusal := done (s.rollback who)

/-- WDOG_KICK: of a control core. -/
def execWdogKick (who : Who) (s : State) : Host.Outcome State Fault Refusal :=
  done (s.writeBy (Who.isCore who) who .rpcWdogKick [] (fun t => { t with rpc := { t.rpc with kickAt := t.now } }))

/-- POWER_LOSS: what stands in flash and in fuses stays, and so do the pins (R394, R575). -/
def State.powerLoss (s : State) : State :=
  let t : State :=
    { pending := s.pending, nextId := s.nextId, free := s.free, out := s.out
      ftc := { zone := s.ftc.zone }
      hpx := s.hpx.afterReset
      sec := s.sec.afterReset }
  { t with rpc := { rstPin := s.rpc.rstPin, wrstPin := s.rpc.wrstPin, inReset := true, islands := [], bootRun := false } }

def execPowerLoss (s : State) : Host.Outcome State Fault Refusal := done s.powerLoss

/-! ## Bring-up (R592, R593, R597) -/

/-- Domains that step 3 powers: all but those of host links that do not exist and of optical ports that are off. -/
def State.bootDomains (s : State) : List Nat :=
  (rangeFrom 0 544).filter (fun d =>
    if d < 448 then true
    else if d < 496 then s.rf .ofpPortCfg 1 0 [(d - 448) / 3] != 0
    else if 520 ≤ d ∧ d < 528 then s.linkExists (d - 520)
    else true)

/-- Islands that step 3 powers: those with a domain that is to be on. -/
def State.bootIslands (s : State) : List Nat :=
  let ds := s.bootDomains
  (rangeFrom 0 95).filter (fun i => i < 70 || i == 94 || ds.any (fun d => decide (448 ≤ d ∧ d < 536) && domainIsland d == i))

/-- ISLAND_POWER_UP: `locks` are the islands whose PLL locks. The links of the islands begin to train, and SEC, with I94 on,
finds whether the integrity check of its fuses passes (R525). -/
def State.islandsUp (s : State) (locks : List Nat) : State :=
  if s.rpc.inReset || !s.powered || s.islandOn 94 then s
  else
    let want := s.bootIslands
    let on := want.filter (fun i => locks.contains i || i == 94 || i == 53)
    let bad := want.filter (fun i => !on.contains i)
    let doms := s.bootDomains.filter (fun d => d < 448 || 536 ≤ d || on.contains (domainIsland d))
    let s1 : State := { s with
      rpc := { s.rpc with islands := on ++ [95], domains := doms, pllBad := bad }
      ddl := { s.ddl with trainAt := s.now } }
    let s2 := forAll (rangeFrom 0 24) s1 (fun t m => if t.islandOn (90 + m / 8) then t.updModule m (fun x => { x with st := 1 }) else t)
    let s3 := forAll allLinks s2 (fun t l =>
      if t.linkExists l ∧ (t.link l).perst ∧ t.islandOn (portIsland l) then t.updLink l (fun k => { k with st := .training }) else t)
    let s4 := forAll (rangeFrom 0 64) s3 (fun t l =>
      let x : OLink := BitVec.ofNat 6 l
      if t.olinkExists x ∧ t.islandOn (ofpIsland (l / 4)) then t.updOlink x (fun k => { k with st := .training }) else t)
    if s.sec.fuses then s4 else s4.raise { src := Src.secFuse }

def execIslandPowerUp (locks : List Nat) (s : State) : Host.Outcome State Fault Refusal := done (s.islandsUp locks)

/-- Nanoseconds within which an island's PLL locks. -/
def pllTime : Nat := 1000000

/-- ISLAND_PLL_TIMEOUT. -/
def State.pllTimeout (s : State) (i : Nat) : State :=
  if s.rpc.pllBad.contains i ∧ s.since s.rpc.released ≥ pllTime then
    s.condFault { src := Src.islandOff, synd := BitVec.ofNat 160 i, blk := some (BitVec.ofNat 5 (islandBlock i)) } true
  else s

def execIslandPllTimeout (island : BitVec 7) (s : State) : Host.Outcome State Fault Refusal := done (s.pllTimeout island.toNat)

/-- SMS_INIT_DONE: every line is zero, unowned and clean, but for those whose check fails, which stay poisoned (R34, R521).
The fault-log area is left as it is. -/
def State.smsInit (s : State) (bad : List Nat) : State :=
  if s.rpc.smsInit || !(rangeFrom 45 8).any (fun i => s.islandOn i) then s
  else
    let s1 : State := { s with
      mem := { s.mem with bytes := [], lines := [] }
      rpc := { s.rpc with smsInit := true } }
    forAll bad s1 (fun t l => t.eccLine (64 * l) .uncorrectable .hw)

def execSmsInitDone (bad : List Nat) (s : State) : Host.Outcome State Fault Refusal := done (s.smsInit bad)

/-- TST_INIT_DONE: every entry is invalid and every frame free (R52); the first heat has its origin (R354, R371). -/
def State.tstInit (s : State) : State :=
  if s.rpc.tstInit || !s.rpc.smsInit || !s.islandOn 44 then s
  else
    let s1 : State := { s with
      xlt := { s.xlt with entries := [], frames := [], counters := [], seqs := [] }
      rpc := { s.rpc with tstInit := true } }
    if s1.enabled Blk.pcr then s1.pcrEnable s1.heatL else s1

def execTstInitDone (s : State) : Host.Outcome State Fault Refusal := done s.tstInit

/-! ## Images and settings (R598, R599) -/

/-- The image that the boot ROM accepts, with its area: the active one first while fewer than two attempts have failed. -/
def State.bootPick (s : State) : Option (Bool × Image) :=
  let z := s.ftc.zone
  let first := if s.rpc.attempts < 2 then z.selB else !z.selB
  let ok (b : Bool) : Option (Bool × Image) := match z.image b with
    | some i => if s.imageOk i then some (b, i) else none
    | none => none
  match ok first with
  | some x => some x
  | none => ok (!first)

/-- The firmware takes its settings: a record of its schema, or an older one that it understands, which it converts. -/
def State.takeSettings (s : State) (i : Image) : State :=
  let z := s.ftc.zone
  match z.current i.schema with
  | some e =>
    { s with
      rpc := { s.rpc with settings := some e.2 }
      sec := { s.sec with anchors := e.2.anchors.foldl (fun m a => m.put a.1.toNat a.2) [] } }
  | none =>
    match leastBy (fun e => z.settingsSeq - e.2.seq) (z.settings.filter (fun e => i.older.contains e.2.schema)) with
    | some e => s.writeSettings i.schema e.2.body e.2.anchors
    | none => s

/-- BOOT_IMAGE_LOAD: on CC0 or CC15, once FTC is mounted. -/
def State.bootLoad (s : State) : State :=
  if s.rpc.inReset || !s.ftc.mounted || !s.rpc.tstInit || s.rpc.bootSt = 2 || !(s.coreRuns 0 || s.coreRuns 15) then s
  else
    match s.bootPick with
    | none => { s with rpc := { s.rpc with bootSt := 3, bootRun := false } }
    | some (b, i) =>
      ({ s with
        rpc := { s.rpc with
          bootSt := 2, running := some i, bootB := b, fallbackImg := b != s.ftc.zone.selB }
        flc := { s.flc with primary := false } }).takeSettings i

def execBootImageLoad (s : State) : Host.Outcome State Fault Refusal := done s.bootLoad

/-- BOOT_DONE_WRITE. -/
def execBootDoneWrite (who : Who) (s : State) : Host.Outcome State Fault Refusal :=
  done (s.writeBy (Who.isCore who) who .rpcBoot [] (fun t =>
    { t with rpc := { t.rpc with done := true, bootRun := false, attempts := 0 } }))

/-- QUARANTINE_SET. -/
def execQuarantineSet (who : Who) (s : State) : Host.Outcome State Fault Refusal :=
  done (s.writeBy (Who.isCore who) who .rpcBoot [] (fun t => { t with rpc := { t.rpc with quar := true } }))

end Sys2Proof.Machine
end

