-- ==== Sys2Proof/Machine/View.lean ====
section
/-! DEFINITION. Reads of registers: what each field shows of the state, `ready` of every block, the shadows of 64-bit
pairs, and who may read (R35, R41, R115 to R118, R147 to R151, R186, R220, R350, R370, R401, R407, R428, R456, R493,
R494, R519, R520, R546, R552, R553, R583, R602, R606, R608, R609, R616). -/

namespace Sys2Proof.Machine

/-! ## ready (R610) -/

/-- Whether work in progress remains in a block (R610, R611). -/
def State.blockBusy (s : State) (b : Nat) : Bool :=
  if b = Blk.hpx then s.reqs.any (fun r => r.phase == .sent && (s.reqLink r).isSome)
  else if b = Blk.dqe then s.ctxs.any (fun e => e.2.restoring || e.2.evict)
  else if b = Blk.se then s.reqs.any (fun r => r.queue.isSome)
  else if b = Blk.xlt then !s.xlt.invs.isEmpty || s.reqs.any (fun r => match r.phase with
    | .walker _ => true
    | .dirty _ => true
    | _ => false)
  else if b = Blk.map then s.map.descs.any (fun d => d.chan.isSome)
  else if b = Blk.ftc then !s.ftc.programs.isEmpty || s.ftc.blocks.any (fun e => e.2.work != .idle) ||
    s.xlt.faults.any (fun e => e.2.svc == .flash && e.2.active)
  else if b = Blk.ofp then s.ofp.tx.any (fun f => !f.unacked.isEmpty)
  else if b = Blk.ddl then s.reqs.any (fun r => r.phase == .sent && (match r.tr with
    | some t => t.cls == 3 || t.cls == 0x0A
    | none => false))
  else if b = Blk.crg then !s.crgEmpty
  else if b = Blk.icu then s.icu.cores.any (fun c => c.offer.isSome)
  else if b = Blk.pcr then s.pcr.running
  else if b = Blk.bnd then !s.bnd.moves.isEmpty
  else false

/-- Whether a block has come up: what its chapter asks for beside its enable. FLC is ready once step 2 of R597 has taken its
time, and before any other block (R584). -/
def State.blockUp (s : State) (b : Nat) : Bool :=
  if b = Blk.glb then true
  else if b = Blk.hpx ∨ b = Blk.ofp ∨ b = Blk.rpc then s.islandOn 94
  else if b = Blk.ddl then s.islandOn 94 && s.ddl.mods.all (fun m => m.st != 1)
  else if b = Blk.sms then s.rpc.smsInit
  else if b = Blk.ftc then s.ftc.mounted
  else if b = Blk.pcr then s.pcr.running
  else if b = Blk.flc then s.flc.capture.isEmpty && (s.islandOn 94 || s.now != s.rpc.released)
  else if b = Blk.sec then s.sec.ready && s.sec.fuses && s.sec.entropy
  else if b = Blk.mgt then s.mgt.up.any (fun u => u) && s.sec.ready && s.sec.fuses && s.sec.entropy
  else s.rpc.tstInit

/-- BLK_CTRL.ready of a block (R556, R610, R611). -/
def State.ready (s : State) (b : Nat) : Bool :=
  !s.flc.blocks.contains b && s.blockUp b &&
  (b = Blk.glb || (if s.enabled b then !s.ceWait.contains b else s.blockBusy b))

/-! ## Fields -/

/-- Sum of the bits whose numbers a test accepts. -/
def bitsOf (n : Nat) (p : Nat → Bool) : Nat := (((rangeFrom 0 n).filter p).map (fun i => 2 ^ i)).sum

/-- Busy walkers of a quarter. -/
def State.walkersBusy (s : State) (r : Nat) : Nat :=
  s.reqs.countP (fun q => match q.phase with
    | .walker w => walkerRegion w == r
    | .dirty w => walkerRegion w == r
    | _ => false)

/-- The control context of a function. -/
def State.ctlCtx (s : State) : Who → Option (CtxId × Ctx)
  | .host f => (s.ctxs.find? (fun e => e.2.ctl && e.2.func == f)).map (fun e => (BitVec.ofNat 14 e.1, e.2))
  | _ => none

/-- Code of a link's state (HPX_LSTAT). -/
def LState.code : LState → Nat
  | .down => 0
  | .training => 1
  | .l0 => 2
  | .l0p => 3
  | .l1 => 4
  | .l2 => 5

/-- HPX_LSTAT of a link. -/
def Link.stat (k : Link) : Nat :=
  (if k.frozen then k.cause.toNat else 0xFF) * 2 ^ 16 + b2n k.frozen * 2 ^ 15 + b2n k.drain * 2 ^ 14 + b2n k.dlup * 2 ^ 13
  + b2n k.cxl * 2 ^ 12 + (if k.dlup then 6 else 0) * 2 ^ 8 + (if k.dlup then k.width.toNat else 0) * 8 + k.st.code

/-- Code of a target's state (FTC_TGT). -/
def TgtState.code : TgtState → Nat
  | .absent => 0
  | .active => 1
  | .incompatible => 2
  | .excess => 3
  | .failed => 4

/-- FTC_TGT of a channel. -/
def State.tgtStat (s : State) (c : Nat) : Nat :=
  ((rangeFrom 0 8).map (fun k => (match s.ftc.targets.look (8 * c + k) with
    | some t => t.st.code
    | none => 0) * 2 ^ (3 * k))).sum + ((s.ftc.chrate.look c).getD 0).toNat * 2 ^ 24

/-- Code of an optical link's state (OFP_PORT_STAT). -/
def OState.code : OState → Nat
  | .down => 0
  | .training => 1
  | .attesting => 2
  | .up => 3
  | .degraded => 4
  | .ethUp => 5

/-- OFP_PORT_STAT of a port. -/
def State.portStat (s : State) (p : Nat) : Nat :=
  let xs := (rangeFrom 0 4).map (fun k => (k, s.olink (BitVec.ofNat 6 (4 * p + k))))
  (xs.map (fun e => e.2.st.code * 2 ^ (4 * e.1))).sum + min 8 ((xs.map (fun e => e.2.lanes.toNat)).sum) * 2 ^ 24

/-- Initiator ID of a lock's owner (R558). -/
def LockOwner.id : LockOwner → Nat
  | .queue _ _ i => i.toNat
  | .core n => (initId (.core n)).toNat
  | .pf f => (initId (.host f)).toNat

/-- LKT_INFO of the selected lock; it hides from a PF a lock outside its ranges. -/
def State.lktInfo (s : State) (who : Who) : Nat :=
  let k := s.rf .lktSel 11 0
  let hidden : Bool := match who with
    | .host f => !s.fnLock f k
    | _ => false
  let w := b2n (s.lkt.waiters.any (fun x => x.lk == k)) * 2 ^ 29
  if hidden then 0
  else match s.lock k with
    | none => w
    | some (.held o) => 2 ^ 30 + w + o.id
    | some .abandoned => 2 ^ 31 + w

/-- LKT_INFO_Q, hidden like LKT_INFO. -/
def State.lktInfoQ (s : State) (who : Who) : Nat :=
  let k := s.rf .lktSel 11 0
  let hidden : Bool := match who with
    | .host f => !s.fnLock f k
    | _ => false
  if hidden then 0
  else match s.lock k with
    | some (.held (.queue c q _)) => 2 ^ 19 + q.toNat * 2 ^ 16 + c.toNat
    | _ => 0

/-- LKT_RESULT of a reader. -/
def State.lktResult (s : State) : Who → Nat
  | .host f =>
    let x := s.fn f
    if x.lktValid then 2 ^ 31 + x.lktCode.toNat * 2 ^ 24 + x.lktLk.toNat else 0
  | .core n => match s.lkt.coreRes.look n.toNat with
    | some r => 2 ^ 31 + r.1.toNat * 2 ^ 24 + r.2.toNat
    | none => 0
  | _ => 0

/-- Age of a recovery core in microseconds (R577). -/
def State.beatAge (s : State) (standbyReg : Bool) : Nat :=
  match s.flc.beat standbyReg with
  | some t => min 0xFFFF (s.since t / 1000)
  | none => 0xFFFF

/-- FLC_SRC_CFG of a source. -/
def State.srcView (s : State) (n : Nat) : Nat :=
  match s.srcCfg n with
  | some p => p.2.toNat * 16 + p.1.toNat
  | none => 0

/-- FLC_STAT. -/
def State.flcStat (s : State) : Nat :=
  b2n s.flc.lastgasp * 2 ^ 31 + b2n s.errLow * 2 ^ 30 + b2n s.flc.fallback * 2 ^ 29 + b2n s.flc.spillStop * 2 ^ 28
  + min 0xFFFFF s.flc.unclr.length

/-- Nanoseconds left in a core's mask window. -/
def State.maskLeft (s : State) (c : Core) : Nat := if c.winOpen then min 0xFFFF (c.winEnd.toNat - s.now.toNat) else 0

/-- GLB_PIN_STAT: a line held low by another device is not seen apart. -/
def State.pinStat (s : State) : Nat :=
  bitsOf 8 (fun l => (s.link l).perst) * 2 ^ 8 + b2n (s.hpx.links.any Link.wake) * 16 + b2n (!s.errLow) * 8
  + b2n s.rpc.wrstPin * 2 + b2n s.rpc.rstPin

/-- RPC_BOOT_STAT. -/
def State.bootStat (s : State) : Nat :=
  s.rpc.bootSt.toNat * 2 ^ 8 + min 15 s.rpc.attempts * 16 + b2n s.rpc.fallbackImg * 4 + b2n s.rpc.bootB

/-- First index of a register instance. -/
def ix0 : List Nat → Nat
  | i :: _ => i
  | [] => 0

/-- What a register shows a reader: the value of each field, as its table says. -/
def State.regView (s : State) (who : Who) (r : RegName) (ix : List Nat) : Nat :=
  let i := ix0 ix
  match r with
  | .blkCtrl => s.rf .blkCtrl 1 0 ix + b2n (s.ready i) * 4
  | .smsCntCe => s.mem.ce.toNat
  | .smsCntUe => s.mem.ue.toNat
  | .smsPatrol => s.mem.passes.toNat
  | .ddlCntCorr => s.ddl.corr.toNat
  | .ddlCntUe => s.ddl.ue.toNat
  | .ddlModStat => let m := s.module i; m.die.toNat * 2 ^ 21 + m.retrain.toNat * 2 ^ 8 + m.st.toNat
  | .ddlHbmCfg => match s.ddl.hbm.look i with
    | some g => 2 ^ 15 + g.toNat
    | none => 0
  | .ddlTileCfg => match s.ddl.tiles.look i with
    | some t => 2 ^ 31 + t.1.toNat * 2 ^ 20 + t.2.toNat
    | none => 0
  | .xltInvStat => b2n s.xlt.invBusy * 2 ^ 31 + s.xlt.invResult.toNat
  | .xltTierFree => s.tierFree
  | .xltTierPinned => s.tierPinned
  | .xltWalkBusy => s.walkersBusy 0 + s.walkersBusy 1 * 2 ^ 8 + s.walkersBusy 2 * 2 ^ 16 + s.walkersBusy 3 * 2 ^ 24
  | .xltWalkQueue => s.xlt.walkQ.length
  | .xltFltPending => s.xlt.faults.length
  | .xltFltFlashq => s.fillsActive
  | .xltFltFlashwait => s.xlt.fillWait.length
  | .xltTstFree => 0x7C000 - s.xlt.frames.length
  | .xltTstSeqfree => 0x20000 - s.xlt.seqs.length
  | .dqeResStat =>
    b2n (s.dqe.victim.isSome || s.ctxs.any (fun e => e.2.evict)) * 2 ^ 24
    + (s.ctxs.map (fun e => if e.2.slot.isSome then e.2.queues.countP (fun q => q.rlxGrant) else 0)).sum * 2 ^ 16
    + s.ctxs.countP (fun e => e.2.pin) * 2 ^ 8 + s.ctxs.countP (fun e => e.2.slot.isSome)
  | .dqeWaitStat => s.dqe.bitmap.length * 2 ^ 13 + s.dqe.room.length
  | .dqeCtlCtx => match s.ctlCtx who with
    | some x => 2 ^ 31 + x.1.toNat
    | none => 0
  | .dqeCtlRingLo => match s.ctlCtx who with
    | some x => fld (x.2.q 0).rdva.toNat 31 12 * 2 ^ 12
    | none => 0
  | .dqeCtlRingHi => match s.ctlCtx who with
    | some x => fld (x.2.q 0).rdva.toNat 56 32
    | none => 0
  | .dqeRefcntFree => 0x100000 - s.xlt.counters.length
  | .seCntIssueLo => fld s.issued.toNat 31 0
  | .seCntIssueHi => fld s.issued.toNat 63 32
  | .seCntPfault => s.pfaults.toNat
  | .seSlot => match s.slotCtx i with
    | some c => 2 ^ 16 + c.toNat
    | none => 0
  | .mapChbusy => bitsOf 32 (fun k => s.chanBusy i k)
  | .mapChfail => bitsOf 32 (fun k => s.map.chFail.contains (i, k))
  | .mapBufFree => 4096 - ((s.map.descs.map (fun d => if d.chan.map Prod.fst = some i then d.pool else 0)).sum) * 64
  | .mapPaceCfg => s.rf .mapPaceCfg 15 12 ix * 2 ^ 12 + s.paceCredits i
  | .mapRingTail => (s.ring i).tail.toNat
  | .mapRingHead => (s.ring i).head.toNat
  | .mapRingCqprod => (s.ring i).prod.toNat
  | .mapRingCqcons => (s.ring i).cons.toNat
  | .mapAggStat =>
    (128 - (((s.map.rounds.flatMap (fun e => e.2.parties)).flatMap Party.accepted).length)) * 2 ^ 16 + s.map.rounds.length
  | .pcrBudData => match s.ctx? (BitVec.ofNat 14 (s.rf .pcrBudSel 13 0)) with
    | some x => x.share
    | none => 0
  | .pcrGridLo => fld s.pcr.origin.toNat 31 0
  | .pcrGridHi => fld s.pcr.origin.toNat 63 32
  | .pcrHeatLo => fld s.pcr.heat 31 0
  | .pcrHeatHi => fld s.pcr.heat 63 32
  | .pcrStat =>
    s.pcr.items.length * 2 ^ 16 + b2n s.pcr.stretch * 64
    + (s.ctxs.map (fun e => e.2.queues.countP (fun q => q.highGrant))).sum
  | .pcrDebt => (sat32 s.pcr.debt).toNat
  | .pcrCntLate => s.pcr.late.toNat
  | .pcrCntRefuse => s.pcr.refuse.toNat
  | .ftcStat =>
    if s.ftc.mounted then
      b2n s.ftc.wrstop * 2 ^ 31 + b2n s.ftc.zone.copy1 * 2 ^ 30 + b2n s.ftc.zone.copy0 * 2 ^ 29 + b2n s.ftc.erasing * 2 ^ 28
      + s.ftcChans.length * 2 ^ 16 + s.ftcSpare
    else 0
  | .ftcCapLo => if s.ftc.mounted then fld s.ftcCap 31 0 else 0
  | .ftcCapHi => if s.ftc.mounted then fld s.ftcCap 33 32 else 0
  | .ftcTgt => s.tgtStat i
  | .ftcCntRetry => s.ftc.cntRetry.toNat
  | .ftcCntRebuild => s.ftc.cntRebuild.toNat
  | .ftcCntLost => s.ftc.cntLost.toNat
  | .hpxPortCfg => s.hpx.openB.toNat * 2 ^ 16 + s.hpx.cxlB.toNat * 2 ^ 8 + s.hpx.bifB.toNat
  | .hpxWake => bitsOf 8 (fun l => (s.link l).wake)
  | .hpxLstat => if s.linkExists i then (s.link i).stat else 0
  | .hpxLpm => if s.linkExists i then s.reg .hpxLpm ix else 0
  | .hpxLrel => 0
  | .hpxIntxRaised => if s.linkExists i then (s.link i).raised.toNat else 0
  | .hpxIntxSeen => if s.linkExists i then (s.link i).seen.toNat else 0
  | .hpxHeld => if s.linkExists i then (s.link i).hold.length else 0
  | .crgStat => s.crg.retry.length * 2 ^ 16 + s.crg.tracks.length
  | .crgCntRetry => s.crg.cntRetry.toNat
  | .crgCntBisnp => s.crg.cntBisnp.toNat
  | .crgLcache => s.crg.hca.countP (fun h => h.port == i)
  | .crgSf => s.crg.filter.countP (fun h => h.port == i)
  | .crgMemwinCtrl => s.rf .crgMemwinCtrl 13 0 ix + b2n (s.crg.wins.look (2 * i + ix0 (ix.drop 1))).isSome * 2 ^ 31
  | .ofpTimeStat =>
    s.ofp.offset.toNat * 2 ^ 16 + b2n s.ofp.gm * 8 + b2n s.ofp.unsync * 4 + b2n s.ofp.holdover * 2 + b2n s.ofp.locked
  | .ofpPkg => match s.ofp.pkg with
    | some p => 2 ^ 16 + p.toNat
    | none => 0
  | .ofpCntRetx => s.ofp.cntRetx.toNat
  | .ofpCntNorpt => s.ofp.cntNorpt.toNat
  | .ofpPortStat => s.portStat i
  | .bndStat => s.bnd.moves.length * 2 ^ 16 + s.bnd.vdevs.countP (fun e => e.2.st == .bound)
  | .bndCntMove => s.bnd.cntMove.toNat
  | .icuSwset => 0
  | .icuPend => bitsOf 32 (fun k => s.icu.pend.contains (32 * i + k))
  | .icuActive => bitsOf 32 (fun k => s.icu.isActive (32 * i + k))
  | .icuCoreStat => let c := s.core i; c.active.length * 2 ^ 24 + s.corePrio c * 2 ^ 9 + c.tpr
  | .icuCoreFs => (s.core i).fs.toNat
  | .icuCoreMask => let c := s.core i; c.mth * 2 ^ 16 + s.maskLeft c
  | .icuSrcCfg => s.rf .icuSrcCfg 31 31 ix * 2 ^ 31 + b2n (icuPulseKind i) * 2 ^ 30 + s.rf .icuSrcCfg 23 0 ix
  | .lktReq => 0
  | .lktResult => s.lktResult who
  | .lktInfo => s.lktInfo who
  | .lktInfoQ => s.lktInfoQ who
  | .lktWaitStat => s.lkt.waiters.length
  | .lktCntAbandon => s.lkt.abandoned.toNat
  | .secStat =>
    (match s.sec.sweep with
     | some w => w.ctx.toNat * 16 + 8
     | none => 0)
    + b2n s.claimed * 4 + b2n (s.islandOn 94 && s.sec.entropy) * 2 + b2n (s.islandOn 94 && s.sec.fuses)
  | .secSweepDone => match s.sec.sweep with
    | some w => (sat32 (w.bytes / 2 ^ 20)).toNat
    | none => 0
  | .secScrubPend => (sat32 ((s.sec.scrub.map (fun x => 2 ^ x.lsize)).sum / 2 ^ 20)).toNat
  | .mgtStat =>
    (s.sessionsOn 1).length * 64 + (s.sessionsOn 0).length * 4 + b2n (s.mgt.up.getD 1 false) * 2 + b2n (s.mgt.up.getD 0 false)
  | .flcStat => s.flcStat
  | .flcAck => 0
  | .flcLogProd => s.flc.prod.toNat
  | .flcLogCons => s.flc.cons.toNat
  | .flcLogSpill => s.flc.spill.toNat
  | .flcLogDrop => s.flc.drop.toNat
  | .flcLgCount => s.flc.lg.length
  | .flcLgLost => s.flc.lgLost.toNat
  | .flcLogResume => 0
  | .flcRcCtrl => b2n s.flc.arm * 2 ^ 8 + b2n s.flc.primary
  | .flcRcHb0 => 0
  | .flcRcHb1 => 0
  | .flcRcStat => s.beatAge true * 2 ^ 16 + s.beatAge false
  | .flcFnStat => match who with
    | .host f => b2n (s.fn f).recValid * 2 ^ 31 + (s.fn f).recCount
    | _ => 0
  | .flcFnRec => match who with
    | .host f => if (s.fn f).recValid then fld (s.fn f).recData.toNat (32 * i + 31) (32 * i) else 0
    | _ => 0
  | .flcUnclr => bitsOf 32 (fun k => s.flc.unclr.any (fun u => u.1 == 32 * i + k))
  | .flcLogRec => fld ((s.flc.log.look (s.rf .flcLogRidx 31 0 % logMax)).getD 0).toNat (32 * i + 31) (32 * i)
  | .flcSrcCfg => s.srcView i
  | .flcSrcCnt => ((s.flc.counts.look i).getD 0).toNat
  | .flcLg => fld (s.flc.lg.getD (i / 16) 0).toNat (32 * (i % 16) + 31) (32 * (i % 16))
  | .glbRstCause => s.rpc.cause.toNat
  | .glbRstTimeLo => fld s.rpc.causeTime.toNat 31 0
  | .glbRstTimeHi => fld s.rpc.causeTime.toNat 63 32
  | .rpcWdog => b2n s.rpc.wdogEn * 2 ^ 31 + s.rf .rpcWdog 15 0
  | .rpcWdogKick => 0
  | .rpcBoot => b2n s.rpc.quar * 2 + b2n s.rpc.done
  | .rpcBootStat => s.bootStat
  | .rpcPdStat => bitsOf 32 (fun k => s.rpc.domains.contains (32 * i + k))
  | .rpcIslStat => bitsOf 32 (fun k => s.rpc.islands.contains (32 * i + k))
  | .glbId => 0x2A710000 + Config.stepping.toNat * 2 ^ 8 + Config.metal.toNat
  | .glbSerialLo => fld Config.serial.toNat 31 0
  | .glbSerialHi => fld Config.serial.toNat 63 32
  | .glbTimeLo => fld s.now.toNat 31 0
  | .glbTimeHi => fld s.now.toNat 63 32
  | .glbReady => bitsOf 19 s.ready
  | .glbFrozen => bitsOf 19 (fun b => s.flc.blocks.contains b) * 16 + bitsOf 4 (fun r => s.flc.regions.contains r)
  | .glbPinStat => s.pinStat
  | _ => s.reg r ix

/-! ## Reads (R407, R604, R606, R608, R609) -/

/-- Whether a register is the lower or the upper half of a 64-bit pair. -/
def RegName.hiOf : RegName → Option RegName
  | .xltInvAddrLo => some .xltInvAddrHi
  | .dqeCtlRingLo => some .dqeCtlRingHi
  | .seCntIssueLo => some .seCntIssueHi
  | .pcrGridLo => some .pcrGridHi
  | .pcrHeatLo => some .pcrHeatHi
  | .ftcCapLo => some .ftcCapHi
  | .crgCcwinBaseLo => some .crgCcwinBaseHi
  | .crgMemwinDvaLo => some .crgMemwinDvaHi
  | .glbRstTimeLo => some .glbRstTimeHi
  | .glbSerialLo => some .glbSerialHi
  | .glbTimeLo => some .glbTimeHi
  | _ => none
def RegName.isHi (r : RegName) : Bool := regNames.any (fun x => x.hiOf == some r)

/-- Whether a function's BAR0 serves a window (R407). -/
def State.winServed (s : State) (who : Who) (b : Nat) : Bool :=
  match who with
  | .host f => s.isPf f || b == Blk.glb || b == Blk.dqe || b == Blk.pcr || b == Blk.hpx
  | _ => true

/-- Registers whose value is undefined until RPC writes them at step 3 of R597 (R4, R602). -/
def State.viewOpen (s : State) (r : RegName) : Bool := (r == .rpcPdStat || r == .rpcIslStat) && !s.islandOn 94

/-- The plain offset of an address within its window: an alias reads and writes the register at offset x (R606). -/
def plainAddr (a : Nat) : Nat := a / 0x10000 * 0x10000 + a % 0x4000

/-- REG_PARITY for a register that a check has found bad (R609). -/
def State.parityFault (s : State) (who : Who) (a : Nat) : State :=
  s.raise { src := Src.regParity, who := who, addr := BitVec.ofNat 64 a, acc := .regRead, akind := .bar0 }

/-- A register read: its value, and the state after its parity check. -/
def State.readReg (s : State) (who : Who) (r : RegName) (ix : List Nat) : Word × State :=
  let a := regAddr r ix
  let s1 := if s.badPar.contains a then s.parityFault who a else s
  if s.viewOpen r then
    let d := s1.draw
    (d.1.truncate 32, d.2)
  else (BitVec.ofNat 32 (s.regView who r ix), s1)

/-- The shadows of an initiator without the one of a window. -/
def State.shadowDrop (s : State) (who : Who) (b : Nat) : List (Who × Nat × Word) :=
  s.shadows.filter (fun x => !(x.1 == who && x.2.1 / 0x10000 == b))

/-- A read at a BAR0 offset: a LO register loads the initiator's shadow of the window with its HI half; a HI register
returns a shadow of its own pair once (R608). An offset that names no register, or lies in a window that is not served,
reads 0. -/
def State.readAt (s : State) (who : Who) (addr : Nat) : Word × State :=
  let a := plainAddr addr
  let b := a / 0x10000
  match regAt a with
  | none => (0, s)
  | some (r, ix) =>
    if !s.winServed who b then (0, s)
    else
      match r.hiOf with
      | some h =>
        let v := s.readReg who r ix
        let hi := BitVec.ofNat 32 (s.regView who h ix)
        (v.1, { v.2 with shadows := v.2.shadowDrop who b ++ [(who, a, hi)] })
      | none =>
        match s.shadows.find? (fun x => x.1 == who && x.2.1 + 4 == a && r.isHi) with
        | some x => (x.2.2, { (s.readReg who r ix).2 with shadows := s.shadowDrop who b })
        | none => s.readReg who r ix

/-- A read answered to its initiator. -/
def State.readOut (s : State) (who : Who) (addr : Nat) : State :=
  let v := s.readAt who addr
  v.2.emit (.coreVal who v.1)

/-- PAIR_LO_READ: a read by a function, a core or a session. It serves every other register too, HI halves among them: the
table has no other row for a read. -/
def State.pairRead (s : State) (who : Who) (addr : Nat) : State :=
  if addr % 4 ≠ 0 ∨ !s.islandOn (regIsland (plainAddr addr)) then s
  else
    match who with
    | .host f => s.inbound f false (BitVec.ofNat 64 addr) .regRead .bar0 (fun t => t.readOut who addr) (addr / 0x10000 == Blk.hpx)
    | .core n => if s.coreRuns n then s.readOut who addr else s
    | .mgt _ _ => if s.reader who then s.readOut who addr else s
    | _ => s

def execPairLoRead (who : Who) (addr : BitVec 21) (s : State) : Host.Outcome State Fault Refusal :=
  done (s.pairRead who addr.toNat)

/-- STATUS_READ: MGT reads any register for a session (R546, R551); the island of a register can be off (R614). -/
def State.statusRead (s : State) (who : Who) (addr : Nat) : State :=
  if addr % 4 ≠ 0 ∨ !s.reader who then s
  else if !s.islandOn (regIsland (plainAddr addr)) then s.emit (.mgtRefuse Why.islandOff)
  else s.readOut who addr

def execStatusRead (who : Who) (addr : BitVec 21) (s : State) : Host.Outcome State Fault Refusal :=
  done (s.statusRead who addr.toNat)

/-- PARITY_SCAN: the registers at these offsets whose stored parity no longer matches, and what the scan finds (R609). -/
def State.parityScan (s : State) (bad : List Nat) : State :=
  let held (a : Nat) : Bool := match regAt a with
    | some (r, _) => r.row.fields.any (fun f => f.acc == .rw || f.acc == .ce || f.acc == .lk || f.acc == .set1)
    | none => false
  let all := (bad.filter held).foldl addTo s.badPar
  forAll all { s with badPar := all } (fun t a => t.parityFault .hw a)

def execParityScan (bad : List (BitVec 21)) (s : State) : Host.Outcome State Fault Refusal :=
  done (s.parityScan (bad.map BitVec.toNat))

end Sys2Proof.Machine
end

