-- ==== Sys2Proof/Machine/Registers.lean ====
section
/-! DEFINITION. Register writes: who may write, reserved encodings, fields by their access codes, aliases, block control,
and the effects of the registers that have one (R4 to R7, R35, R41, R118, R151, R186, R220, R286, R348, R350, R358, R370,
R401, R428, R456, R493, R494, R519, R520, R552, R553, R581, R583, R602 to R607, R609 to R612, R615, R616); writes of a
function's configuration and of its MSI-X table (R136, R137, R338, R410, R417, R420 to R422). -/

namespace Sys2Proof.Machine

/-! ## Who may write (R604, R615) -/

/-- The block of a register instance. -/
def regBlk (r : RegName) (ix : List Nat) : Nat := if r = .blkCtrl then ix0 ix else r.row.blk

/-- Ring registers of MAP, and the XLT_INV registers, which only control cores write (R118, R350). -/
def RegName.coreOnly : RegName → Bool
  | .mapRingBase => true
  | .mapRingCtrl => true
  | .mapRingTail => true
  | .mapRingHead => true
  | .mapRingCqbase => true
  | .mapRingCqctrl => true
  | .mapRingCqprod => true
  | .mapRingCqcons => true
  | .xltInvAddrLo => true
  | .xltInvAddrHi => true
  | .xltInvLen => true
  | .xltInvCmd => true
  | .xltInvStat => true
  | _ => false

/-- Whether a PF may write a register, by the rules of its block. -/
def State.pfMayWrite (s : State) (f : FnId) (r : RegName) (ix : List Nat) : Bool :=
  let b := regBlk r ix
  let p : PortId := BitVec.ofNat 2 (ix0 ix)
  if b = Blk.dqe then true
  else if b = Blk.xlt ∨ b = Blk.map then !r.coreOnly
  else
    match r with
    | .seSrndCtrl => true
    | .hpxLpm => s.linkWriter (.host f) (ix0 ix)
    | .hpxLrel => s.linkWriter (.host f) (ix0 ix)
    | .hpxIntxSeen => s.linkWriter (.host f) (ix0 ix)
    | .crgMemwinCtrl => winWriter (.host f) p
    | .crgMemwinDvaLo => winWriter (.host f) p
    | .crgMemwinDvaHi => winWriter (.host f) p
    | .crgMemwinSize => winWriter (.host f) p
    | .lktReq => true
    | .lktSel => true
    | _ => false

/-- Whether an initiator may write a register. Budgets take writes of every function (R370); an operator's session writes
FLC's registers, and releases links (R426, R583). -/
def State.mayWrite (s : State) (who : Who) (r : RegName) (ix : List Nat) : Bool :=
  match who with
  | .core _ => true
  | .host f => r == .pcrBudSel || r == .pcrBudData || (s.isPf f && s.pfMayWrite f r ix)
  | .mgt _ _ => s.operator who && (regBlk r ix == Blk.flc || r == .hpxLrel)
  | _ => false

/-! ## Reserved encodings (R6) -/

/-- Whether a number lies in a range. -/
def inRange (lo hi n : Nat) : Bool := decide (lo ≤ n ∧ n ≤ hi)

/-- The CXL.cache windows of a port whose valid bit is 1, but for one, as first and one past the last host address. -/
def State.otherWindows (s : State) (p w : Nat) : List (Nat × Nat) :=
  ((rangeFrom 0 16).filter (fun k => k != w && s.rf .crgCcwinCtrl 0 0 [p, k] == 1)).map (fun k =>
    let b := s.rf .crgCcwinBaseLo 31 21 [p, k] * 2 ^ 21 + s.rf .crgCcwinBaseHi 15 0 [p, k] * 2 ^ 32
    (b, b + s.rf .crgCcwinSize 26 0 [p, k] * 2 ^ 21))

/-- Whether a valid window of a port can stand at a base with a size (R456). -/
def State.windowFits (s : State) (p w base units : Nat) : Bool :=
  decide (units ≠ 0 ∧ base + units * 2 ^ 21 ≤ 2 ^ 48) &&
  (s.otherWindows p w).all (fun x => decide (base + units * 2 ^ 21 ≤ x.1 ∨ x.2 ≤ base))

/-- Whether a CXL.cache window's registers stay a legal window when one of them takes a value. -/
def State.ccwinLegal (s : State) (r : RegName) (p w v : Nat) : Bool :=
  let lo := if r = .crgCcwinBaseLo then fld v 31 21 else s.rf .crgCcwinBaseLo 31 21 [p, w]
  let hi := if r = .crgCcwinBaseHi then fld v 15 0 else s.rf .crgCcwinBaseHi 15 0 [p, w]
  let units := if r = .crgCcwinSize then fld v 26 0 else s.rf .crgCcwinSize 26 0 [p, w]
  let valid := if r = .crgCcwinCtrl then fld v 0 0 else s.rf .crgCcwinCtrl 0 0 [p, w]
  valid = 0 || s.windowFits p w (lo * 2 ^ 21 + hi * 2 ^ 32) units

/-- The greatest share of a context: its virtual device's ceiling (R358), and 896 (R370). -/
def State.shareLimit (s : State) (c : CtxId) : Nat := min 896 (s.vdev (s.ctxVdix c)).grant.shareMax.toNat

/-- Whether a value written to a register holds no reserved encoding. -/
def State.legal (s : State) (r : RegName) (ix : List Nat) (v : Nat) : Bool :=
  let i := ix0 ix
  match r with
  | .smsCtrl => inRange 100 65535 (fld v 15 0)
  | .ddlCtrl => fld v 7 0 != 0
  | .xltInvCmd => decide (fld v 19 16 < 8)
  | .xltTierReserve => inRange 16 256 (fld v 11 0) && decide (fld v 11 0 + s.rf .xltTierPinmax 11 0 ≤ 2816)
  | .xltTierPinmax => inRange 0 2560 (fld v 11 0) && decide (fld v 11 0 + s.rf .xltTierReserve 11 0 ≤ 2816)
  | .xltCtrl => inRange 4 12 (fld v 11 8) && fld v 2 2 == 0 && fld v 1 0 != 3
  | .dqeCtrl => fld v 31 16 != 0 && fld v 15 8 != 0
  | .mapCtrl => inRange 1 16 (fld v 12 8) && inRange 1 8 (fld v 3 0)
  | .mapPaceCfg => inRange 0 10 (fld v 15 12)
  | .mapRingCtrl => inRange 4 12 (fld v 12 8)
  | .mapRingCqctrl => inRange 4 12 (fld v 12 8)
  | .mapAggCtrl => inRange 1 8 (fld v 3 0)
  | .pcrCtrl => fld v 23 16 != 0 && inRange 0 4 (fld v 11 8)
  | .pcrHeatLen => inRange 1000 100000000 (fld v 26 0)
  | .pcrMaprate => inRange 50 2000 (fld v 11 0)
  | .pcrOt => inRange 1 128 (fld v 31 24) && inRange 1 255 (fld v 23 16) && inRange 1 28 (fld v 15 8) && inRange 1 64 (fld v 7 0)
  | .pcrBudData => inRange 0 (s.shareLimit (BitVec.ofNat 14 (s.rf .pcrBudSel 13 0))) (fld v 9 0)
  | .ftcCtrl => inRange 2 64 (fld v 23 16) && inRange 0 8 (fld v 11 8) && inRange 1 4 (fld v 2 0)
  | .ftcPatrol => fld v 31 24 != 0 && fld v 23 16 != 0 && fld v 15 8 != 0 && fld v 2 0 != 0
  | .ftcWear => inRange 16 65535 (fld v 15 0)
  | .hpxLpm => fld v 15 8 != 0
  | .crgCtrl => inRange 8 255 (fld v 7 0)
  | .crgCcwinBaseLo => s.ccwinLegal r i (ix0 (ix.drop 1)) v
  | .crgCcwinBaseHi => s.ccwinLegal r i (ix0 (ix.drop 1)) v
  | .crgCcwinSize => s.ccwinLegal r i (ix0 (ix.drop 1)) v
  | .crgCcwinCtrl => s.ccwinLegal r i (ix0 (ix.drop 1)) v
  | .crgMemwinSize => inRange 1 2048 (fld v 11 0)
  | .bndCtrl => inRange 20 255 (fld v 31 24) && inRange 1 (fld v 31 24 / 4) (fld v 23 16) && fld v 15 0 != 0
  | .icuCtrl => inRange 100 65535 (fld v 15 0)
  | .icuSwset => fld v 9 0 < 16 || 128 ≤ fld v 9 0
  | .icuSrcCfg => fld v 31 31 == 0 || icuAssigned i
  | .lktReq => inRange 1 2 (fld v 31 28)
  | .secCtrl => inRange 1 8 (fld v 3 0)
  | .flcCtrl => fld v 19 8 != 0
  | .flcRelease => inRange 0 3 (fld v 7 0) || inRange 0x10 0x22 (fld v 7 0)
  | .flcSrcCfg => inRange 0 4 (fld v 6 4) && s.srcWritable (BitVec.ofNat 9 i)
  | .rpcRstCmd => match fld v 11 8 with
    | 0 => fld v 7 0 < 32
    | 1 => fld v 7 0 < 8
    | 2 => fld v 7 0 < 4
    | 3 => fld v 7 0 < 16
    | 4 => fld v 7 0 < 16
    | 6 => fld v 7 0 < 16
    | _ => false
  | .rpcWdog => inRange 10 65535 (fld v 15 0)
  | _ => true

/-! ## Fields (R5, R7) -/

/-- The stored value of a field after a write, and whether its code refuses it. `plain` tells a write at the register's own
offset; through an alias, a field that does not change is neither written nor checked. -/
def RField.write (f : RField) (enable lock plain : Bool) (old v : Nat) : Nat × Bool :=
  let o := fld old f.hi f.lo
  let n := fld v f.hi f.lo
  let touched := plain || n != o
  match f.acc with
  | .rw => (n, false)
  | .ro => (o, false)
  | .wo => (0, false)
  | .rsv => (0, false)
  | .ce => if enable && touched then (o, touched) else (n, false)
  | .lk => if lock && touched then (o, touched) else (n, false)
  | .set1 => (o ||| n, false)

/-- The stored value of a register after a write, and whether a field of it was refused. -/
def fieldsWrite (fs : List RField) (enable lock plain : Bool) (old v : Nat) : Nat × Bool :=
  let xs := fs.map (fun f => (f, f.write enable lock plain old v))
  ((xs.map (fun x => x.2.1 * 2 ^ x.1.lo)).sum, xs.any (fun x => x.2.2))

/-- A register's fields written by their codes, with one CFG_REJECT for what is refused. A write makes the stored parity
right again (R609). -/
def State.storeFields (s : State) (who : Who) (r : RegName) (ix : List Nat) (plain : Bool) (v : Nat) : State :=
  let b := regBlk r ix
  let x := fieldsWrite r.row.fields (s.enabled b) (s.rf .blkCtrl 1 1 [b] == 1) plain (s.reg r ix) v
  let s1 := s.putReg r ix x.1
  if x.2 then s1.cfgReject who (regAddr r ix) else s1

/-! ## BLK_CTRL (R610 to R612) -/

/-- The values that a block's registers hold come into force. -/
def State.applyForce (s : State) (b : Nat) : State :=
  { s with force := (s.regs.filter (fun e => e.1 / 0x10000 == b)).foldl (fun m e => m.put e.1 e.2) s.force }

/-- What a block does when it begins to take work: what waited at its sources goes on, and the work that its chapter ties
to the change of enable is done (R115, R354, R401, R453). `changed` tells a change of enable from the end of a freeze. -/
def State.blockStart (s : State) (b : Nat) (changed : Bool) (oldL : Nat) : State :=
  if b = Blk.hpx then forAll allLinks s State.portResume
  else if b = Blk.ofp ∨ b = Blk.ddl ∨ b = Blk.crg then s.relaunch
  else if b = Blk.xlt then
    if changed && s.xlt.rewritten then
      { s with xlt := { s.xlt with cache := [], roots := [], plru := [], rewritten := false } }
    else s
  else if b = Blk.map then forAll (rangeFrom 0 16) s (fun t r => t.ringRun r 8)
  else if b = Blk.pcr then (if changed ∨ !s.pcr.running then s.pcrEnable oldL else s)
  else if b = Blk.ftc then
    let s1 : State :=
      if changed && s.ftc.mounted then
        { s with ftc := { s.ftc with chrate := mountRates s.ftc.targets (s.ce .ftcCtrl 2 0) } }
      else s
    s1.placePrograms
  else if b = Blk.sec then s.sweepNext sweepSteps
  else if b = Blk.bnd then s.bndResume
  else if b = Blk.flc then s.spillFollow
  else s

/-- A block begins to run after its enable has become 1: the new values come into force. -/
def State.blockEnabled (s : State) (b : Nat) : State :=
  let oldL := s.heatL
  (s.applyForce b).blockStart b true oldL

/-- A write of BLK_CTRL. A block that is enabled again while its work goes on first completes it (R611). -/
def State.blkWrite (s : State) (who : Who) (b : Nat) (plain : Bool) (v : Nat) : State :=
  let was := s.enabled b
  let s1 := s.storeFields who .blkCtrl [b] plain v
  let now := s1.enabled b
  if was = now then s1
  else if now then
    if s.blockBusy b then { s1 with ceWait := addTo s1.ceWait b }
    else s1.blockEnabled b
  else
    let s2 : State := { s1 with ceWait := dropFrom s1.ceWait b }
    if b = Blk.crg then s2.crgDisable else s2

/-- BLK_CTRL_WRITE. -/
def State.blkCtrlWrite (s : State) (who : Who) (b : Nat) (v : Nat) : State :=
  if b ≥ 19 then s
  else s.writeBy (s.mayWrite who .blkCtrl [b]) who .blkCtrl [b] (fun t => t.blkWrite who b true v)

def execBlkCtrlWrite (who : Who) (block : BitVec 5) (v : Word) (s : State) : Host.Outcome State Fault Refusal :=
  done (s.blkCtrlWrite who block.toNat v.toNat)

/-- Blocks whose work under the old values has ended come into force (R611). -/
def State.ceFollow (s : State) : State :=
  forAll (s.ceWait.filter (fun b => !s.blockBusy b)) s (fun t b =>
    ({ t with ceWait := dropFrom t.ceWait b } : State).blockEnabled b)

/-! ## Releases of blocks (R581) -/

/-- The unit reset of a block's units. -/
def State.blockReset (s : State) (b : Nat) : State :=
  if b = Blk.se then forAll (rangeFrom 0 32) s State.seReset
  else if b = Blk.map then forAll (rangeFrom 0 16) (forAll (rangeFrom 0 8) s State.moverReset) State.laneReset
  else if b = Blk.xlt then forAll (rangeFrom 0 4) s State.requeueWalks
  else s

/-- FLC_RELEASE of a block, by the primary recovery core. -/
def State.releaseBlock (s : State) (who : Who) (b : Nat) : State :=
  s.writeBy (decide (who = .core s.primaryCore) && decide (b < 19)) who .flcRelease [] (fun t =>
    let t1 := t.putReg .flcRelease [] (0x10 + b)
    if !t1.flc.blocks.contains b then t1
    else
      let t2 := (t1.blockReset b).rstCause 3 9 (7 * 256 + b)
      ({ t2 with flc := { t2.flc with blocks := dropFrom t2.flc.blocks b } } : State).blockStart b false t2.heatL)

def execFlcReleaseBlock (who : Who) (b : BitVec 5) (s : State) : Host.Outcome State Fault Refusal :=
  done (s.releaseBlock who b.toNat)

/-! ## Descriptor rings (R348, R350) -/

/-- MAP_RING_TAIL_WRITE. -/
def State.ringTailWrite (s : State) (who : Who) (r : Nat) (v : Word) : State :=
  s.writeBy (Who.isCore who) who .mapRingTail [r] (fun t => t.ringTail r v)

def execMapRingTailWrite (who : Who) (r : BitVec 4) (v : Word) (s : State) : Host.Outcome State Fault Refusal :=
  done (s.ringTailWrite who r.toNat v)

/-- MAP_RING_CTRL written: enable and lsize. -/
def State.ringCtrlStore (s : State) (who : Who) (r : Nat) (v : Nat) : State :=
  if s.legal .mapRingCtrl [r] v then (s.storeFields who .mapRingCtrl [r] true v).ringEnable r (v.testBit 31)
  else s.cfgReject who (regAddr .mapRingCtrl [r])

/-- MAP_RING_ENABLE. -/
def State.ringCtrlWrite (s : State) (who : Who) (r : Nat) (v : Nat) : State :=
  s.writeBy (Who.isCore who) who .mapRingCtrl [r] (fun t => t.ringCtrlStore who r v)

def execMapRingEnable (who : Who) (r : BitVec 4) (v : Word) (s : State) : Host.Outcome State Fault Refusal :=
  done (s.ringCtrlWrite who r.toNat v.toNat)

/-! ## Registers with an effect of their own -/

/-- Whether an invalidation's values cannot be used (R118). -/
def invUnusable (op : InvOp) (hi id : Nat) : Bool :=
  match op with
  | .s2page => hi.testBit 24 || fld id 13 8 != 0
  | .s2range => hi.testBit 24 || fld id 13 8 != 0
  | .vdev => fld id 13 8 != 0
  | .l0fn => fld id 13 10 != 0
  | _ => false

/-- XLT_INV_CMD written with go = 1 (R118). -/
def State.invGo (s : State) (who : Who) (v : Nat) : State :=
  if s.xlt.invBusy then s.cfgReject who (regAddr .xltInvCmd [])
  else
    let hi := s.reg .xltInvAddrHi
    let addr := s.rf .xltInvAddrLo 31 12 * 4096 + fld hi 24 0 * 2 ^ 32
    let len := s.reg .xltInvLen
    match invOpOf (fld v 19 16) with
    | none => s
    | some op =>
      if invUnusable op hi (fld v 13 0) then { s with xlt := { s.xlt with invResult := 1 } }
      else if (op = .range ∨ op = .s2range) ∧ len = 0 then { s with xlt := { s.xlt with invResult := 0 } }
      else
        let i : Inv := { id := 0, src := .regs, op := op, scope := invScope op (fld v 13 0), addr := BitVec.ofNat 64 addr, len := len }
        let s1 : State := { s with xlt := { s.xlt with invBusy := true, invResult := 0 } }
        s1.invAdd i

/-- PCR_BUD_DATA: the share of the selected context, within the writer's scope (R358, R370). -/
def State.budWrite (s : State) (who : Who) (v : Nat) : State :=
  let c : CtxId := BitVec.ofNat 14 (s.rf .pcrBudSel 13 0)
  let mine : Bool := match who with
    | .host f => s.ctxIn f c
    | _ => (s.ctx? c).isSome
  if mine then s.updCtx c (fun x => { x with share := fld v 9 0 }) else s.cfgReject who (regAddr .pcrBudData [])

/-- A write of CRG_MEMWIN_CTRL: valid 1 checks and holds; valid 0 ends a window (R448, R452, R456). -/
def State.memwinCtrl (s : State) (who : Who) (p n v : Nat) : State :=
  let ix := [p, n]
  if v.testBit 31 then s.memwinSet who (BitVec.ofNat 2 p) (BitVec.ofNat 1 n) (BitVec.ofNat 32 v)
  else
    let open_ := (s.crg.wins.look (2 * p + n)).isSome
    let changes := fld v 13 0 != s.rf .crgMemwinCtrl 13 0 ix
    let s1 := if open_ then s.memwinClear who (BitVec.ofNat 2 p) (BitVec.ofNat 1 n)
      else s.putReg .crgMemwinCtrl ix (fld v 13 0)
    if open_ && changes then s1.cfgReject who (regAddr .crgMemwinCtrl ix) else s1

/-- The address and size registers of a CXL.mem window keep their values while it is valid (R456). -/
def State.memwinField (s : State) (who : Who) (r : RegName) (ix : List Nat) (v : Nat) : State :=
  let k := 2 * ix0 ix + ix0 (ix.drop 1)
  let x := fieldsWrite r.row.fields true false true (s.reg r ix) v
  if (s.crg.wins.look k).isSome ∧ x.1 ≠ s.reg r ix then s.cfgReject who (regAddr r ix) else s.putReg r ix x.1

/-- The reset that RPC_RST_CMD names (R586). -/
def State.rstWrite (s : State) (who : Who) (v : Nat) : State :=
  let kind := fld v 11 8
  let k := fld v 7 0
  match kind with
  | 0 => s.rstCmd who 0 k (k / 8) (fun t => if k < 32 then t.seReset k else t)
  | 1 => s.rstCmd who 1 k (unitRegion k) (fun t => if k < 8 then t.moverReset k else t)
  | 2 => s.rstCmd who 2 k k (fun t => if k < 4 then t.requeueWalks k else t)
  | 3 => s.rstCmd who 3 k (k / 4) (fun t => if k < 16 then t.laneReset k else t)
  | 4 => s.rstCmd who 4 k (coreRegion k) (fun t => if k < 16 then t.coreReset k else t)
  | _ => s.rstCmd who 6 k (k / 4) (fun t => if k < 16 then t.clusterReset k else t)

/-- FLC_RC_CTRL: arm and restart (R577 to R579). -/
def State.rcCtrl (s : State) (who : Who) (v : Nat) : State :=
  let s1 := if v.testBit 8 then s.rcArm who else s
  if v.testBit 4 then s1.rcRestart who else s1

/-- FLC_SRC_CFG: class, level, and a forced fault (R561, R570). -/
def State.srcCfgWrite (s : State) (who : Who) (i v : Nat) : State :=
  let n : BitVec 9 := BitVec.ofNat 9 i
  let s1 := s.faultPolicy who n (BitVec.ofNat 3 (fld v 6 4)) (BitVec.ofNat 2 (fld v 1 0))
  if v.testBit 31 then s1.faultForce who n else s1

/-- FLC_RELEASE: with go, the target is released. -/
def State.releaseWrite (s : State) (who : Who) (v : Nat) : State :=
  let n := fld v 7 0
  if !v.testBit 31 then s.putReg .flcRelease [] n
  else if n < 4 then s.releaseRegion who n
  else s.releaseBlock who (n - 0x10)

/-- RPC_WDOG: en starts the run-time watchdog (R595). -/
def State.wdogWrite (s : State) (who : Who) (plain : Bool) (v : Nat) : State :=
  let s1 := s.storeFields who .rpcWdog [] plain (fld v 30 0)
  if v.testBit 31 ∧ !s.rpc.wdogEn then { s1 with rpc := { s1.rpc with wdogEn := true, kickAt := s1.now } } else s1

/-- RPC_BOOT: done and quar (R596, R599). -/
def State.bootWrite (s : State) (v : Nat) : State :=
  let s1 : State := if v.testBit 0 then { s with rpc := { s.rpc with done := true, bootRun := false, attempts := 0 } } else s
  if v.testBit 1 then { s1 with rpc := { s1.rpc with quar := true } } else s1

/-- The bits that a write of a register sets: through an alias, those that it changes (R7). -/
def State.newly (s : State) (who : Who) (r : RegName) (ix : List Nat) (plain : Bool) (v : Nat) : Nat :=
  if plain then v else v - (v &&& s.regView who r ix)

/-- A value written to a register by an initiator that may write it, holding no reserved encoding. A register whose write
is a row of the table acts as that row says. -/
def State.regApply (s : State) (who : Who) (r : RegName) (ix : List Nat) (plain : Bool) (v : Nat) : State :=
  let i := ix0 ix
  match r with
  | .blkCtrl => s.blkWrite who i plain v
  | .hpxPortCfg => s.portCfg who v
  | .hpxLrel => if v.testBit 0 then s.linkRelease who i else s
  | .hpxIntxSeen => s.intxSeen who i (BitVec.ofNat 32 v)
  | .ofpPortCfg => s.ofpPortCfg who (BitVec.ofNat 4 i) v
  | .crgMemwinCtrl => s.memwinCtrl who i (ix0 (ix.drop 1)) v
  | .crgMemwinDvaLo => s.memwinField who r ix v
  | .crgMemwinDvaHi => s.memwinField who r ix v
  | .crgMemwinSize => s.memwinField who r ix v
  | .icuSwset => s.icuSwset who (fld v 9 0)
  | .lktReq =>
    let k : BitVec 12 := BitVec.ofNat 12 v
    if fld v 31 28 = 1 then s.lktReq who k (fun t o => t.lkTry k.toNat o) else s.lktReq who k (fun t o => t.lkRel k.toNat o)
  | .mapRingTail => s.ringTailWrite who i (BitVec.ofNat 32 v)
  | .mapRingCtrl => s.ringCtrlWrite who i v
  | .mapRingCqcons => s.ringCons i (BitVec.ofNat 32 v)
  | .xltInvCmd => let s1 := s.storeFields who r ix plain v; if v.testBit 31 then s1.invGo who v else s1
  | .flcCtrl =>
    let s1 := s.storeFields who r ix plain v
    if s.enabled Blk.flc then s1 else { s1 with flc := { s1.flc with spillStop := false } }
  | .xltCtrl =>
    let s1 := s.storeFields who r ix plain v
    if s.enabled Blk.xlt then s1 else { s1 with xlt := { s1.xlt with rewritten := true } }
  | .pcrBudData => s.budWrite who v
  | .flcAck => s.flcAck who (BitVec.ofNat 9 v)
  | .flcLogCons => s.logConsume who (BitVec.ofNat 32 v)
  | .flcLogResume =>
    if v.testBit 0 then let d := s.draw; d.2.logResume who (d.1.toNat.testBit 0) else s
  | .flcRelease => s.releaseWrite who v
  | .flcRcCtrl => s.rcCtrl who (s.newly who r ix plain v)
  | .flcRcHb0 => match who with
    | .core n => s.heartbeat n false
    | _ => s.cfgReject who (regAddr r ix)
  | .flcRcHb1 => match who with
    | .core n => s.heartbeat n true
    | _ => s.cfgReject who (regAddr r ix)
  | .flcSrcCfg => s.srcCfgWrite who i v
  | .rpcRstCmd => if v.testBit 31 then s.rstWrite who v else s.storeFields who r ix plain v
  | .rpcWdog => s.wdogWrite who plain v
  | .rpcWdogKick => { s with rpc := { s.rpc with kickAt := s.now } }
  | .rpcBoot => s.bootWrite (s.newly who r ix plain v)
  | _ => s.storeFields who r ix plain v

/-! ## Writes at an offset (R604, R606, R607) -/

/-- The operation of an alias on a register's value. -/
inductive AliasOp where
  | plain | set | clear | toggle
  deriving DecidableEq, Repr

/-- The value that a write through an alias stands for (R606): a WO field's current value is 0. -/
def AliasOp.value : AliasOp → Nat → Nat → Nat
  | .plain, _, v => v
  | .set, cur, v => cur ||| v
  | .clear, cur, v => cur - (cur &&& v)
  | .toggle, cur, v => cur ^^^ v

/-- Whether a register holds a WO field wider than one bit (R607). -/
def RegName.wideWo (r : RegName) : Bool := r.row.fields.any (fun f => f.acc == .wo && f.hi != f.lo)

/-- A write that has reached its window. -/
def State.regServe (s : State) (who : Who) (op : AliasOp) (a v : Nat) : State :=
  match regAt a with
  | none => s.cfgReject who a
  | some (r, ix) =>
    if !s.winServed who (a / 0x10000) || !s.mayWrite who r ix || (op != .plain && r.wideWo) then s.cfgReject who a
    else
      let w := op.value (s.regView who r ix) v
      let s1 : State := { s with badPar := dropFrom s.badPar a }
      if s.legal r ix w then s1.regApply who r ix (op == .plain) w else s.cfgReject who a

/-- A write at a BAR0 offset of the plain part of a window. -/
def State.regWrite (s : State) (who : Who) (op : AliasOp) (a v : Nat) : State :=
  match who with
  | .host _ => s.regArrive who a (fun t => if a % 4 = 0 then t.regServe who op a v else t.cfgReject who a)
  | .core n =>
    if a % 4 = 0 then s.regArrive who a (fun t => t.regServe who op a v)
    else s.ccBusErr n (BitVec.ofNat 40 (0x100000000 + a)) 4 true
  | .mgt _ _ => if s.operator who ∧ a % 4 = 0 then s.regArrive who a (fun t => t.regServe who op a v) else s
  | _ => s

/-- The alias that an offset lies in. -/
def aliasOf (a : Nat) : AliasOp :=
  match a % 0x10000 / 0x4000 with
  | 0 => .plain
  | 1 => .set
  | 2 => .clear
  | _ => .toggle

/-! ## A function's configuration and MSI-X table -/

/-- A field of a function's configuration space written. -/
def State.cfgWrite (s : State) (f : FnId) (c : CfgField) (v : Nat) : State :=
  let on := v.testBit 0
  let l := s.fnLink f
  if !(s.fn f).present ∨ !(s.link l).dlup then s
  else
    match c with
    | .maxPayload => s.updFn f (fun x => { x with mps := BitVec.ofNat 3 (min 2 v) })
    | .relaxedOrdering => s.updFn f (fun x => { x with ro := on })
    | .idOrdering => s.updFn f (fun x => { x with ido := on })
    | .priEnable => if on then s.updFn f (fun x => { x with pri := true, priStopped := false, priFail := false }) else s.priClear f
    | .priAlloc => (s.updFn f (fun x => { x with priAlloc := v })).prgNext f 512
    | .msixEnable => (s.updFn f (fun x => { x with msixEn := on })).msixFlush f
    | .msixFunctionMask => (s.updFn f (fun x => { x with fmask := on })).msixFlush f
    | .pmeEnable => (s.updFn f (fun x => { x with pmeEn := on })).wakeCheck f
    | .pmeStatus => if on then (s.updFn f (fun x => { x with pmeSt := false })).wakeCheck f else s
    | .memorySpace =>
      if s.isPf f then s.updFn f (fun x => { x with mse := on })
      else if on then s.updFn (State.linkPf l) (fun x => { x with vfMse := true })
      else s.vfMseClear (State.linkPf l)
    | .aspmL1 => if s.isPf f then s.updLink l (fun k => { k with aspm := on }) else s
    | .l0p => if s.isPf f then s.updLink l (fun k => { k with l0pEn := on }) else s

/-- A word of a function's MSI-X table written over BAR4 (R406): address, data or vector control, whose bit 0 masks. -/
def State.msixWrite (s : State) (f : FnId) (vec : Nat) (word : Nat) (v : Word) : State :=
  s.inbound f true (BitVec.ofNat 64 (16 * vec + 4 * word)) .write .none (fun t =>
    let old := ((t.fn f).vectors.look vec).getD (0, 0, true)
    let new : DWord × Word × Bool := match word with
      | 0 => (BitVec.ofNat 64 (old.1.toNat / 2 ^ 32 * 2 ^ 32 + v.toNat / 4 * 4), old.2.1, old.2.2)
      | 1 => (BitVec.ofNat 64 (old.1.toNat % 2 ^ 32 + v.toNat * 2 ^ 32), old.2.1, old.2.2)
      | 2 => (old.1, v, old.2.2)
      | _ => (old.1, old.2.1, v.toNat.testBit 0)
    (t.updFn f (fun x => { x with vectors := x.vectors.put vec new })).msixFlush f)

/-- REGISTER_WRITE. An offset in an alias of its window is a write through that alias. -/
def execRegisterWrite (who : Who) (t : RegTarget) (v : Word) (s : State) : Host.Outcome State Fault Refusal :=
  done (match t with
    | .win addr => s.regWrite who (aliasOf addr.toNat) (plainAddr addr.toNat) v.toNat
    | .cfg f r => s.cfgWrite f r v.toNat
    | .msix f vec word => s.msixWrite f vec.toNat word.toNat v)

/-- ALIAS_SET_WRITE, ALIAS_CLEAR_WRITE and ALIAS_TOGGLE_WRITE: `addr` is the offset of the register itself. -/
def execAliasSetWrite (who : Who) (addr : BitVec 21) (v : Word) (s : State) : Host.Outcome State Fault Refusal :=
  done (s.regWrite who .set (plainAddr addr.toNat) v.toNat)

def execAliasClearWrite (who : Who) (addr : BitVec 21) (v : Word) (s : State) : Host.Outcome State Fault Refusal :=
  done (s.regWrite who .clear (plainAddr addr.toNat) v.toNat)

def execAliasToggleWrite (who : Who) (addr : BitVec 21) (v : Word) (s : State) : Host.Outcome State Fault Refusal :=
  done (s.regWrite who .toggle (plainAddr addr.toNat) v.toNat)

/-! ## The tick -/

/-- One nanosecond passes while no command waits (R16; notes/assumptions/1): the time base advances; blocks whose old work
has ended take their new values (R611), and requests that a pause held back leave once it is over (R469). -/
def State.tick (s : State) : State :=
  let s1 : State := { s with now := s.now + 1 }
  let resumed := s1.ofp.links.any (fun e => e.2.pauseTill == s1.now)
  if s1.ceWait.isEmpty && !resumed then s1
  else (if resumed then s1.ceFollow.relaunch else s1.ceFollow).settle

end Sys2Proof.Machine
end

