-- ==== Sys2Proof/Machine/Tap.lean ====
section
/-! DEFINITION. The test access port (R617, R618): the controller of IEEE 1149.1 and the four instructions. One command is
one cycle of TCK. -/

namespace Sys2Proof.Machine

/-- The controller's next state (IEEE 1149.1). -/
def TapSt.next (st : TapSt) (tms : Bool) : TapSt :=
  match st, tms with
  | .reset, true => .reset
  | .reset, false => .idle
  | .idle, true => .selDr
  | .idle, false => .idle
  | .selDr, true => .selIr
  | .selDr, false => .capDr
  | .capDr, true => .ex1Dr
  | .capDr, false => .shDr
  | .shDr, true => .ex1Dr
  | .shDr, false => .shDr
  | .ex1Dr, true => .updDr
  | .ex1Dr, false => .pauDr
  | .pauDr, true => .ex2Dr
  | .pauDr, false => .pauDr
  | .ex2Dr, true => .updDr
  | .ex2Dr, false => .shDr
  | .updDr, true => .selDr
  | .updDr, false => .idle
  | .selIr, true => .reset
  | .selIr, false => .capIr
  | .capIr, true => .ex1Ir
  | .capIr, false => .shIr
  | .shIr, true => .ex1Ir
  | .shIr, false => .shIr
  | .ex1Ir, true => .updIr
  | .ex1Ir, false => .pauIr
  | .pauIr, true => .ex2Ir
  | .pauIr, false => .pauIr
  | .ex2Ir, true => .updIr
  | .ex2Ir, false => .shIr
  | .updIr, true => .selDr
  | .updIr, false => .idle

/-- The instruction that an instruction register holds; an unused code is BYPASS. -/
def tapInstrOf (ir : List Bool) : TapInstr :=
  match Config.tapCode ir with
  | 1 => .idcode
  | 2 => .sample
  | 3 => .extest
  | _ => .bypass

/-- The instruction that acts: EXTEST only while RST_N is low, else BYPASS (R618). -/
def State.tapActs (s : State) : TapInstr := if s.tap.instr = .extest ∧ s.rpc.rstPin then .bypass else s.tap.instr

/-- IDCODE: GLB_ID.part in bits [27:12], bit 0 set. -/
def idcode : Nat := Config.tapIdRest.toNat / 2 ^ 28 * 2 ^ 28 + 0x2A71 * 2 ^ 12 + Config.tapIdRest.toNat % 2 ^ 12 / 2 * 2 + 1

/-- `n` bits of a number, least significant first. -/
def bitList (v : Nat) (n : Nat) : List Bool := (rangeFrom 0 n).map (fun i => v.testBit i)

/-- The levels of the boundary pins, which the model does not hold: free values. -/
def State.pinLevels (s : State) : List Bool × State :=
  ((rangeFrom 0 Config.tapBoundaryLength).map (fun i => (Config.freeWord (s.free + i)).toNat.testBit 0),
   { s with free := s.free + Config.tapBoundaryLength })

/-- The data register takes what the instruction captures. -/
def State.tapCapture (s : State) : State :=
  match s.tapActs with
  | .bypass => { s with tap := { s.tap with dr := [false] } }
  | .idcode => { s with tap := { s.tap with dr := bitList idcode 32 } }
  | _ =>
    let p := s.pinLevels
    { p.2 with tap := { p.2.tap with dr := p.1 } }

/-- What a TCK cycle does in the controller's state. -/
def State.tapAct (s : State) (tdi : Bool) : State :=
  let t := s.tap
  match t.st with
  | .capIr => { s with tap := { t with ir := (bitList 1 Config.tapIrLength) } }
  | .shIr => { s with tap := { t with tdo := t.ir.headD false, ir := t.ir.drop 1 ++ [tdi] } }
  | .updIr => { s with tap := { t with instr := tapInstrOf t.ir } }
  | .capDr => s.tapCapture
  | .shDr => { s with tap := { t with tdo := t.dr.headD false, dr := t.dr.drop 1 ++ [tdi] } }
  | .updDr => if s.tapActs = .sample ∨ s.tapActs = .extest then { s with tap := { t with boundary := t.dr } } else s
  | _ => s

/-- TAP_TCK: Test-Logic-Reset selects IDCODE. -/
def State.tapTck (s : State) (tms tdi : Bool) : State :=
  if !s.powered then s
  else
    let s1 := s.tapAct tdi
    let n := s1.tap.st.next tms
    { s1 with tap := { s1.tap with st := n, instr := if n = .reset then .idcode else s1.tap.instr } }

def execTapTck (tms tdi : Bool) (s : State) : Host.Outcome State Fault Refusal := done (s.tapTck tms tdi)

/-- TRST_N_ASSERT. -/
def execTrstNAssert (s : State) : Host.Outcome State Fault Refusal :=
  done { s with tap := { s.tap with st := .reset, instr := .idcode, ir := [], dr := [], tdo := false } }

end Sys2Proof.Machine
end

