-- ==== Sys2Proof/Machine/Dispatch.lean ====
section
/-! DEFINITION. One arm for each command: a call of its meaning, or a rejection by name. -/

namespace Sys2Proof.Machine

/-- The effect of a command on everything but the queue of waiting commands. -/
def exec (i : Instr) (s : State) : Host.Outcome State Fault Refusal :=
  match i with
  | .doorbellWrite f c q off v => Sys2Proof.Machine.execDoorbellWrite f c q off v s
  | .contextAdmit => Sys2Proof.Machine.execContextAdmit s
  | .evictionStart => Sys2Proof.Machine.execEvictionStart s
  | .evictionSpillDone c => Sys2Proof.Machine.execEvictionSpillDone c s
  | .spillRestoreDone c => Sys2Proof.Machine.execSpillRestoreDone c s
  | .faultDetect f => Sys2Proof.Machine.execFaultDetect f s
  | .escalationDieReset => Sys2Proof.Machine.execEscalationDieReset s
  | .faultLogWrite mediumError => Sys2Proof.Machine.execFaultLogWrite mediumError s
  | .islandAccessTimeout who island acc addr => Sys2Proof.Machine.execIslandAccessTimeout who island acc addr s
  | .ddlCrcRetry m => Sys2Proof.Machine.execDdlCrcRetry m s
  | .ddlLaneDegrade m => Sys2Proof.Machine.execDdlLaneDegrade m s
  | .ddlModuleLinkDown m => Sys2Proof.Machine.execDdlModuleLinkDown m s
  | .ddlModuleRetrain m => Sys2Proof.Machine.execDdlModuleRetrain m s
  | .ddlTrainComplete m die hbm tiles kib => Sys2Proof.Machine.execDdlTrainComplete m die hbm tiles kib s
  | .ddlLinkwaitExpire m => Sys2Proof.Machine.execDdlLinkwaitExpire m s
  | .computeEngineRequest die tile c dva a => Sys2Proof.Machine.execComputeEngineRequest die tile c dva a s
  | .hbmReadResponse id st => Sys2Proof.Machine.execHbmReadResponse id st s
  | .smsPatrolPass finds => Sys2Proof.Machine.execSmsPatrolPass finds s
  | .xlateLookup id => Sys2Proof.Machine.execXlateLookup id s
  | .walk w => Sys2Proof.Machine.execWalk w s
  | .dirtyUpdate id => Sys2Proof.Machine.execDirtyUpdate id s
  | .nextPageWalk d dest => Sys2Proof.Machine.execNextPageWalk d dest s
  | .tblWrite c q => Sys2Proof.Machine.execTblWrite c q s
  | .tableChildUnlink frame => Sys2Proof.Machine.execTableChildUnlink frame s
  | .tableFrameFree frame => Sys2Proof.Machine.execTableFrameFree frame s
  | .tblRead c q => Sys2Proof.Machine.execTblRead c q s
  | .tblFqset c q => Sys2Proof.Machine.execTblFqset c q s
  | .tblSeqCreate c q => Sys2Proof.Machine.execTblSeqCreate c q s
  | .tblSeqFree c q => Sys2Proof.Machine.execTblSeqFree c q s
  | .invPage c q => Sys2Proof.Machine.execInvPage c q s
  | .invRange c q => Sys2Proof.Machine.execInvRange c q s
  | .invCtx c q => Sys2Proof.Machine.execInvCtx c q s
  | .invS2page c q => Sys2Proof.Machine.execInvS2page c q s
  | .invS2range c q => Sys2Proof.Machine.execInvS2range c q s
  | .invVdev c q => Sys2Proof.Machine.execInvVdev c q s
  | .invAll c q => Sys2Proof.Machine.execInvAll c q s
  | .invL0fn c q => Sys2Proof.Machine.execInvL0fn c q s
  | .invPurgeDone k => Sys2Proof.Machine.execInvPurgeDone k s
  | .invComplete k => Sys2Proof.Machine.execInvComplete k s
  | .l2EpochScrub sets => Sys2Proof.Machine.execL2EpochScrub sets s
  | .atsCompletion id r => Sys2Proof.Machine.execAtsCompletion id r s
  | .atsInvalidateRequest f pasid addr lsize glob itag => Sys2Proof.Machine.execAtsInvalidateRequest f pasid addr lsize glob itag s
  | .atsInvalidationCompletion f itag => Sys2Proof.Machine.execAtsInvalidationCompletion f itag s
  | .inboundAtsOrTranslated f addr => Sys2Proof.Machine.execInboundAtsOrTranslated f addr s
  | .atsEnableChange f en => Sys2Proof.Machine.execAtsEnableChange f en s
  | .pasidEnableChange f en => Sys2Proof.Machine.execPasidEnableChange f en s
  | .zeroFillComplete e => Sys2Proof.Machine.execZeroFillComplete e s
  | .flashFillStart => Sys2Proof.Machine.execFlashFillStart s
  | .mapSegmentReadDone seg => Sys2Proof.Machine.execMapSegmentReadDone seg s
  | .flashUnitReadDone e r => Sys2Proof.Machine.execFlashUnitReadDone e r s
  | .prgResponse f idx code => Sys2Proof.Machine.execPrgResponse f idx code s
  | .hostFaultTimeout e => Sys2Proof.Machine.execHostFaultTimeout e s
  | .priEnableClear f => Sys2Proof.Machine.execPriEnableClear f s
  | .queueConsumerPoll rq cons => Sys2Proof.Machine.execQueueConsumerPoll rq cons s
  | .tierEvictStart => Sys2Proof.Machine.execTierEvictStart s
  | .ctxCreate c q => Sys2Proof.Machine.execCtxCreate c q s
  | .ctxEvset c q => Sys2Proof.Machine.execCtxEvset c q s
  | .qCreate c q => Sys2Proof.Machine.execQCreate c q s
  | .qReset c q => Sys2Proof.Machine.execQReset c q s
  | .qResetDrained c q => Sys2Proof.Machine.execQResetDrained c q s
  | .qResume c q => Sys2Proof.Machine.execQResume c q s
  | .qDestroy c q => Sys2Proof.Machine.execQDestroy c q s
  | .ctxPin c q => Sys2Proof.Machine.execCtxPin c q s
  | .ctxUnpin c q => Sys2Proof.Machine.execCtxUnpin c q s
  | .ctxAttach c q => Sys2Proof.Machine.execCtxAttach c q s
  | .attachLockoutExpire c => Sys2Proof.Machine.execAttachLockoutExpire c s
  | .ctxDestroy c q => Sys2Proof.Machine.execCtxDestroy c q s
  | .forcedAbortMemberTimeout c => Sys2Proof.Machine.execForcedAbortMemberTimeout c s
  | .forcedAbortFinal c => Sys2Proof.Machine.execForcedAbortFinal c s
  | .tagSweepDone c => Sys2Proof.Machine.execTagSweepDone c s
  | .orphanLeaseExpire c => Sys2Proof.Machine.execOrphanLeaseExpire c s
  | .objCount c q => Sys2Proof.Machine.execObjCount c q s
  | .hostCounterFetchadd f k v => Sys2Proof.Machine.execHostCounterFetchadd f k v s
  | .hostCounterCas f k cmp new => Sys2Proof.Machine.execHostCounterCas f k cmp new s
  | .hostCounterSwap f k new => Sys2Proof.Machine.execHostCounterSwap f k new s
  | .counterFree k => Sys2Proof.Machine.execCounterFree k s
  | .nop c q => Sys2Proof.Machine.execNop c q s
  | .br c q => Sys2Proof.Machine.execBr c q s
  | .bri c q => Sys2Proof.Machine.execBri c q s
  | .brl c q => Sys2Proof.Machine.execBrl c q s
  | .plog c q => Sys2Proof.Machine.execPlog c q s
  | .pset c q => Sys2Proof.Machine.execPset c q s
  | .pread c q => Sys2Proof.Machine.execPread c q s
  | .pwrite c q => Sys2Proof.Machine.execPwrite c q s
  | .add c q => Sys2Proof.Machine.execAdd c q s
  | .adc c q => Sys2Proof.Machine.execAdc c q s
  | .sub c q => Sys2Proof.Machine.execSub c q s
  | .sbb c q => Sys2Proof.Machine.execSbb c q s
  | .neg c q => Sys2Proof.Machine.execNeg c q s
  | .mul c q => Sys2Proof.Machine.execMul c q s
  | .mulh c q => Sys2Proof.Machine.execMulh c q s
  | .div c q => Sys2Proof.Machine.execDiv c q s
  | .rem c q => Sys2Proof.Machine.execRem c q s
  | .and c q => Sys2Proof.Machine.execAnd c q s
  | .or c q => Sys2Proof.Machine.execOr c q s
  | .xor c q => Sys2Proof.Machine.execXor c q s
  | .shl c q => Sys2Proof.Machine.execShl c q s
  | .shr c q => Sys2Proof.Machine.execShr c q s
  | .sar c q => Sys2Proof.Machine.execSar c q s
  | .rol c q => Sys2Proof.Machine.execRol c q s
  | .ror c q => Sys2Proof.Machine.execRor c q s
  | .min c q => Sys2Proof.Machine.execMin c q s
  | .max c q => Sys2Proof.Machine.execMax c q s
  | .cmp c q => Sys2Proof.Machine.execCmp c q s
  | .mov c q => Sys2Proof.Machine.execMov c q s
  | .lea c q => Sys2Proof.Machine.execLea c q s
  | .popc c q => Sys2Proof.Machine.execPopc c q s
  | .clz c q => Sys2Proof.Machine.execClz c q s
  | .flagsRd c q => Sys2Proof.Machine.execFlagsRd c q s
  | .flagsWr c q => Sys2Proof.Machine.execFlagsWr c q s
  | .cvt c q => Sys2Proof.Machine.execCvt c q s
  | .load c q => Sys2Proof.Machine.execLoad c q s
  | .readDataReturn id r => Sys2Proof.Machine.execReadDataReturn id r s
  | .store c q => Sys2Proof.Machine.execStore c q s
  | .atomSwap c q => Sys2Proof.Machine.execAtomSwap c q s
  | .atomAdd c q => Sys2Proof.Machine.execAtomAdd c q s
  | .atomAnd c q => Sys2Proof.Machine.execAtomAnd c q s
  | .atomOr c q => Sys2Proof.Machine.execAtomOr c q s
  | .atomXor c q => Sys2Proof.Machine.execAtomXor c q s
  | .atomMin c q => Sys2Proof.Machine.execAtomMin c q s
  | .atomMax c q => Sys2Proof.Machine.execAtomMax c q s
  | .atomCas c q => Sys2Proof.Machine.execAtomCas c q s
  | .refAdd c q => Sys2Proof.Machine.execRefAdd c q s
  | .probe c q => Sys2Proof.Machine.execProbe c q s
  | .touch c q => Sys2Proof.Machine.execTouch c q s
  | .move c q => Sys2Proof.Machine.execMove c q s
  | .convert c q => Sys2Proof.Machine.execConvert c q s
  | .aggOpen c q => Sys2Proof.Machine.execAggOpen c q s
  | .aggJoin c q via => Sys2Proof.Machine.execAggJoin c q via s
  | .aggContrib c q => Sys2Proof.Machine.execAggContrib c q s
  | .aggClose c q => Sys2Proof.Machine.execAggClose c q s
  | .aggLeave c q via => Sys2Proof.Machine.execAggLeave c q via s
  | .hurdle c q => Sys2Proof.Machine.execHurdle c q s
  | .hurdleRelease c q => Sys2Proof.Machine.execHurdleRelease c q s
  | .signal c q => Sys2Proof.Machine.execSignal c q s
  | .signalRelease c q => Sys2Proof.Machine.execSignalRelease c q s
  | .waitEv c q => Sys2Proof.Machine.execWaitEv c q s
  | .waitMem c q => Sys2Proof.Machine.execWaitMem c q s
  | .waitReread c q => Sys2Proof.Machine.execWaitReread c q s
  | .waitTimeout c q => Sys2Proof.Machine.execWaitTimeout c q s
  | .eventReset c q => Sys2Proof.Machine.execEventReset c q s
  | .batonTake c q => Sys2Proof.Machine.execBatonTake c q s
  | .batonGive c q => Sys2Proof.Machine.execBatonGive c q s
  | .lockAcq c q => Sys2Proof.Machine.execLockAcq c q s
  | .lockTry c q => Sys2Proof.Machine.execLockTry c q s
  | .lockRel c q => Sys2Proof.Machine.execLockRel c q s
  | .lockWaitTimeout who c q => Sys2Proof.Machine.execLockWaitTimeout who c q s
  | .time c q => Sys2Proof.Machine.execTime c q s
  | .deadline c q => Sys2Proof.Machine.execDeadline c q s
  | .admitItem c q => Sys2Proof.Machine.execAdmitItem c q s
  | .budget c q => Sys2Proof.Machine.execBudget c q s
  | .stripeAccept slot party stripe words clamped nans => Sys2Proof.Machine.execStripeAccept slot party stripe words clamped nans s
  | .aggCutoffTimeout slot => Sys2Proof.Machine.execAggCutoffTimeout slot s
  | .aggReleaseStart slot => Sys2Proof.Machine.execAggReleaseStart slot s
  | .aggReleaseDone slot r code => Sys2Proof.Machine.execAggReleaseDone slot r code s
  | .channelWaitPlace => Sys2Proof.Machine.execChannelWaitPlace s
  | .descriptorComplete d => Sys2Proof.Machine.execDescriptorComplete d s
  | .writeAccept id ecc => Sys2Proof.Machine.execWriteAccept id ecc s
  | .writeDone id => Sys2Proof.Machine.execWriteDone id s
  | .writeFailReport id w => Sys2Proof.Machine.execWriteFailReport id w s
  | .pacePulse n => Sys2Proof.Machine.execPacePulse n s
  | .mapRingTailWrite who r v => Sys2Proof.Machine.execMapRingTailWrite who r v s
  | .mapRingEnable who r v => Sys2Proof.Machine.execMapRingEnable who r v s
  | .heatPlannedEnd => Sys2Proof.Machine.execHeatPlannedEnd s
  | .heatStretchLimit => Sys2Proof.Machine.execHeatStretchLimit s
  | .flashMount targets => Sys2Proof.Machine.execFlashMount targets s
  | .zqCalShort => Sys2Proof.Machine.execZqCalShort s
  | .stripeCloseTimeout => Sys2Proof.Machine.execStripeCloseTimeout s
  | .flashProgramDone u r => Sys2Proof.Machine.execFlashProgramDone u r s
  | .flashEraseDone b r => Sys2Proof.Machine.execFlashEraseDone b r s
  | .flashSuspendLimit b => Sys2Proof.Machine.execFlashSuspendLimit b s
  | .flashPatrolCheck b step ok => Sys2Proof.Machine.execFlashPatrolCheck b step ok s
  | .flashBlockTest b r => Sys2Proof.Machine.execFlashBlockTest b r s
  | .flashTargetFail chan tgt => Sys2Proof.Machine.execFlashTargetFail chan tgt s
  | .blockTableCheckpoint => Sys2Proof.Machine.execBlockTableCheckpoint s
  | .lapCommitReport => Sys2Proof.Machine.execLapCommitReport s
  | .logSpillWrite r => Sys2Proof.Machine.execLogSpillWrite r s
  | .perstAssert l => Sys2Proof.Machine.execPerstAssert l s
  | .perstDeassert l => Sys2Proof.Machine.execPerstDeassert l s
  | .linkDown l why => Sys2Proof.Machine.execLinkDown l why s
  | .linkUp l width cxl => Sys2Proof.Machine.execLinkUp l width cxl s
  | .flr f => Sys2Proof.Machine.execFlr f s
  | .vfEnableSet f n => Sys2Proof.Machine.execVfEnableSet f n s
  | .vfEnableClear f => Sys2Proof.Machine.execVfEnableClear f s
  | .vfMemorySpaceClear f => Sys2Proof.Machine.execVfMemorySpaceClear f s
  | .bmeClear f => Sys2Proof.Machine.execBmeClear f s
  | .bmeSet f => Sys2Proof.Machine.execBmeSet f s
  | .d3hotEnter f => Sys2Proof.Machine.execD3hotEnter f s
  | .d0Return f => Sys2Proof.Machine.execD0Return f s
  | .pmeTurnOff l => Sys2Proof.Machine.execPmeTurnOff l s
  | .pmeResend f => Sys2Proof.Machine.execPmeResend f s
  | .aspmL1Request l => Sys2Proof.Machine.execAspmL1Request l s
  | .l0pNarrowRequest l width => Sys2Proof.Machine.execL0pNarrowRequest l width s
  | .l0pWidenRequest l => Sys2Proof.Machine.execL0pWidenRequest l s
  | .partnerPowerRequest l state width => Sys2Proof.Machine.execPartnerPowerRequest l state width s
  | .hpxLinkError l e => Sys2Proof.Machine.execHpxLinkError l e s
  | .freezeDrainDone l => Sys2Proof.Machine.execFreezeDrainDone l s
  | .linkRelease who l => Sys2Proof.Machine.execLinkRelease who l s
  | .msixUnmask f vec => Sys2Proof.Machine.execMsixUnmask f vec s
  | .intxSeenWrite who l v => Sys2Proof.Machine.execIntxSeenWrite who l v s
  | .interruptDisableWrite l dis => Sys2Proof.Machine.execInterruptDisableWrite l dis s
  | .portCfgWrite who v => Sys2Proof.Machine.execPortCfgWrite who v s
  | .inboundUnsupported f posted addr => Sys2Proof.Machine.execInboundUnsupported f posted addr s
  | .hostReadCompletion id data ep ok => Sys2Proof.Machine.execHostReadCompletion id data ep ok s
  | .completionTimeout id => Sys2Proof.Machine.execCompletionTimeout id s
  | .spdmRequest via msg => Sys2Proof.Machine.execSpdmRequest via msg s
  | .rds agent line => Sys2Proof.Machine.execRds agent line s
  | .rdx agent line => Sys2Proof.Machine.execRdx agent line s
  | .upg agent line => Sys2Proof.Machine.execUpg agent line s
  | .rdna agent line => Sys2Proof.Machine.execRdna agent line s
  | .wrline agent line data => Sys2Proof.Machine.execWrline agent line data s
  | .wbm agent line data => Sys2Proof.Machine.execWbm agent line data s
  | .snoopReceive agent line => Sys2Proof.Machine.execSnoopReceive agent line s
  | .snoopResponse agent line => Sys2Proof.Machine.execSnoopResponse agent line s
  | .holdExpire agent line => Sys2Proof.Machine.execHoldExpire agent line s
  | .memrd p n off mv => Sys2Proof.Machine.execMemrd p n off mv s
  | .memrddata p n off => Sys2Proof.Machine.execMemrddata p n off s
  | .memwr p n off data poison => Sys2Proof.Machine.execMemwr p n off data poison s
  | .meminv p n off => Sys2Proof.Machine.execMeminv p n off s
  | .hostSnoop p line req => Sys2Proof.Machine.execHostSnoop p line req s
  | .bisnpResponse p line dirty keep => Sys2Proof.Machine.execBisnpResponse p line dirty keep s
  | .hcaHostResponse p line data ok poison => Sys2Proof.Machine.execHcaHostResponse p line data ok poison s
  | .memwinValidSet who p n v => Sys2Proof.Machine.execMemwinValidSet who p n v s
  | .memwinValidClear who p n => Sys2Proof.Machine.execMemwinValidClear who p n s
  | .relayWriteReceive l dst k seq svdid ca data poison hops => Sys2Proof.Machine.execRelayWriteReceive l dst k seq svdid ca data poison hops s
  | .relayReadReceive l dst k seq svdid ca len hops => Sys2Proof.Machine.execRelayReadReceive l dst k seq svdid ca len hops s
  | .relayReadresp id data poison => Sys2Proof.Machine.execRelayReadresp id data poison s
  | .relayAtomicReceive l dst k seq svdid ca op wide sg b cmp hops => Sys2Proof.Machine.execRelayAtomicReceive l dst k seq svdid ca op wide sg b cmp hops s
  | .relayAtomresp id old => Sys2Proof.Machine.execRelayAtomresp id old s
  | .relayAck k seq => Sys2Proof.Machine.execRelayAck k seq s
  | .relayNack k seq code reason => Sys2Proof.Machine.execRelayNack k seq code reason s
  | .relayRetry k seq => Sys2Proof.Machine.execRelayRetry k seq s
  | .relayResume k seq => Sys2Proof.Machine.execRelayResume k seq s
  | .relayFlowreset l k => Sys2Proof.Machine.execRelayFlowreset l k s
  | .relayFlowresetAck k => Sys2Proof.Machine.execRelayFlowresetAck k s
  | .relayLease svdid e => Sys2Proof.Machine.execRelayLease svdid e s
  | .relayLeaseAck svdid pkg e => Sys2Proof.Machine.execRelayLeaseAck svdid pkg e s
  | .relayControl l lap => Sys2Proof.Machine.execRelayControl l lap s
  | .relayPtp l offset gm step => Sys2Proof.Machine.execRelayPtp l offset gm step s
  | .relayWriteResend k seq => Sys2Proof.Machine.execRelayWriteResend k seq s
  | .relayReportTimeout k seq => Sys2Proof.Machine.execRelayReportTimeout k seq s
  | .flowEntryIdleFree k => Sys2Proof.Machine.execFlowEntryIdleFree k s
  | .opticalLinkDown l => Sys2Proof.Machine.execOpticalLinkDown l s
  | .wavelengthLoss l lanes => Sys2Proof.Machine.execWavelengthLoss l lanes s
  | .relayLinkTrained l lanes => Sys2Proof.Machine.execRelayLinkTrained l lanes s
  | .attestationDone l r => Sys2Proof.Machine.execAttestationDone l r s
  | .ptpSyncLost => Sys2Proof.Machine.execPtpSyncLost s
  | .ptpHoldoverExpire => Sys2Proof.Machine.execPtpHoldoverExpire s
  | .roceResponse id data => Sys2Proof.Machine.execRoceResponse id data s
  | .roceConnectionError conn => Sys2Proof.Machine.execRoceConnectionError conn s
  | .roceInboundRequest l => Sys2Proof.Machine.execRoceInboundRequest l s
  | .ofpPortCfgWrite who p v => Sys2Proof.Machine.execOfpPortCfgWrite who p v s
  | .bind g => Sys2Proof.Machine.execBind g s
  | .bindPrepare g => Sys2Proof.Machine.execBindPrepare g s
  | .bindCommit svdid ctl ring => Sys2Proof.Machine.execBindCommit svdid ctl ring s
  | .bindAbort svdid => Sys2Proof.Machine.execBindAbort svdid s
  | .unbind svdid => Sys2Proof.Machine.execUnbind svdid s
  | .remove svdid rem => Sys2Proof.Machine.execRemove svdid rem s
  | .capacityAdd svdid add => Sys2Proof.Machine.execCapacityAdd svdid add s
  | .survivor svdid home => Sys2Proof.Machine.execSurvivor svdid home s
  | .fence svdid => Sys2Proof.Machine.execFence svdid s
  | .leaseSend svdid => Sys2Proof.Machine.execLeaseSend svdid s
  | .leaseFence v => Sys2Proof.Machine.execLeaseFence v s
  | .leaseLapse v pkg => Sys2Proof.Machine.execLeaseLapse v pkg s
  | .leaseReclaim v pkg => Sys2Proof.Machine.execLeaseReclaim v pkg s
  | .leaseOverdue v => Sys2Proof.Machine.execLeaseOverdue v s
  | .memberAbort pkg c gen => Sys2Proof.Machine.execMemberAbort pkg c gen s
  | .pageMoveStart v ca cls idx off => Sys2Proof.Machine.execPageMoveStart v ca cls idx off s
  | .pageMoveCopyDone v ca => Sys2Proof.Machine.execPageMoveCopyDone v ca s
  | .relayWindowClose v ca => Sys2Proof.Machine.execRelayWindowClose v ca s
  | .pageMoveStreamFail v ca => Sys2Proof.Machine.execPageMoveStreamFail v ca s
  | .tileDrainLimit die tile => Sys2Proof.Machine.execTileDrainLimit die tile s
  | .tileCommandReturn die tile c e restartable => Sys2Proof.Machine.execTileCommandReturn die tile c e restartable s
  | .cpTime n => Sys2Proof.Machine.execCpTime n s
  | .cpXlate n x y => Sys2Proof.Machine.execCpXlate n x y s
  | .cpLocktry n x => Sys2Proof.Machine.execCpLocktry n x s
  | .cpLockacq n x y => Sys2Proof.Machine.execCpLockacq n x y s
  | .cpLockrel n x => Sys2Proof.Machine.execCpLockrel n x s
  | .cpEoi n x => Sys2Proof.Machine.execCpEoi n x s
  | .cpTpr n x => Sys2Proof.Machine.execCpTpr n x s
  | .cpMaskwin n x y => Sys2Proof.Machine.execCpMaskwin n x y s
  | .cpIpi n x => Sys2Proof.Machine.execCpIpi n x s
  | .cpCommit n => Sys2Proof.Machine.execCpCommit n s
  | .falseStart n k => Sys2Proof.Machine.execFalseStart n k s
  | .ccBusErr n addr size write => Sys2Proof.Machine.execCcBusErr n addr size write s
  | .icuOffer => Sys2Proof.Machine.execIcuOffer s
  | .icuOfferAccept n => Sys2Proof.Machine.execIcuOfferAccept n s
  | .icuOfferTimeout n => Sys2Proof.Machine.execIcuOfferTimeout n s
  | .icuWithdrawAnswer n accepted => Sys2Proof.Machine.execIcuWithdrawAnswer n accepted s
  | .maskWindowExpire n => Sys2Proof.Machine.execMaskWindowExpire n s
  | .icuNoTarget src => Sys2Proof.Machine.execIcuNoTarget src s
  | .icuSwset who src => Sys2Proof.Machine.execIcuSwset who src s
  | .lktReqTry who lk => Sys2Proof.Machine.execLktReqTry who lk s
  | .lktReqRel who lk => Sys2Proof.Machine.execLktReqRel who lk s
  | .lap link id => Sys2Proof.Machine.execLap link id s
  | .sweepPageDone chan => Sys2Proof.Machine.execSweepPageDone chan s
  | .scrubPageDone chan page r => Sys2Proof.Machine.execScrubPageDone chan page r s
  | .linkKeyUpdate l => Sys2Proof.Machine.execLinkKeyUpdate l s
  | .keyPhaseOldExpire l => Sys2Proof.Machine.execKeyPhaseOldExpire l s
  | .lapStep => Sys2Proof.Machine.execLapStep s
  | .entropyHealthFail => Sys2Proof.Machine.execEntropyHealthFail s
  | .entropyHealthPass => Sys2Proof.Machine.execEntropyHealthPass s
  | .mgtSessionConnect port cert => Sys2Proof.Machine.execMgtSessionConnect port cert s
  | .claim code anchor => Sys2Proof.Machine.execClaim code anchor s
  | .claimLockoutExpire => Sys2Proof.Machine.execClaimLockoutExpire s
  | .anchorChange slot anchor => Sys2Proof.Machine.execAnchorChange slot anchor s
  | .svnRaise svn => Sys2Proof.Machine.execSvnRaise svn s
  | .faultPolicy who src level cls => Sys2Proof.Machine.execFaultPolicy who src level cls s
  | .packageIndexAssign idx => Sys2Proof.Machine.execPackageIndexAssign idx s
  | .routeTableUpdate dst links hops => Sys2Proof.Machine.execRouteTableUpdate dst links hops s
  | .roceConnectionCreate slot link => Sys2Proof.Machine.execRoceConnectionCreate slot link s
  | .statusRead who addr => Sys2Proof.Machine.execStatusRead who addr s
  | .logRead who k mediumError => Sys2Proof.Machine.execLogRead who k mediumError s
  | .update img readback => Sys2Proof.Machine.execUpdate img readback s
  | .rollback who => Sys2Proof.Machine.execRollback who s
  | .reset who => Sys2Proof.Machine.execReset who s
  | .recover => Sys2Proof.Machine.execRecover s
  | .lgclear => Sys2Proof.Machine.execLgclear s
  | .flcAck who src => Sys2Proof.Machine.execFlcAck who src s
  | .faultForce who src => Sys2Proof.Machine.execFaultForce who src s
  | .logConsume who v => Sys2Proof.Machine.execLogConsume who v s
  | .logResume who pass => Sys2Proof.Machine.execLogResume who pass s
  | .flcReleaseRegion who r => Sys2Proof.Machine.execFlcReleaseRegion who r s
  | .flcReleaseBlock who b => Sys2Proof.Machine.execFlcReleaseBlock who b s
  | .rcHeartbeat n standbyReg => Sys2Proof.Machine.execRcHeartbeat n standbyReg s
  | .rcArm who => Sys2Proof.Machine.execRcArm who s
  | .rcTakeover => Sys2Proof.Machine.execRcTakeover s
  | .rcStandbyLost => Sys2Proof.Machine.execRcStandbyLost s
  | .fallbackHold => Sys2Proof.Machine.execFallbackHold s
  | .rcRestart who => Sys2Proof.Machine.execRcRestart who s
  | .powerOn => Sys2Proof.Machine.execPowerOn s
  | .rstNAssert => Sys2Proof.Machine.execRstNAssert s
  | .rstNRelease => Sys2Proof.Machine.execRstNRelease s
  | .wrstNAssert => Sys2Proof.Machine.execWrstNAssert s
  | .wrstNRelease => Sys2Proof.Machine.execWrstNRelease s
  | .bootWatchdogExpire => Sys2Proof.Machine.execBootWatchdogExpire s
  | .runtimeWatchdogExpire => Sys2Proof.Machine.execRuntimeWatchdogExpire s
  | .wdogKick who => Sys2Proof.Machine.execWdogKick who s
  | .strideEngineReset who k => Sys2Proof.Machine.execStrideEngineReset who k s
  | .moverUnitReset who k => Sys2Proof.Machine.execMoverUnitReset who k s
  | .walkerQuarterReset who k => Sys2Proof.Machine.execWalkerQuarterReset who k s
  | .lanePairReset who k => Sys2Proof.Machine.execLanePairReset who k s
  | .controlCoreReset who k => Sys2Proof.Machine.execControlCoreReset who k s
  | .clusterReset who k => Sys2Proof.Machine.execClusterReset who k s
  | .islandPowerUp locks => Sys2Proof.Machine.execIslandPowerUp locks s
  | .islandPllTimeout island => Sys2Proof.Machine.execIslandPllTimeout island s
  | .smsInitDone bad => Sys2Proof.Machine.execSmsInitDone bad s
  | .tstInitDone => Sys2Proof.Machine.execTstInitDone s
  | .bootImageLoad => Sys2Proof.Machine.execBootImageLoad s
  | .bootDoneWrite who => Sys2Proof.Machine.execBootDoneWrite who s
  | .quarantineSet who => Sys2Proof.Machine.execQuarantineSet who s
  | .blkCtrlWrite who block v => Sys2Proof.Machine.execBlkCtrlWrite who block v s
  | .registerWrite who t v => Sys2Proof.Machine.execRegisterWrite who t v s
  | .aliasSetWrite who addr v => Sys2Proof.Machine.execAliasSetWrite who addr v s
  | .aliasClearWrite who addr v => Sys2Proof.Machine.execAliasClearWrite who addr v s
  | .aliasToggleWrite who addr v => Sys2Proof.Machine.execAliasToggleWrite who addr v s
  | .pairLoRead who addr => Sys2Proof.Machine.execPairLoRead who addr s
  | .parityScan bad => Sys2Proof.Machine.execParityScan bad s
  | .powerLoss => Sys2Proof.Machine.execPowerLoss s
  | .mgtSessionEnd port sess => Sys2Proof.Machine.execMgtSessionEnd port sess s
  | .mgtLinkUp port => Sys2Proof.Machine.execMgtLinkUp port s
  | .mgtLinkDown port => Sys2Proof.Machine.execMgtLinkDown port s
  | .ethernetLinkUp l => Sys2Proof.Machine.execEthernetLinkUp l s
  | .arpNdLldpFrame l frame => Sys2Proof.Machine.execArpNdLldpFrame l frame s
  | .congestionNotification conn => Sys2Proof.Machine.execCongestionNotification conn s
  | .pfcPauseFrame l quanta => Sys2Proof.Machine.execPfcPauseFrame l quanta s
  | .roceRetryTimeout conn => Sys2Proof.Machine.execRoceRetryTimeout conn s
  | .lockRoceRangeDrainLimit v => Sys2Proof.Machine.execLockRoceRangeDrainLimit v s
  | .settingsCommand rec => Sys2Proof.Machine.execSettingsCommand rec s
  | .l1Exit l => Sys2Proof.Machine.execL1Exit l s
  | .tapTck tms tdi => Sys2Proof.Machine.execTapTck tms tdi s
  | .trstNAssert => Sys2Proof.Machine.execTrstNAssert s

end Sys2Proof.Machine
end

