-- ==== Sys2Proof/Machine/Step.lean ====
section
/-! DEFINITION. One step: the command at the front of the queue, or one nanosecond where no command waits. -/

namespace Sys2Proof.Machine

/-- One step. -/
def step (s : State) : Host.Outcome State Fault Refusal :=
  match s.pending with
  | [] => .next s.tick
  | c :: rest => exec c { s with pending := rest }

/-- A command put at the front of the queue. -/
def State.before (s : State) (c : Instr) : State := { s with pending := c :: s.pending }

/-- The state in which the command that a word spells waits first; unchanged where the word spells none. -/
def State.withFetchWord (s : State) (nbits w : Nat) : State :=
  match decodeTableWord nbits w with
  | some c => s.before c
  | none => s

end Sys2Proof.Machine
end

