-- ==== Sys2Proof/Safety.lean ====
section
/-! DEFINITION. The terms in which claims speak: a command that completes, a Jarud instruction that issues, a host that
reaches the HTU, an interrupt line that follows its cause. -/

namespace Sys2Proof

open Machine

/-- An outcome is a next state. -/
def Completes (o : Host.Outcome State Fault Refusal) : Prop := ∃ t, o = .next t

/-- A command runs to a next state in a state. -/
def Runs (c : Instr) (s : State) : Prop := Completes (exec c s)

/-- Queue q of context c issues the instruction `x` of opcode `op` now, and `t` is the state after its fetch (R190, R200,
R215): the queue may issue, the whole instruction lies between HEAD and TAIL, its words are fetched without poison, its
encoding is legal, its guard passes, and no load has still to write a register that it names. -/
structure Issues (s : State) (c : CtxId) (q : QIdx) (op : Nat) (x : JIn) (t : State) : Prop where
  ready : s.issueReady c q = true
  whole : J.words x.w ≤ (s.queue c q).ahead
  words : ∃ bs u, s.fetchWords c (s.queue c q) 1 (s.queue c q).head = (bs, false, u) ∧ leVal bs = x.w ∧
    u.fetchWords c (s.queue c q) (J.xc x.w) ((s.queue c q).head + 1) = (x.pay, false, t)
  opcode : J.opc x.w = op
  legal : ∃ e, encOf x.w = some e ∧ encFault x.w e = none ∧
    (regDeps x.w e).any (fun k => (t.pendingRegs c q).contains k) = false
  guard : guardPasses x.w (t.queue c q).pred = true
  oneIndex : ¬ (J.ama x.w = amIndex ∧ J.amb x.w = amIndex)
  source : x.q = t.queue c q
  tables : x.seqs = t.xlt.seqs

/-- Queue q of context c stands at the instruction `x` of opcode `op`, whose words are fetched and whose encoding is legal, but
whose guard fails; `t` is the state after its fetch (R190, R191, R200). -/
structure GuardedOff (s : State) (c : CtxId) (q : QIdx) (op : Nat) (x : JIn) (t : State) : Prop where
  ready : s.issueReady c q = true
  whole : J.words x.w ≤ (s.queue c q).ahead
  words : ∃ bs u, s.fetchWords c (s.queue c q) 1 (s.queue c q).head = (bs, false, u) ∧ leVal bs = x.w ∧
    u.fetchWords c (s.queue c q) (J.xc x.w) ((s.queue c q).head + 1) = (x.pay, false, t)
  opcode : J.opc x.w = op
  legal : ∃ e, encOf x.w = some e ∧ encFault x.w e = none
  guard : guardPasses x.w (t.queue c q).pred = false

/-- A host function's request reaches the HTU (R408, R425): its link is up and not frozen, and the function may make requests. -/
structure Reaches (s : State) (f : FnId) : Prop where
  up : (s.link (s.fnLink f)).dlup = true
  thawed : (s.link (s.fnLink f)).frozen = false
  barOpen : s.barOpen f = true

/-- A register access of an initiator other than a host function reaches the register (R8, R578, R614): the register's
island is powered, and a core that makes it runs. -/
structure Arrives (s : State) (w : Who) (addr : Nat) : Prop where
  island : s.islandOn (regIsland addr) = true
  runs : ∀ n, w = .core n → s.coreRuns n = true
  notHost : ∀ f, w ≠ .host f

/-- A command of binding authority is served (R546, R550, R598, R599): an operator's session is open, an image runs, and
the settings are not in quarantine. -/
structure Authority (s : State) : Prop where
  session : s.operatorHere = true
  image : s.rpc.bootSt ≠ 3
  free : s.rpc.quar = false

/-- Each interrupt line that FLC drives follows its cause (R505, R568): its source has its cause exactly while FLC's state
shows it, it is pending while the cause is there and no core serves it, and it is not pending without the cause. -/
def LinesFollow (s : State) : Prop :=
  ∀ e ∈ s.flcSources,
    (e.1 ∈ s.icu.causes ↔ e.2 = true) ∧
    (e.2 = true → s.icu.isActive e.1 = false → e.1 ∈ s.icu.pend) ∧
    (e.2 = false → e.1 ∉ s.icu.pend)

/-- The sources that wait without a target are exactly the enabled pending sources for which no core is eligible (R511). -/
def TargetlessKnown (s : State) : Prop :=
  ∀ n, (s.icu.noTarget.look n).isSome = true ↔ (n ∈ s.icuReady ∧ ∀ c ∈ allCores, s.eligible n c = false)

/-- Between commands no fault waits for its reaction (R557), and the interrupt lines follow their causes. -/
def Settled (s : State) : Prop := s.flc.todo = [] ∧ LinesFollow s

end Sys2Proof
end

