-- ==== Sys2Proof/Certificates/Slice0/Obligations.lean ====
section
/-! DEFINITION. The statements for the provers. A completion statement names, clause by clause, the commands of one shape: under
hypotheses on the state and the operands alone, `exec` answers the next state that the rules give; `settle` is the end of every
command (reactions to faults recorded by it, and interrupt lines), of which SettleCalm says what it does. -/

open Sys2Proof Sys2Proof.Machine

/-! ## Jarud instructions of classes L (ch. 06, 07) -/

/-- Control flow and predicates (R200, R206, R227, R228). NOP retires; BR, BRI and BRL go to a target that lies within the ring
behind TAIL, and BRL writes its return position; PLOG, PSET, PREAD and PWRITE write the predicate, the register or all predicates
that their rule names. HEAD passes every instruction that does not branch.
What the rules leave open in it is the model's choice: notes/assumptions/11, 54, 55, 57, 83. -/
def Obligations.ControlAndPredicates : Prop :=
  (∀ s t c q x, Issues s c q 0x01 x t →
    exec (.nop c q) s = .next ((t.countIssue c q).advance c q x.w).settle) ∧
  (∀ s t c q x, Issues s c q 0x02 x t →
    let target := x.q.head + BitVec.ofNat 32 (fld (J.imm2 x.w) 31 0)
    (x.q.tail - target).toNat ≤ 2 ^ x.q.lsize →
    exec (.br c q) s = .next ((t.countIssue c q).updQ c q (fun r => { r with head := target })).settle) ∧
  (∀ s t c q x, Issues s c q 0x03 x t →
    let target := BitVec.ofNat 32 x.aVal.toNat
    (x.q.tail - target).toNat ≤ 2 ^ x.q.lsize →
    exec (.bri c q) s = .next ((t.countIssue c q).updQ c q (fun r => { r with head := target })).settle) ∧
  (∀ s t c q x, Issues s c q 0x04 x t →
    let target := x.q.head + BitVec.ofNat 32 (fld (J.imm2 x.w) 31 0)
    (x.q.tail - target).toNat ≤ 2 ^ x.q.lsize →
    exec (.brl c q) s = .next ((t.countIssue c q).updQ c q (fun r =>
      { r.setG (J.rd x.w) (BitVec.ofNat 64 (r.head + BitVec.ofNat 32 (J.words x.w)).toNat) with head := target })).settle) ∧
  (∀ s t c q x, Issues s c q 0x08 x t →
    exec (.plog c q) s = .next (((t.countIssue c q).updQ c q (fun r =>
      let a := r.pred.toNat.testBit (fld (J.ra x.w) 2 0)
      let b := r.pred.toNat.testBit (fld (J.rb x.w) 2 0)
      r.setP (J.rd x.w) ((J.md x.w).testBit (2 * b2n a + b2n b)))).advance c q x.w).settle) ∧
  (∀ s t c q x, Issues s c q 0x09 x t →
    exec (.pset c q) s =
      .next (((t.countIssue c q).updQ c q (fun r => r.setP (J.rd x.w) (decide (x.aVal ≠ 0)))).advance c q x.w).settle) ∧
  (∀ s t c q x, Issues s c q 0x0A x t →
    exec (.pread c q) s =
      .next (((t.countIssue c q).updQ c q (fun r => r.setG (J.rd x.w) (BitVec.ofNat 64 r.pred.toNat))).advance c q x.w).settle) ∧
  (∀ s t c q x, Issues s c q 0x0B x t →
    exec (.pwrite c q) s =
      .next (((t.countIssue c q).updQ c q (fun r => { r with pred := BitVec.ofNat 8 x.aVal.toNat })).advance c q x.w).settle)

/-- Integer instructions with flags (R209 to R212, R229): the value comes from the exact result of the low W bits, wrapped or
clamped, and FLAGS from the same result; DIV writes quotient and remainder, REM the remainder.
What the rules leave open in it is the model's choice: notes/assumptions/11, 20, 54, 55, 57, 83. -/
def Obligations.IntegerWithFlags : Prop :=
  let retires (t : State) (c : CtxId) (q : QIdx) (x : JIn) (o : Byte → IntRes) : State :=
    ((t.countIssue c q).updQ c q (fun r =>
      { r.setG (J.rd x.w) (o r.flags).val with flags := (o r.flags).flags })).advance c q x.w
  (∀ s t c q x, Issues s c q 0x20 x t →
    exec (.add c q) s = .next (retires t c q x (fun f =>
      addOp (J.wid x.w) (J.sg x.w) (J.sat x.w) f x.aVal x.bVal false)).settle) ∧
  (∀ s t c q x, Issues s c q 0x21 x t →
    exec (.adc c q) s = .next (retires t c q x (fun f =>
      addOp (J.wid x.w) (J.sg x.w) (J.sat x.w) f x.aVal x.bVal (flagBit f Fl.c))).settle) ∧
  (∀ s t c q x, Issues s c q 0x22 x t →
    exec (.sub c q) s = .next (retires t c q x (fun f =>
      subOp (J.wid x.w) (J.sg x.w) (J.sat x.w) f x.aVal x.bVal false)).settle) ∧
  (∀ s t c q x, Issues s c q 0x23 x t →
    exec (.sbb c q) s = .next (retires t c q x (fun f =>
      subOp (J.wid x.w) (J.sg x.w) (J.sat x.w) f x.aVal x.bVal (flagBit f Fl.c))).settle) ∧
  (∀ s t c q x, Issues s c q 0x24 x t →
    exec (.neg c q) s = .next (retires t c q x (fun f =>
      arith (J.wid x.w) (J.sg x.w) (J.sat x.w) f (-(srcInt (J.wid x.w) (J.sg x.w) x.aVal)) false)).settle) ∧
  (∀ s t c q x, Issues s c q 0x25 x t →
    exec (.mul c q) s = .next (retires t c q x (fun f =>
      arith (J.wid x.w) (J.sg x.w) (J.sat x.w) f
        (srcInt (J.wid x.w) (J.sg x.w) x.aVal * srcInt (J.wid x.w) (J.sg x.w) x.bVal) false)).settle) ∧
  (∀ s t c q x, Issues s c q 0x27 x t →
    (srcNat (J.wid x.w) x.bVal ≠ 0 ∨ flagBit x.q.flags Fl.trapdz = false) →
    let o := divOp (J.wid x.w) (J.sg x.w) (J.sat x.w) x.q.flags x.aVal x.bVal
    exec (.div c q) s = .next (((t.countIssue c q).updQ c q (fun r =>
      { (r.setG (J.rd x.w) o.1).setG (J.rd x.w + 1) o.2.1 with flags := o.2.2 })).advance c q x.w).settle) ∧
  (∀ s t c q x, Issues s c q 0x28 x t →
    (srcNat (J.wid x.w) x.bVal ≠ 0 ∨ flagBit x.q.flags Fl.trapdz = false) →
    let o := divOp (J.wid x.w) (J.sg x.w) (J.sat x.w) x.q.flags x.aVal x.bVal
    exec (.rem c q) s = .next (((t.countIssue c q).updQ c q (fun r =>
      { r.setG (J.rd x.w) o.2.1 with flags := o.2.2 })).advance c q x.w).settle)

/-- Integer instructions without flags (R209, R213, R214, R229, R230): one register, or one predicate for CMP, is written; FLAGS
and every other register of the queue stay.
What the rules leave open in it is the model's choice: notes/assumptions/11, 54, 55, 57, 83. -/
def Obligations.IntegerWithoutFlags : Prop :=
  let retires (t : State) (c : CtxId) (q : QIdx) (x : JIn) (v : DWord) : State :=
    ((t.countIssue c q).updQ c q (fun r => r.setG (J.rd x.w) v)).advance c q x.w
  (∀ s t c q x, Issues s c q 0x26 x t → exec (.mulh c q) s = .next (retires t c q x (extend (J.wid x.w) (J.sg x.w)
    (srcInt (J.wid x.w) (J.sg x.w) x.aVal * srcInt (J.wid x.w) (J.sg x.w) x.bVal / 2 ^ J.wid x.w))).settle) ∧
  (∀ s t c q x, Issues s c q 0x29 x t → exec (.and c q) s = .next (retires t c q x (extend (J.wid x.w) (J.sg x.w)
    (srcNat (J.wid x.w) x.aVal &&& srcNat (J.wid x.w) x.bVal : Nat))).settle) ∧
  (∀ s t c q x, Issues s c q 0x2A x t → exec (.or c q) s = .next (retires t c q x (extend (J.wid x.w) (J.sg x.w)
    (srcNat (J.wid x.w) x.aVal ||| srcNat (J.wid x.w) x.bVal : Nat))).settle) ∧
  (∀ s t c q x, Issues s c q 0x2B x t → exec (.xor c q) s = .next (retires t c q x (extend (J.wid x.w) (J.sg x.w)
    (srcNat (J.wid x.w) x.aVal ^^^ srcNat (J.wid x.w) x.bVal : Nat))).settle) ∧
  (∀ s t c q x, Issues s c q 0x2C x t → exec (.shl c q) s = .next (retires t c q x (extend (J.wid x.w) (J.sg x.w)
    (if x.bVal.toNat ≥ J.wid x.w then 0 else (srcNat (J.wid x.w) x.aVal * 2 ^ x.bVal.toNat : Nat)))).settle) ∧
  (∀ s t c q x, Issues s c q 0x2D x t → exec (.shr c q) s = .next (retires t c q x (extend (J.wid x.w) (J.sg x.w)
    (if x.bVal.toNat ≥ J.wid x.w then 0 else (srcNat (J.wid x.w) x.aVal / 2 ^ x.bVal.toNat : Nat)))).settle) ∧
  (∀ s t c q x, Issues s c q 0x2E x t → exec (.sar c q) s = .next (retires t c q x (extend (J.wid x.w) (J.sg x.w)
    (srcInt (J.wid x.w) true x.aVal / 2 ^ (min x.bVal.toNat (J.wid x.w))))).settle) ∧
  (∀ s t c q x, Issues s c q 0x2F x t → exec (.rol c q) s = .next (retires t c q x (extend (J.wid x.w) (J.sg x.w)
    (srcNat (J.wid x.w) x.aVal * 2 ^ (x.bVal.toNat % J.wid x.w) % 2 ^ J.wid x.w +
      srcNat (J.wid x.w) x.aVal / 2 ^ (J.wid x.w - x.bVal.toNat % J.wid x.w) : Nat))).settle) ∧
  (∀ s t c q x, Issues s c q 0x30 x t → exec (.ror c q) s = .next (retires t c q x (extend (J.wid x.w) (J.sg x.w)
    (srcNat (J.wid x.w) x.aVal / 2 ^ (x.bVal.toNat % J.wid x.w) +
      srcNat (J.wid x.w) x.aVal * 2 ^ (J.wid x.w - x.bVal.toNat % J.wid x.w) % 2 ^ J.wid x.w : Nat))).settle) ∧
  (∀ s t c q x, Issues s c q 0x31 x t → exec (.min c q) s = .next (retires t c q x (extend (J.wid x.w) (J.sg x.w)
    (min (srcInt (J.wid x.w) (J.sg x.w) x.aVal) (srcInt (J.wid x.w) (J.sg x.w) x.bVal)))).settle) ∧
  (∀ s t c q x, Issues s c q 0x32 x t → exec (.max c q) s = .next (retires t c q x (extend (J.wid x.w) (J.sg x.w)
    (max (srcInt (J.wid x.w) (J.sg x.w) x.aVal) (srcInt (J.wid x.w) (J.sg x.w) x.bVal)))).settle) ∧
  (∀ s t c q x, Issues s c q 0x33 x t →
    exec (.cmp c q) s = .next (((t.countIssue c q).updQ c q (fun r => r.setP (J.rd x.w)
      (relHolds (fld (J.imm2 x.w) 2 0) (srcInt (J.wid x.w) (J.sg x.w) x.aVal)
        (srcInt (J.wid x.w) (J.sg x.w) x.bVal)))).advance c q x.w).settle) ∧
  (∀ s t c q x, Issues s c q 0x34 x t → J.ama x.w ≠ amInline → exec (.mov c q) s =
    .next (retires t c q x (extend (J.wid x.w) (J.sg x.w) (srcNat (J.wid x.w) x.aVal : Nat))).settle) ∧
  (∀ s t c q x, Issues s c q 0x34 x t → J.ama x.w = amInline →
    fld (J.imm0 x.w) 7 0 + J.wid x.w / 8 ≤ 32 * J.xc x.w → exec (.mov c q) s =
    .next (retires t c q x (extend (J.wid x.w) (J.sg x.w) (srcNat (J.wid x.w)
      (BitVec.ofNat 64 (leVal ((x.pay.drop (fld (J.imm0 x.w) 7 0)).take (J.wid x.w / 8)))) : Nat))).settle) ∧
  (∀ s t c q x, Issues s c q 0x35 x t → exec (.lea c q) s = .next (retires t c q x x.aDva).settle) ∧
  (∀ s t c q x, Issues s c q 0x36 x t → exec (.popc c q) s = .next (retires t c q x
    (BitVec.ofNat 64 (popCount (srcNat (J.wid x.w) x.aVal) (J.wid x.w)))).settle) ∧
  (∀ s t c q x, Issues s c q 0x37 x t → exec (.clz c q) s = .next (retires t c q x
    (BitVec.ofNat 64 (leadZeros (srcNat (J.wid x.w) x.aVal) (J.wid x.w)))).settle)

/-- FLAGS, scalar CONVERT and pacing (R193, R233, R234, R262 to R264): FLAGS read and written under a mask; the converted code
with its sticky flags; the time; the queue's deadline; the queue's budget; and the code of ADMIT, whose refusal errors an event only
where MOD[0] is 1.
What the rules leave open in it is the model's choice: notes/assumptions/11, 43, 44, 54, 55, 56, 57, 64, 83, 84. -/
def Obligations.FlagsConvertPacing : Prop :=
  (∀ s t c q x, Issues s c q 0x38 x t →
    exec (.flagsRd c q) s =
      .next (((t.countIssue c q).updQ c q (fun r => r.setG (J.rd x.w) (BitVec.ofNat 64 r.flags.toNat))).advance c q x.w).settle) ∧
  (∀ s t c q x, Issues s c q 0x39 x t →
    let m := BitVec.ofNat 8 (J.imm2 x.w)
    exec (.flagsWr c q) s = .next (((t.countIssue c q).updQ c q (fun r =>
      { r with flags := (r.flags &&& ~~~m) ||| (BitVec.ofNat 8 x.aVal.toNat &&& m) })).advance c q x.w).settle) ∧
  (∀ s t c q x, Issues s c q 0x3A x t → (cvOf (fld (J.imm2 x.w) 55 40)).rnd ≠ 4 →
    let cv := cvOf (fld (J.imm2 x.w) 55 40)
    let o := cvtScalar cv x.aVal.toNat 0
    exec (.cvt c q) s = .next (((t.countIssue c q).updQ c q (fun r =>
      { r.setG (J.rd x.w) (cvtFill cv.dst o.1) with
        flags := stick (stick (stick r.flags Fl.unf o.2.unf) Fl.ovf o.2.ovf) Fl.inv o.2.inv })).advance c q x.w).settle) ∧
  (∀ s t c q x, Issues s c q 0x3A x t → (cvOf (fld (J.imm2 x.w) 55 40)).rnd = 4 →
    let cv := cvOf (fld (J.imm2 x.w) 55 40)
    let draws := !cv.same && cv.dst.draws (cv.src.decode 0 (x.aVal.toNat % 2 ^ cv.src.bits))
    let g := ((t.countIssue c q).seRng c q x.q.head).next 0 draws
    let o := cvtScalar cv x.aVal.toNat g.1
    exec (.cvt c q) s = .next ((({ t.countIssue c q with free := g.2.free } : State).updQ c q (fun r =>
      { r.setG (J.rd x.w) (cvtFill cv.dst o.1) with
        flags := stick (stick (stick r.flags Fl.unf o.2.unf) Fl.ovf o.2.ovf) Fl.inv o.2.inv })).advance c q x.w).settle) ∧
  (∀ s t c q x, Issues s c q 0xA0 x t →
    exec (.time c q) s = .next (((t.countIssue c q).updQ c q (fun r =>
      r.setG (J.rd x.w) (t.countIssue c q).now)).advance c q x.w).settle) ∧
  (∀ s t c q x, Issues s c q 0xA1 x t →
    let d : DWord := if (J.md x.w).testBit 0 then x.aVal else if x.aVal = 0 then 0 else (t.countIssue c q).now + x.aVal
    exec (.deadline c q) s = .next (((t.countIssue c q).updQ c q (fun r => { r with deadline := d })).advance c q x.w).settle) ∧
  (∀ s t c q x, Issues s c q 0xA3 x t →
    exec (.budget c q) s = .next (((t.countIssue c q).updQ c q (fun r =>
      r.setG (J.rd x.w) ((t.countIssue c q).budgetNs c q))).advance c q x.w).settle) ∧
  (∀ s t c q x, Issues s c q 0xA2 x t → ((J.md x.w).testBit 0 = true → fld (J.imm2 x.w) 15 0 < (t.countIssue c q).eventsOf c) →
    let r := (t.countIssue c q).pcrAdmit c q x.q.head x.aVal x.bVal
    exec (.admitItem c q) s = .next ((if r.1 = 3 ∧ (J.md x.w).testBit 0 then
      r.2.attachEvent c q (fld (J.imm2 x.w) 15 0) Code.refusedAdmission x.q.head else r.2).result c q x.w r.1 none).settle)

/-! ## Jarud instructions that reach memory (ch. 03, 07) -/

/-- Scalar accesses (R203, R235, R236, R335): with a valid TOKEN operand, a natural alignment, no earlier access of the queue to the
same bytes and no stall of R183, LOAD, STORE, ATOM and BATON.GIVE become a request of the queue with the address, length, data and
destination that the rules give, and HEAD passes them.
What the rules leave open in it is the model's choice: notes/assumptions/11, 18, 54, 55, 57, 83. -/
def Obligations.ScalarAccesses : Prop :=
  let ready (u : State) (c : CtxId) (q : QIdx) (x : JIn) (n : Nat) : Prop :=
    x.aTokenFault c = none ∧ x.aDva.toNat % n = 0 ∧ u.overlaps c q x.aDva.toNat n = false ∧ u.stallFor c x.aDva.toNat = false
  let request (u : State) (c : CtxId) (q : QIdx) (x : JIn) (n : Nat) (rd wr flag : Bool) (p : Purpose) : State :=
    (({ u with nextId := u.nextId + 1 } : State).addReq
      { id := u.nextId, who := u.threadOf c, cluster := u.clusterOf c, ctx := c, queue := some q, seq := x.q.head, addr := x.aDva
        len := n, rd := rd, wr := wr, flag := flag, purpose := p, started := u.now }).advance c q x.w
  let atom (x : JIn) (op : BitVec 3) : Purpose := .atom (BitVec.ofNat 5 (J.rd x.w)) op (J.sg x.w) x.bVal x.cVal
  (∀ s t c q x, Issues s c q 0x40 x t → ready (t.countIssue c q) c q x (J.wid x.w / 8) →
    exec (.load c q) s = .next (request (t.countIssue c q) c q x (J.wid x.w / 8) true false false
      (.load (BitVec.ofNat 5 (J.rd x.w)) (J.sg x.w))).settle) ∧
  (∀ s t c q x, Issues s c q 0x41 x t → ready (t.countIssue c q) c q x (J.wid x.w / 8) → J.amb x.w ≠ amInline →
    exec (.store c q) s = .next (request (t.countIssue c q) c q x (J.wid x.w / 8) false true
      ((J.md x.w).testBit 4 && !(t.countIssue c q).relaxedQ c q) (.store (leBytes (J.wid x.w / 8) x.bVal.toNat))).settle) ∧
  (∀ s t c q x, Issues s c q 0x41 x t → ready (t.countIssue c q) c q x (J.wid x.w / 8) → J.amb x.w = amInline →
    fld (J.imm1 x.w) 7 0 + J.wid x.w / 8 ≤ 32 * J.xc x.w →
    exec (.store c q) s = .next (request (t.countIssue c q) c q x (J.wid x.w / 8) false true
      ((J.md x.w).testBit 4 && !(t.countIssue c q).relaxedQ c q)
      (.store ((x.pay.drop (fld (J.imm1 x.w) 7 0)).take (J.wid x.w / 8)))).settle) ∧
  (∀ s t c q x, Issues s c q 0x42 x t → ready (t.countIssue c q) c q x (J.wid x.w / 8) → fld (J.imm2 x.w) 2 0 = 0 →
    exec (.atomSwap c q) s = .next (request (t.countIssue c q) c q x (J.wid x.w / 8) true true false (atom x 0)).settle) ∧
  (∀ s t c q x, Issues s c q 0x42 x t → ready (t.countIssue c q) c q x (J.wid x.w / 8) → fld (J.imm2 x.w) 2 0 = 1 →
    exec (.atomAdd c q) s = .next (request (t.countIssue c q) c q x (J.wid x.w / 8) true true false (atom x 1)).settle) ∧
  (∀ s t c q x, Issues s c q 0x42 x t → ready (t.countIssue c q) c q x (J.wid x.w / 8) → fld (J.imm2 x.w) 2 0 = 2 →
    exec (.atomAnd c q) s = .next (request (t.countIssue c q) c q x (J.wid x.w / 8) true true false (atom x 2)).settle) ∧
  (∀ s t c q x, Issues s c q 0x42 x t → ready (t.countIssue c q) c q x (J.wid x.w / 8) → fld (J.imm2 x.w) 2 0 = 3 →
    exec (.atomOr c q) s = .next (request (t.countIssue c q) c q x (J.wid x.w / 8) true true false (atom x 3)).settle) ∧
  (∀ s t c q x, Issues s c q 0x42 x t → ready (t.countIssue c q) c q x (J.wid x.w / 8) → fld (J.imm2 x.w) 2 0 = 4 →
    exec (.atomXor c q) s = .next (request (t.countIssue c q) c q x (J.wid x.w / 8) true true false (atom x 4)).settle) ∧
  (∀ s t c q x, Issues s c q 0x42 x t → ready (t.countIssue c q) c q x (J.wid x.w / 8) → fld (J.imm2 x.w) 2 0 = 5 →
    exec (.atomMin c q) s = .next (request (t.countIssue c q) c q x (J.wid x.w / 8) true true false (atom x 5)).settle) ∧
  (∀ s t c q x, Issues s c q 0x42 x t → ready (t.countIssue c q) c q x (J.wid x.w / 8) → fld (J.imm2 x.w) 2 0 = 6 →
    exec (.atomMax c q) s = .next (request (t.countIssue c q) c q x (J.wid x.w / 8) true true false (atom x 6)).settle) ∧
  (∀ s t c q x, Issues s c q 0x42 x t → ready (t.countIssue c q) c q x (J.wid x.w / 8) → fld (J.imm2 x.w) 2 0 = 7 →
    exec (.atomCas c q) s = .next (request (t.countIssue c q) c q x (J.wid x.w / 8) true true false (atom x 7)).settle) ∧
  (∀ s t c q x, Issues s c q 0x69 x t → ready (t.countIssue c q) c q x 8 →
    exec (.batonGive c q) s = .next (request (t.countIssue c q) c q x 8 false true
      (!(t.countIssue c q).relaxedQ c q) (.store (leBytes 8 x.bVal.toNat))).settle)

/-- PROBE, TOUCH, MOVE and CONVERT (R239 to R245): the translation word in the destination; TOUCH starts a service besides; a MOVE or
CONVERT of length 0 only passes, and one of another length, under the checks of R240 to R242, R203 and R365, becomes the descriptor
of its operands and goes to MAP.
What the rules leave open in it is the model's choice: notes/assumptions/11, 38, 54, 55, 57, 83. -/
def Obligations.ProbesAndMoves : Prop :=
  let goes (u : State) (c : CtxId) (q : QIdx) (x : JIn) : Prop :=
    (moveLen x ≠ 0 ∧ ((J.md x.w).testBit 1 = true → x.cVal.toNat < 2 ^ 40)) ∧
    (J.ama x.w = amInline →
      inlineOver x.w (J.imm0 x.w) ((moveDesc u.nextId c q x).srcBytes (moveLen x)) = false) ∧
    x.aTokenFault c = none ∧ x.bTokenFault c = none ∧ u.descsFull c = false ∧
    (J.ama x.w = amInline ∨ u.stallFor c x.aDva.toNat = false) ∧ u.stallFor c x.bDva.toNat = false
  (∀ s t c q x, Issues s c q 0x44 x t → x.aTokenFault c = none →
    let u := t.countIssue c q
    exec (.probe c q) s = .next ((u.updQ c q (fun r =>
      r.setG (J.rd x.w) (BitVec.ofNat 64 (u.probeWord c x.aDva.toNat ((J.md x.w).testBit 0))))).advance c q x.w).settle) ∧
  (∀ s t c q x, Issues s c q 0x45 x t → x.aTokenFault c = none →
    let u := t.countIssue c q
    exec (.touch c q) s = .next (((u.touchPage c x.aDva ((J.md x.w).testBit 0)).updQ c q (fun r =>
      r.setG (J.rd x.w) (BitVec.ofNat 64 (u.probeWord c x.aDva.toNat ((J.md x.w).testBit 0))))).advance c q x.w).settle) ∧
  (∀ s t c q x, Issues s c q 0x48 x t → goes (t.countIssue c q) c q x →
    let u := t.countIssue c q
    exec (.move c q) s =
      .next (({ u with nextId := u.nextId + 1 } : State).sendDesc c q x.w (moveDesc u.nextId c q x)).settle) ∧
  (∀ s t c q x, Issues s c q 0x49 x t → goes (t.countIssue c q) c q x → leVal (x.pay.take 8) % 16 = 0 →
    let u := t.countIssue c q
    exec (.convert c q) s =
      .next (({ u with nextId := u.nextId + 1 } : State).sendDesc c q x.w (moveDesc u.nextId c q x)).settle) ∧
  (∀ s t c q x, Issues s c q 0x48 x t → J.ama x.w ≠ amInline → (J.md x.w).testBit 1 = false → fld (J.imm2 x.w) 39 0 = 0 →
    exec (.move c q) s = .next ((t.countIssue c q).advance c q x.w).settle)

/-! ## Fences, signals, waits and locks (ch. 07, 10) -/

/-- HURDLE and its release (R248): with every earlier access of the selected directions complete the instruction retires at once;
otherwise the queue waits at it, and retires when they are.
What the rules leave open in it is the model's choice: notes/assumptions/11, 54, 55, 57, 59, 60, 83. -/
def Obligations.Hurdles : Prop :=
  (∀ s t c q x, Issues s c q 0x60 x t →
    let u := t.countIssue c q
    let m := BitVec.ofNat 3 (J.md x.w)
    let w := u.waitAt c q x.w (.hurdle m .nothing u.nextId)
    exec (.hurdle c q) s = .next (if u.hurdleClear c q m u.nextId then w.retireWait c q 0 0 else w).settle) ∧
  (∀ (s : State) (c : CtxId) (q : QIdx) (m : BitVec 3) (mark : Nat), (s.queue c q).wait = some (.hurdle m .nothing mark) →
    (s.queue c q).state = .active → s.resident c = true → s.hurdleClear c q m mark = true →
    exec (.hurdleRelease c q) s = .next (s.retireWait c q 0 0).settle) ∧
  (∀ (s : State) (c : CtxId) (q : QIdx) (m : BitVec 3) (mark e : Nat),
    (s.queue c q).wait = some (.hurdle m (.eventReset e) mark) →
    (s.queue c q).state = .active → s.resident c = true → s.hurdleClear c q m mark = true →
    exec (.hurdleRelease c q) s = .next ((s.evWrite c e (Ev.mk 0 q 0 false 0)).retireWait c q 0 0).settle)

/-- SIGNAL (R172, R173, R249, R250, R263): it issues as a held SIGNAL of its event, value and deadline; once R249 lets it write and
its completion queue has room, an event that is not ERRORED becomes SIGNALED with the value and LATE, and one record is posted.
What the rules leave open in it is the model's choice: notes/assumptions/11, 54, 55, 57, 83, 85, 88. -/
def Obligations.Signals : Prop :=
  (∀ s t c q x, Issues s c q 0x61 x t →
    let u := t.countIssue c q
    let e := if (J.md x.w).testBit 0 then fld x.cVal.toNat 15 0 else fld (J.imm2 x.w) 15 0
    let h : Held := { id := u.nextId, ctx := c, queue := q, seq := x.q.head, event := e, value := BitVec.ofNat 32 x.aVal.toNat,
                      deadline := x.q.deadline }
    e < u.eventsOf c →
    exec (.signal c q) s =
      .next ((({ u with nextId := u.nextId + 1, helds := u.helds ++ [h] } : State).pcrSigIssue c q u.nextId).advance c q x.w).settle) ∧
  (∀ (s : State) (c : CtxId) (q : QIdx) (h : Held) (x : Ctx), (s.heldOf c q).head? = some h → s.ctx? c = some x →
    x.recWait = [] → s.cqSpace c = true → s.signalReady h = true →
    let late := decide (h.deadline ≠ 0 ∧ h.deadline.toNat < s.now.toNat)
    let r := ({ s with helds := s.helds.filter (fun k => decide (k.id ≠ h.id)) } : State).evRead h.ctx h.event
    let rec_ : CqRec := { event := BitVec.ofNat 16 h.event, st := 1, late := late, code := 0, queue := h.queue, seq := h.seq,
                          value := h.value, lateness := if late then sat32 (s.now.toNat - h.deadline.toNat) else 0 }
    Ev.state r.1 ≠ 2 →
    exec (.signalRelease c q) s =
      .next (((((r.2.evWrite h.ctx h.event (Ev.mk h.value.toNat h.queue 0 late 1)).cqPost h.ctx rec_).updQ h.ctx h.queue
        (fun y => { y with sigs := y.sigs ++ [(h.id, h.event, h.seq)] })).finalSigs h.ctx h.queue).pcrSigDone h.id late).settle)

/-- Waits (R172, R251 to R254): EVENT.RESET writes PENDING behind a hurdle; WAIT.EV retires with the event word where it ends the
wait, and waits otherwise; WAIT.MEM and BATON.TAKE wait and read their word; a wait reads its word again, and one whose limit has
come retires.
What the rules leave open in it is the model's choice: notes/assumptions/9, 11, 18, 54, 55, 57, 58, 59, 60, 83. -/
def Obligations.Waits : Prop :=
  (∀ s t c q x, Issues s c q 0x64 x t →
    let u := t.countIssue c q
    let e := fld (J.imm2 x.w) 15 0
    let w := u.waitAt c q x.w (.hurdle 0 (.eventReset e) u.nextId)
    e < u.eventsOf c →
    exec (.eventReset c q) s =
      .next (if u.hurdleClear c q 0 u.nextId then (w.evWrite c e (Ev.mk 0 q 0 false 0)).retireWait c q 0 0 else w).settle) ∧
  (∀ s t c q x, Issues s c q 0x62 x t →
    let u := t.countIssue c q
    let e := fld (J.imm2 x.w) 15 0
    e < u.eventsOf c →
    exec (.waitEv c q) s = .next ((u.waitAt c q x.w (.event e (BitVec.ofNat 32 x.bVal.toNat) (BitVec.ofNat 5 (J.rd x.w))
      (waitLimit x u.now))).evCheck c q).settle) ∧
  (∀ s t c q x, Issues s c q 0x63 x t →
    let u := t.countIssue c q
    x.aTokenFault c = none → x.aDva.toNat % 8 = 0 → u.overlaps c q x.aDva.toNat 8 = false → u.stallFor c x.aDva.toNat = false →
    exec (.waitMem c q) s = .next ((u.waitAt c q x.w (.mem x.aDva (BitVec.ofNat 3 (fld (J.imm2 x.w) 2 0)) (J.sg x.w) x.bVal
      (BitVec.ofNat 5 (J.rd x.w)) (waitLimit x u.now) 0)).waitRead c q x.q.head x.aDva).settle) ∧
  (∀ s t c q x, Issues s c q 0x68 x t →
    let u := t.countIssue c q
    x.aTokenFault c = none → x.aDva.toNat % 8 = 0 → u.overlaps c q x.aDva.toNat 8 = false → u.stallFor c x.aDva.toNat = false →
    exec (.batonTake c q) s = .next ((u.waitAt c q x.w (.mem x.aDva 0 false x.bVal (BitVec.ofNat 5 (J.rd x.w))
      (waitLimit x u.now) 0)).waitRead c q x.q.head x.aDva).settle) ∧
  (∀ (s : State) (c : CtxId) (q : QIdx) (a : DWord) (rel : BitVec 3) (sg : Bool) (b : DWord) (rd : BitVec 5)
      (lim : Option DWord) (last : DWord),
    (s.queue c q).wait = some (.mem a rel sg b rd lim last) → (s.queue c q).state = .active → s.resident c = true →
    s.stallFor c a.toNat = false → s.reqs.any (fun r => r.ctx == c && r.queue == some q && r.purpose == .wait) = false →
    exec (.waitReread c q) s = .next (({ s with nextId := s.nextId + 1 } : State).addReq
      { id := s.nextId, who := s.threadOf c, cluster := s.clusterOf c, ctx := c, queue := some q, seq := (s.queue c q).head
        addr := a, len := 8, rd := true, wr := false, purpose := .wait, started := s.now }).settle) ∧
  (∀ (s : State) (c : CtxId) (q : QIdx) (e : Nat) (thr : Word) (rd : BitVec 5) (lim : DWord),
    (s.queue c q).wait = some (.event e thr rd (some lim)) → (s.queue c q).state = .active → s.resident c = true →
    lim.toNat ≤ s.now.toNat →
    exec (.waitTimeout c q) s =
      .next ((s.evRead c e).2.retireWait c q rd (BitVec.ofNat 64 (s.evRead c e).1)).settle) ∧
  (∀ (s : State) (c : CtxId) (q : QIdx) (a : DWord) (rel : BitVec 3) (sg : Bool) (b : DWord) (rd : BitVec 5)
      (lim : DWord) (last : DWord),
    (s.queue c q).wait = some (.mem a rel sg b rd (some lim) last) → (s.queue c q).state = .active → s.resident c = true →
    lim.toNat ≤ s.now.toNat →
    exec (.waitTimeout c q) s = .next ((s.dropReqs (fun k => k.ctx == c && k.queue == some q && k.purpose == .wait)).retireWait
      c q rd last).settle)

/-- Locks of a queue (R255, R515, R516): the code and the new holder of a lock in the range of the queue's virtual device; LOCK.ACQ
waits for a lock that another holds; LOCK.REL releases behind a hurdle; a lock outside the range gives code 2.
What the rules leave open in it is the model's choice: notes/assumptions/11, 54, 55, 57, 59, 60, 83. -/
def Obligations.QueueLocks : Prop :=
  let code (u : State) (k : Nat) (me : LockOwner) : DWord := match u.lkt.locks.look k with
    | none => 0
    | some .abandoned => 4
    | some (.held o) => if o.same me then 6 else 5
  let taken (u : State) (k : Nat) (me : LockOwner) : State := match u.lkt.locks.look k with
    | some (.held _) => u
    | _ => u.setLock k (some (.held me))
  (∀ s t c q x, Issues s c q 0x6D x t →
    let u := t.countIssue c q
    let k := fld x.aVal.toNat 11 0
    let me : LockOwner := .queue c q (initId (u.threadOf c))
    u.lockIn c k = true → u.runs Blk.lkt = true →
    exec (.lockTry c q) s = .next ((taken u k me).result c q x.w (code u k me) none).settle) ∧
  (∀ s t c q x, Issues s c q 0x6C x t →
    let u := t.countIssue c q
    let k := fld x.aVal.toNat 11 0
    let me : LockOwner := .queue c q (initId (u.threadOf c))
    u.lockIn c k = true → u.runs Blk.lkt = true → code u k me ≠ 5 →
    exec (.lockAcq c q) s = .next ((taken u k me).result c q x.w (code u k me) none).settle) ∧
  (∀ s t c q x, Issues s c q 0x6C x t →
    let u := t.countIssue c q
    let k := fld x.aVal.toNat 11 0
    let me : LockOwner := .queue c q (initId (u.threadOf c))
    u.lockIn c k = true → u.runs Blk.lkt = true → code u k me = 5 → u.lkt.waiters.length < 8192 →
    exec (.lockAcq c q) s = .next (({ u with lkt := { u.lkt with waiters := u.lkt.waiters ++
      [{ lk := k, who := me, limit := waitLimit x u.now }] } } : State).waitAt c q x.w
        (.lock k (BitVec.ofNat 5 (J.rd x.w)) (waitLimit x u.now))).settle) ∧
  (∀ s t c q x, Issues s c q 0x6E x t →
    let u := t.countIssue c q
    let k := fld x.aVal.toNat 11 0
    let w := u.waitAt c q x.w (.hurdle 0 (.lockRel k (BitVec.ofNat 5 (J.rd x.w))) u.nextId)
    let r := w.lkRel k (.queue c q (initId (w.threadOf c)))
    u.lockIn c k = true → u.runs Blk.lkt = true →
    exec (.lockRel c q) s = .next (if u.hurdleClear c q 0 u.nextId then
      r.2.retireWait c q (BitVec.ofNat 5 (J.rd x.w)) r.1 else w).settle) ∧
  (∀ s t c q x, Issues s c q 0x6D x t →
    let u := t.countIssue c q
    u.lockIn c (fld x.aVal.toNat 11 0) = false →
    exec (.lockTry c q) s = .next (u.result c q x.w 2 none).settle)

/-! ## Tables and invalidations (ch. 02, 03, 07) -/

/-- TBL instructions while XLT runs (R68 to R79, R140, R257 to R260): the result code reaches gd, and where the write, registration,
creation or deletion is done, the tables have changed as the named operation says; TBL.READ writes the code and both halves. An empty
child table is unlinked from its parent once its invalidation is done, and its frame then returns to the pool.
What the rules leave open in it is the model's choice: notes/assumptions/11, 17, 19, 21, 22, 23, 54, 55, 57, 83. -/
def Obligations.TableInstructions : Prop :=
  (∀ s t c q x, Issues s c q 0x80 x t → (t.countIssue c q).runs Blk.xlt = true → J.amb x.w ≠ amInline →
    let u := t.countIssue c q
    let e : PTE := BitVec.ofNat 128 ((x.q.gr (J.rb x.w)).toNat + (x.q.gr (J.rb x.w + 1)).toNat * 2 ^ 64)
    let st2 := (J.md x.w).testBit 0
    let r := u.tblWriteRes c st2 (fld (J.imm2 x.w) (if st2 then 7 else 13) 0) x.aVal e
    exec (.tblWrite c q) s = .next (r.2.result c q x.w r.1 none).settle) ∧
  (∀ s t c q x, Issues s c q 0x80 x t → (t.countIssue c q).runs Blk.xlt = true → J.amb x.w = amInline →
    fld (J.imm1 x.w) 7 0 + 16 ≤ 32 * J.xc x.w →
    let u := t.countIssue c q
    let e : PTE := BitVec.ofNat 128 (leVal ((x.pay.drop (fld (J.imm1 x.w) 7 0)).take 16))
    let st2 := (J.md x.w).testBit 0
    let r := u.tblWriteRes c st2 (fld (J.imm2 x.w) (if st2 then 7 else 13) 0) x.aVal e
    exec (.tblWrite c q) s = .next (r.2.result c q x.w r.1 none).settle) ∧
  (∀ s t c q x f p, Issues s c q 0x81 x t → (t.countIssue c q).runs Blk.xlt = true → (t.countIssue c q).ctlFn c = some f →
    let u := t.countIssue c q
    u.tblReadRes f (fld (J.md x.w) 2 0) (fld (J.imm2 x.w) 13 0) (fld (J.imm2 x.w) 23 16) x.aVal = .ok p →
    exec (.tblRead c q) s =
      .next ((u.updQ c q (fun r => r.setG (J.rd x.w + 2) p.2)).result c q x.w 0 (some p.1)).settle) ∧
  (∀ s t c q x f, Issues s c q 0x82 x t → (t.countIssue c q).runs Blk.xlt = true → (t.countIssue c q).ctlFn c = some f →
    let r := (t.countIssue c q).fqsetRes c f x.aVal (fld (J.imm2 x.w) 4 0) (fld (J.imm2 x.w) 26 16)
    exec (.tblFqset c q) s = .next (r.2.result c q x.w r.1 none).settle) ∧
  (∀ s t c q x f, Issues s c q 0x83 x t → (J.md x.w).testBit 0 = false → (t.countIssue c q).runs Blk.xlt = true →
    (t.countIssue c q).ctlFn c = some f → fld (J.imm0 x.w) 7 0 + 64 ≤ 32 * J.xc x.w →
    let r := (t.countIssue c q).seqCreate f (leVal ((x.pay.drop (fld (J.imm0 x.w) 7 0)).take 64))
    exec (.tblSeqCreate c q) s = .next (r.2.2.result c q x.w r.1 (some (BitVec.ofNat 64 r.2.1))).settle) ∧
  (∀ s t c q x f d, Issues s c q 0x83 x t → (J.md x.w).testBit 0 = true → (t.countIssue c q).runs Blk.xlt = true →
    (t.countIssue c q).ctlFn c = some f →
    let u := t.countIssue c q
    u.xlt.seqs.look (fld x.aVal.toNat 16 0) = some d → u.ctxIn f d.ctx = true →
    exec (.tblSeqFree c q) s = .next (({ u with xlt := { u.xlt with
      seqs := u.xlt.seqs.del (fld x.aVal.toNat 16 0) } } : State).result c q x.w 0 none).settle) ∧
  (∀ (s : State) (n : BitVec 19) (k : Unlink) (x : Frame) (p : Nat × Nat),
    s.xlt.unlinks.find? (fun v => v.frame == n.toNat) = some k → s.xlt.frames.look n.toNat = some x → x.parent = some p →
    k.invDone = true → k.cleared = false → x.vcount = 0 →
    let s1 := (s.putPte (pteKey p.1 p.2) 0).vcount p.1 (· - 1)
    exec (.tableChildUnlink n) s = .next (({ s1 with xlt := { s1.xlt with unlinks := s1.xlt.unlinks.map (fun v =>
      if v.frame = n.toNat then { v with cleared := true } else v) } } : State).unlinkIfEmpty p.1 none).settle) ∧
  (∀ (s : State) (n : BitVec 19), s.xlt.unlinks.any (fun v => v.frame == n.toNat && v.cleared) = true →
    exec (.tableFrameFree n) s = .next (({ s with xlt := { s.xlt with
      frames := s.xlt.frames.del n.toNat
      entries := s.xlt.entries.filter (fun e => decide (e.1 / 512 ≠ n.toNat))
      unlinks := s.xlt.unlinks.filter (fun v => decide (v.frame ≠ n.toNat)) } } : State).tstCheck).settle)

/-- INV instructions (R95, R96, R99, R256, R261): an operation in the issuer's scope is accepted, while XLT runs and has room, with
code 0 as an invalidation with the operands' scope, address and length; INV.ALL has no scope, and gives code 1 to a control context
and 2 to any other.
What the rules leave open in it is the model's choice: notes/assumptions/11, 21, 22, 54, 55, 57, 83. -/
def Obligations.InvalidationInstructions : Prop :=
  let accepts (u : State) (c : CtxId) (q : QIdx) (x : JIn) (op : InvOp) (n : Nat) : Prop :=
    u.invRefused c (some op) n = none ∧ u.runs Blk.xlt = true ∧ u.invRoom = true ∧
    ((op = .range ∨ op = .s2range) → fld x.bVal.toNat 31 0 ≠ 0)
  let after (u : State) (c : CtxId) (q : QIdx) (x : JIn) (op : InvOp) (n : Nat) : State :=
    (u.invAdd { id := 0, src := .queue c q, op := op, scope := n, addr := x.aVal, len := fld x.bVal.toNat 31 0 }).result
      c q x.w 0 none
  (∀ s t c q x, Issues s c q 0x88 x t → J.md x.w = 0 → accepts (t.countIssue c q) c q x .page (fld (J.imm2 x.w) 13 0) →
    exec (.invPage c q) s = .next (after (t.countIssue c q) c q x .page (fld (J.imm2 x.w) 13 0)).settle) ∧
  (∀ s t c q x, Issues s c q 0x88 x t → J.md x.w = 1 → accepts (t.countIssue c q) c q x .range (fld (J.imm2 x.w) 13 0) →
    exec (.invRange c q) s = .next (after (t.countIssue c q) c q x .range (fld (J.imm2 x.w) 13 0)).settle) ∧
  (∀ s t c q x, Issues s c q 0x88 x t → J.md x.w = 2 → accepts (t.countIssue c q) c q x .ctx (fld (J.imm2 x.w) 13 0) →
    exec (.invCtx c q) s = .next (after (t.countIssue c q) c q x .ctx (fld (J.imm2 x.w) 13 0)).settle) ∧
  (∀ s t c q x, Issues s c q 0x88 x t → J.md x.w = 3 → accepts (t.countIssue c q) c q x .s2page (fld (J.imm2 x.w) 7 0) →
    exec (.invS2page c q) s = .next (after (t.countIssue c q) c q x .s2page (fld (J.imm2 x.w) 7 0)).settle) ∧
  (∀ s t c q x, Issues s c q 0x88 x t → J.md x.w = 4 → accepts (t.countIssue c q) c q x .s2range (fld (J.imm2 x.w) 7 0) →
    exec (.invS2range c q) s = .next (after (t.countIssue c q) c q x .s2range (fld (J.imm2 x.w) 7 0)).settle) ∧
  (∀ s t c q x, Issues s c q 0x88 x t → J.md x.w = 5 → accepts (t.countIssue c q) c q x .vdev (fld (J.imm2 x.w) 7 0) →
    exec (.invVdev c q) s = .next (after (t.countIssue c q) c q x .vdev (fld (J.imm2 x.w) 7 0)).settle) ∧
  (∀ s t c q x, Issues s c q 0x88 x t → J.md x.w = 7 → accepts (t.countIssue c q) c q x .l0fn (fld (J.imm2 x.w) 9 0) →
    exec (.invL0fn c q) s = .next (after (t.countIssue c q) c q x .l0fn (fld (J.imm2 x.w) 9 0)).settle) ∧
  (∀ s t c q x, Issues s c q 0x88 x t → J.md x.w = 6 →
    exec (.invAll c q) s = .next ((t.countIssue c q).result c q x.w
      (if ((t.countIssue c q).ctlFn c).isSome then 1 else 2) none).settle)

/-! ## Doorbells, residency and the ends of contexts (ch. 05) -/

/-- A doorbell (R22, R23, R160, R165): a value from the owning function within the ring becomes TAIL and LASTDB becomes the time; a
context in eviction holds the doorbell, one without a slot that does not wait yet joins the waiting room, and a resident one does
nothing more. A doorbell value outside the ring leaves TAIL and records DB_RANGE; one of another function, to an undefined queue or
to another offset is discarded and records CFG_REJECT (R24, R159, R160). -/
def Obligations.Doorbells : Prop :=
  (∀ (s : State) (f : FnId) (c : CtxId) (q : QIdx) (v : Word) (x : Ctx), Reaches s f → s.ctx? c = some x → x.func = f →
     x.defunct = false → x.teardown = .none → (x.q q).state ≠ .undefined → (x.q q).resetting = none →
     (v - (x.q q).head).toNat ≤ 2 ^ (x.q q).lsize →
     let u := (s.updCtx c (fun y => y.updQ q (fun r => { r with tail := v }))).updCtx c (fun y => { y with lastdb := s.now })
     (u.queue c q).pendErr = none →
     exec (.doorbellWrite f c q 0 v) s = .next (if x.evict then u.updCtx c (fun y => { y with heldDb := true })
       else if x.slot.isNone && !x.wait then u.roomTail c else u).settle) ∧
  ((∀ (s : State) (f : FnId) (c : CtxId) (q : QIdx) (v : Word) (x : Ctx), Reaches s f → s.ctx? c = some x → x.func = f →
     x.defunct = false → x.teardown = .none → (x.q q).state ≠ .undefined → (x.q q).resetting = none →
     2 ^ (x.q q).lsize < (v - (x.q q).head).toNat →
     exec (.doorbellWrite f c q 0 v) s = .next (s.raise
       { src := Src.dbRange, who := .host f, addr := bellAddr c q 0, acc := .write, akind := .bar2 }).settle) ∧
   (∀ (s : State) (f : FnId) (c : CtxId) (q : QIdx) (off : BitVec 12) (v : Word), Reaches s f →
     ((∀ x, s.ctx? c = some x → x.func ≠ f) ∨ (s.queue c q).state = .undefined ∨ off ≠ 0) →
     exec (.doorbellWrite f c q off v) s = .next (s.raise
       { src := Src.cfgReject, who := .host f, addr := bellAddr c q off.toNat, acc := .write, akind := .bar2 }).settle))

/-- Admission and eviction (R165 to R171, R475): the head of the waiting room takes the lowest free slot outside frozen regions and
starts its restore, or a victim is chosen for it; the victim's eviction begins; its slot is freed when its spill ends; a restore ends
with the thread's waits looked at again.
What the rules leave open in it is the model's choice: notes/assumptions/9, 45. -/
def Obligations.Residency : Prop :=
  (∀ (s : State) (c : CtxId) (x : Ctx) (rest : List Nat) (n : Nat) (ns : List Nat), s.runs Blk.dqe = true →
    s.dqe.room = c.toNat :: rest → s.ctx? c = some x → s.residents x.vdix < (s.vdev x.vdix).grant.slots.toNat →
    s.freeSlots = n :: ns →
    let u := s.updCtx c (fun y => { y with slot := some n, restoring := true, wait := false, since := s.now,
                                           pin := y.pin || y.pinWait, pinWait := false })
    exec .contextAdmit s = .next (({ u with dqe := { u.dqe with
      room := (c.toNat :: rest).filter (fun k => decide (k ≠ c.toNat)) } } : State).roomRefill 1).settle) ∧
  (∀ (s : State) (c : CtxId) (x : Ctx) (rest : List Nat) (v : Nat), s.runs Blk.dqe = true →
    s.dqe.room = c.toNat :: rest → s.ctx? c = some x → s.residents x.vdix < (s.vdev x.vdix).grant.slots.toNat →
    s.freeSlots = [] → s.dqe.victim = none → s.victimFor none = some v →
    exec .contextAdmit s = .next ({ s with dqe := { s.dqe with victim := some v } } : State).settle) ∧
  (∀ (s : State) (v : CtxId) (x : Ctx) (n : Nat), s.dqe.victim = some v.toNat → s.ctx? v = some x → x.evict = false →
    x.pin = false → x.slot = some n → x.restoring = false →
    exec .evictionStart s = .next (s.updCtx v (fun y => { y with evict := true })).settle) ∧
  (∀ (s : State) (c : CtxId) (x : Ctx), s.ctx? c = some x → x.evict = true → x.pinWait = false →
    let u := ((s.leaveSlot c).updCtx c (fun y => { y with queues := y.queues.map (fun r => { r with rwait := r.wait.isSome }) }))
    ∃ y, u.ctx? c = some y ∧ y.slot = none ∧ y.evict = false ∧
      exec (.evictionSpillDone c) s = .next (if y.hasWork then (u.updCtx c (fun z => { z with heldDb := false })).roomTail c
        else u.updCtx c (fun z => { z with heldDb := false })).settle) ∧
  (∀ (s : State) (c : CtxId) (x : Ctx), s.ctx? c = some x → x.restoring = true →
    let u := s.updCtx c (fun y => { y with restoring := false, queues := y.queues.map (fun r => { r with rwait := false }) })
    exec (.spillRestoreDone c) s = .next (forAll allQ ((u.askGrants c).lateBudget c) (fun t q => t.evCheck c q)).settle)

/-- Counters (R174 to R178, R408): an atomic of the owning function that leaves every field but HREF as it was is performed on a LIVE
counter, and the old word goes back; one that does not is not performed, and REFCNT_RANGE is recorded; a DYING counter whose pages
are released and scrubbed is FREE.
What the rules leave open in it is the model's choice: notes/assumptions/48, 52. -/
def Obligations.HostCounters : Prop :=
  let rest (w : DWord) : Nat := w.toNat - fld w.toNat 27 14 * 2 ^ 14
  (∀ (s : State) (f : FnId) (i : BitVec 20) (v : DWord) (k : Counter), Reaches s f → s.xlt.counters.look i.toNat = some k →
    k.st = 1 → s.ctxFn k.ctx = some f → rest (s.counterWord i.toNat + v) = rest (s.counterWord i.toNat) →
    exec (.hostCounterFetchadd f i v) s = .next ((s.emit (.hostReply f (s.counterWord i.toNat))).putRefs i.toNat k
      (fld (s.counterWord i.toNat + v).toNat 27 14) k.dref.toNat).settle) ∧
  (∀ (s : State) (f : FnId) (i : BitVec 20) (v : DWord) (k : Counter), Reaches s f → s.xlt.counters.look i.toNat = some k →
    (k.st ≠ 1 ∨ s.ctxFn k.ctx ≠ some f ∨ rest (s.counterWord i.toNat + v) ≠ rest (s.counterWord i.toNat)) →
    exec (.hostCounterFetchadd f i v) s = .next ((s.emit (.hostReply f (s.counterWord i.toNat))).raise
      { src := Src.refcntRange, who := .host f, addr := counterAddr i.toNat, acc := .atomic, akind := .bar2 }).settle) ∧
  (∀ (s : State) (f : FnId) (i : BitVec 20) (cmp new : DWord) (k : Counter), Reaches s f →
    s.xlt.counters.look i.toNat = some k → k.st = 1 → s.ctxFn k.ctx = some f → rest new = rest (s.counterWord i.toNat) →
    exec (.hostCounterCas f i cmp new) s = .next (if s.counterWord i.toNat = cmp then (s.emit (.hostReply f (s.counterWord i.toNat))).putRefs i.toNat k
      (fld new.toNat 27 14) k.dref.toNat else s.emit (.hostReply f (s.counterWord i.toNat))).settle) ∧
  (∀ (s : State) (f : FnId) (i : BitVec 20) (new : DWord) (k : Counter), Reaches s f →
    s.xlt.counters.look i.toNat = some k → k.st = 1 → s.ctxFn k.ctx = some f → rest new = rest (s.counterWord i.toNat) →
    exec (.hostCounterSwap f i new) s = .next ((s.emit (.hostReply f (s.counterWord i.toNat))).putRefs i.toNat k
      (fld new.toNat 27 14) k.dref.toNat).settle) ∧
  (∀ (s : State) (i : BitVec 20) (k : Counter), s.xlt.counters.look i.toNat = some k → k.st = 2 →
    s.xlt.reclaim.look i.toNat = none → s.sec.scrub.any (fun x => x.counter == some i.toNat) = false →
    exec (.counterFree i) s =
      .next ({ s with xlt := { s.xlt with counters := s.xlt.counters.del i.toNat } } : State).settle)

/-- Ends (R162, R179, R181, R182, R184, R185, R523): a queue reset ends when everything that the queue issued has ended, with HEAD at
TAIL and its registers 0; a context that is swept is undefined and its GEN has advanced; a forced abort takes its members as lapsed
after 20 ms and ends with the counters FREE and the end record posted; an orphan whose lease has run out is torn down; the ban of a
wrong cookie ends.
What the rules leave open in it is the model's choice: notes/assumptions/9, 48, 49, 50, 51, 131. -/
def Obligations.ContextsEnd : Prop :=
  (∀ (s : State) (c : CtxId) (q : QIdx) (x : Resetting) (y : Ctx), s.ctx? c = some y → y.teardown = .none →
    (y.q q).resetting = some x → s.queueDrained c q = true → s.unreset c q = [] → s.resetsOut c q = false →
    s.discardedEvent c q = none → x.destroy = false → x.replyTo = none → (y.q q).heldTail = none →
    let u := (s.dropReqs (fun k => k.ctx == c && k.queue == some q)).lkAbandon (ownerQueue c q)
    let tx := u.ofp.tx.filter (fun f => !((y.q q).wrote.map (s.queueFlow c q)).contains f.key)
    let cleared (r : Queue) : Queue := { state := .active, rdva := r.rdva, ring := r.ring, lsize := r.lsize, dcls := r.dcls,
                                         rlx := r.rlx, head := r.tail, tail := r.tail, rlxGrant := r.rlxGrant,
                                         highGrant := r.highGrant }
    exec (.qResetDrained c q) s =
      .next ((({ u with ofp := { u.ofp with tx := tx } } : State).updQ c q cleared).tearStep c).settle) ∧
  (∀ (s : State) (c : CtxId) (x : Ctx), s.ctx? c = some x → x.teardown = .sweep → x.recWait = [] →
    let u := s.freeTree x.s1root.toNat
    let clear (e : Nat × LineMeta) : Nat × LineMeta := (e.1, if e.2.tag = c then { e.2 with tag := 0, owned := false } else e.2)
    let w := match u.sec.sweep with
      | some w => if w.ctx = c then none else some w
      | none => none
    exec (.tagSweepDone c) s = .next (({ u with
      mem := { u.mem with lines := (u.mem.lines.map clear).filter (fun e => e.2 != {}) }
      xlt := { u.xlt with
        seqs := u.xlt.seqs.filter (fun e => e.2.ctx != c)
        counters := u.xlt.counters.filter (fun e => e.2.ctx != c || e.2.st != 1)
        faultQs := u.xlt.faultQs.filter (fun e => e.2.ctx != c) }
      sec := { u.sec with
        gens := u.sec.gens.put c.toNat (x.gen + 1)
        sweep := w
        sweepQ := u.sec.sweepQ.filter (fun k => k != c)
        regs := u.sec.regs.filter (fun e => e.2.ctx != c) }
      dqe := { u.dqe with attachBan := u.dqe.attachBan.del c.toNat }
      ctxs := u.ctxs.del c.toNat } : State).vdevCheck x.vdix).settle) ∧
  (∀ (s : State) (c : CtxId) (x : Ctx) (m : List PkgId) (b : DWord), s.ctx? c = some x → x.teardown = .abort m b →
    20000000 ≤ s.since b →
    exec (.forcedAbortMemberTimeout c) s = .next (s.updCtx c (fun y => { y with teardown := .abort [] b })).settle) ∧
  (∀ (s : State) (c : CtxId) (x : Ctx) (b : DWord), s.ctx? c = some x → x.teardown = .abort [] b →
    let mine := (s.xlt.counters.filter (fun e => e.2.ctx == c)).map Prod.fst
    let s1 : State := { s with xlt := { s.xlt with counters := s.xlt.counters.filter (fun e => e.2.ctx != c),
                                                   reclaim := s.xlt.reclaim.filter (fun e => !mine.contains e.1) } }
    let left := (s.xlt.reclaim.filter (fun e => mine.contains e.1)).foldl (fun r e => r.join e.2) ({} : Released)
    exec (.forcedAbortFinal c) s = .next (((s1.cqPost c { kind := true }).releasedDone left).undefineStart c).settle) ∧
  (∀ (s : State) (c : CtxId) (x : Ctx), s.ctx? c = some x → x.orph = true → x.orphend.toNat ≤ s.now.toNat →
    (s.vdev x.vdix).grant.multi = false → x.teardown = .none →
    exec (.orphanLeaseExpire c) s = .next (({ s with xlt := { s.xlt with counters := s.xlt.counters.map (fun e =>
      (e.1, if e.2.ctx = c ∧ e.2.st = 1 then { e.2 with href := 0 } else e.2)) } } : State).destroyStart c none).settle) ∧
  (∀ (s : State) (c : CtxId) (b : DWord), s.dqe.attachBan.look c.toNat = some b → b.toNat ≤ s.now.toNat →
    exec (.attachLockoutExpire c) s =
      .next ({ s with dqe := { s.dqe with attachBan := s.dqe.attachBan.del c.toNat } } : State).settle)

/-- Lifecycle instructions of a control context (R153 to R156, R163, R170, R184, R238, R265 to R267): under the checks that R155,
R156, R163, R170 and R266 name, each writes code 0 and has its effect; those that wait for a reset or a teardown start it.
What the rules leave open in it is the model's choice: notes/assumptions/11, 17, 46, 47, 51, 52, 54, 55, 57, 83, 155, 212. -/
def Obligations.LifecycleInstructions : Prop :=
  (∀ s t c q x f, Issues s c q 0xC0 x t → (t.countIssue c q).ctlFn c = some f →
    let u := t.countIssue c q
    let v : Vdix := BitVec.ofNat 8 (fld (J.imm2 x.w) 31 24)
    let short := (J.md x.w).testBit 0
    let r := u.allocFrame (if short then 3 else 4) false false none
    let d := r.2.draw
    let new : Ctx := { s1d := short, vdix := v, func := f, gen := (u.sec.gens.look (lifeCtx x).toNat).getD 0,
                       lap := u.lapStored false (lifeCtx x).toNat, s1root := BitVec.ofNat 19 r.1,
                       rlxcap := (J.md x.w).testBit 1, cookie := d.1 }
    u.ctx? (lifeCtx x) = none → u.vdevIn f v = true → u.tstFree ≠ 0 →
    exec (.ctxCreate c q) s =
      .next (({ d.2 with ctxs := d.2.ctxs.put (lifeCtx x).toNat new } : State).result c q x.w 0 (some d.1)).settle) ∧
  (∀ s t c q x f y ps, Issues s c q 0xC8 x t → (t.countIssue c q).ctlFn c = some f →
    let u := t.countIssue c q
    let lsize := fld (J.imm2 x.w) 28 24
    let dcls := fld (J.md x.w) 3 1
    let rlx := (J.md x.w).testBit 0
    let new : Queue := { state := .active, rdva := x.aVal, ring := ps, lsize := lsize, dcls := BitVec.ofNat 3 dcls, rlx := rlx }
    dcls < 4 → 7 ≤ lsize → lsize ≤ 16 → x.aVal.toNat < 2 ^ 57 → x.aVal.toNat % 4096 = 0 → u.lifeIn f (lifeCtx x) = some y →
    y.evset = true → (y.q (lifeQ x)).state = .undefined → (y.q (lifeQ x)).resetting = none → (rlx = true → y.rlxcap = true) →
    (rlx = true → (y.queues.filter Queue.rlx).length < 2) →
    u.stagingPages (lifeCtx x) x.aVal.toNat (pagesOf x.aVal.toNat (32 * 2 ^ lsize)) = some ps →
    exec (.qCreate c q) s = .next ((((u.updQ (lifeCtx x) (lifeQ x) (fun _ => new)).askRlx (lifeCtx x) (lifeQ x)).askHigh (lifeCtx x)
      (lifeQ x)).result c q x.w 0 none).settle) ∧
  (∀ s t c q x f, Issues s c q 0xC1 x t → (t.countIssue c q).ctlFn c = some f → fld (J.imm0 x.w) 7 0 + 32 ≤ 32 * J.xc x.w →
    let r := (t.countIssue c q).evsetRes f (lifeCtx x) (leVal ((x.pay.drop (fld (J.imm0 x.w) 7 0)).take 32))
    exec (.ctxEvset c q) s = .next (r.2.result c q x.w r.1 none).settle) ∧
  (∀ s t c q x f y, Issues s c q 0xC9 x t → (t.countIssue c q).ctlFn c = some f →
    let u := t.countIssue c q
    let rd : BitVec 5 := BitVec.ofNat 5 (J.rd x.w)
    u.lifeIn f (lifeCtx x) = some y → ¬ (lifeCtx x = c ∧ lifeQ x = q) → (y.q (lifeQ x)).state ≠ .undefined → (y.q (lifeQ x)).resetting = none →
    exec (.qReset c q) s = .next ((u.waitAt c q x.w (.lifecycle rd)).resetStart (lifeCtx x) (lifeQ x)
      { code := Code.queueBroken, replyTo := some (c, q, rd), destroy := false }).settle) ∧
  (∀ s t c q x f y, Issues s c q 0xCB x t → (t.countIssue c q).ctlFn c = some f →
    let u := t.countIssue c q
    let rd : BitVec 5 := BitVec.ofNat 5 (J.rd x.w)
    u.lifeIn f (lifeCtx x) = some y → ¬ (lifeCtx x = c ∧ lifeQ x = q) → (y.q (lifeQ x)).state ≠ .undefined → (y.q (lifeQ x)).resetting = none →
    exec (.qDestroy c q) s = .next ((u.waitAt c q x.w (.lifecycle rd)).resetStart (lifeCtx x) (lifeQ x)
      { code := Code.queueBroken, replyTo := some (c, q, rd), destroy := true }).settle) ∧
  (∀ s t c q x f y, Issues s c q 0xCA x t → (t.countIssue c q).ctlFn c = some f →
    let u := t.countIssue c q
    u.lifeIn f (lifeCtx x) = some y → ¬ (lifeCtx x = c ∧ lifeQ x = q) → (y.q (lifeQ x)).state = .stalled → (y.q (lifeQ x)).resetting = none →
    let u1 := (u.updQ (lifeCtx x) (lifeQ x) (fun r => { r with state := .active })).result c q x.w 0 none
    exec (.qResume c q) s = .next (if y.slot.isNone && !y.wait then u1.roomTail (lifeCtx x) else u1).settle) ∧
  (∀ s t c q x f y, Issues s c q 0xC2 x t → (t.countIssue c q).ctlFn c = some f →
    let u := t.countIssue c q
    u.lifeIn f (lifeCtx x) = some y → y.pin = false → y.pinWait = false → u.pinned + 1 ≤ u.pinLimit →
    (u.ctxs.filter (fun e => e.2.vdix == y.vdix && (e.2.pin || e.2.pinWait))).length + 1 < (u.vdev y.vdix).grant.slots.toNat →
    y.slot.isSome = true → y.evict = false →
    exec (.ctxPin c q) s = .next ((u.result c q x.w 0 none).updCtx (lifeCtx x) (fun z => { z with pin := true })).settle) ∧
  (∀ s t c q x f y, Issues s c q 0xC3 x t → (t.countIssue c q).ctlFn c = some f →
    (t.countIssue c q).lifeIn f (lifeCtx x) = some y →
    exec (.ctxUnpin c q) s = .next (((t.countIssue c q).updCtx (lifeCtx x) (fun z =>
      { z with pin := false, pinWait := false })).result c q x.w 0 none).settle) ∧
  (∀ s t c q x f y, Issues s c q 0xC4 x t → (t.countIssue c q).ctlFn c = some f →
    let u := t.countIssue c q
    u.ctx? (lifeCtx x) = some y → fnPort y.func = fnPort f → y.defunct = false → y.teardown = .none →
    u.attachBanned (lifeCtx x) = false → x.aVal = y.cookie →
    let u1 := (u.updCtx (lifeCtx x) (fun z => { z with orph := false, orphend := 0, func := f })).result c q x.w 0 none
    let again := (u1.xlt.faults.filter (fun e => e.2.ctx == lifeCtx x && e.2.svc == .host)).map Prod.fst
    exec (.ctxAttach c q) s = .next (forAll again u1 (fun t e => match t.xlt.faults.look e with
      | some p => if p.prgWaits then (t.updPf e (fun z => { z with func := f })).hostFaultStart e false else t
      | none => t)).settle) ∧
  (∀ s t c q x f y, Issues s c q 0xC5 x t → (t.countIssue c q).ctlFn c = some f →
    let u := t.countIssue c q
    let rd : BitVec 5 := BitVec.ofNat 5 (J.rd x.w)
    u.ctx? (lifeCtx x) = some y → y.func = f → y.ctl = false → y.defunct = false → y.teardown = .none →
    let u1 := u.waitAt c q x.w (.lifecycle rd)
    exec (.ctxDestroy c q) s = .next (if (u.vdev y.vdix).grant.multi then u1.abortStart (lifeCtx x) (some (c, q, rd))
      else u1.destroyStart (lifeCtx x) (some (c, q, rd))).settle) ∧
  (∀ s t c q x f y, Issues s c q 0xCC x t → (t.countIssue c q).ctlFn c = some f →
    let u := t.countIssue c q
    let i := firstGap u.xlt.counters 0
    u.lifeIn f (lifeCtx x) = some y → i < 1048576 →
    let k : Counter := { ctx := lifeCtx x, obj := BitVec.ofNat 20 x.aVal.toNat, st := 1, href := 1, dref := 0 }
    exec (.objCount c q) s = .next (({ u with xlt := { u.xlt with counters := u.xlt.counters.put i k } } : State).result
      c q x.w 0 (some (BitVec.ofNat 64 i))).settle) ∧
  (∀ s t c q x k, Issues s c q 0x43 x t →
    let u := t.countIssue c q
    let i := fld x.aVal.toNat 19 0
    let down := (J.md x.w).testBit 0
    u.xlt.counters.look i = some k → fld (u.counterWord i).toNat 63 50 = c.toNat → k.st = 1 →
    (if down then k.dref ≠ 0 else k.dref.toNat ≠ 16383) →
    exec (.refAdd c q) s = .next ((u.result c q x.w (u.counterWord i) none).putRefs i k k.href.toNat
      (if down then k.dref.toNat - 1 else k.dref.toNat + 1)).settle)

/-- Program faults and guards (R155, R176, R200, R206, R210, R212, R235): a branch to a target outside the ring behind TAIL faults with
BAD_TARGET; a division by zero under TRAPDZ sets DZ and faults with DIV_ZERO; a scalar access to an address that is no multiple of
its length faults with MISALIGN; a lifecycle instruction of a context without control, and a REF.ADD on another context's counter,
fault with PRIV; an instruction whose guard fails only passes, HEAD going past its words.
What the rules leave open in it is the model's choice: notes/assumptions/11, 20, 46, 52, 54, 55, 57, 83. -/
def Obligations.ProgramFaults : Prop :=
  ((∀ s t c q x, Issues s c q 0x02 x t →
     2 ^ x.q.lsize < (x.q.tail - (x.q.head + BitVec.ofNat 32 (fld (J.imm2 x.w) 31 0))).toNat →
     exec (.br c q) s =
       .next (({ t.countIssue c q with issued := (t.countIssue c q).issued - 1 } : State).pfault c q Rsn.badTarget).settle) ∧
   (∀ s t c q x, Issues s c q 0x03 x t →
     2 ^ x.q.lsize < (x.q.tail - BitVec.ofNat 32 x.aVal.toNat).toNat →
     exec (.bri c q) s =
       .next (({ t.countIssue c q with issued := (t.countIssue c q).issued - 1 } : State).pfault c q Rsn.badTarget).settle)) ∧
  (∀ s t c q x, Issues s c q 0x27 x t → srcNat (J.wid x.w) x.bVal = 0 → flagBit x.q.flags Fl.trapdz = true →
     let u := (t.countIssue c q).updQ c q (fun r => { r with flags := setFlag r.flags Fl.dz true })
     exec (.div c q) s = .next (({ u with issued := u.issued - 1 } : State).pfault c q Rsn.divZero).settle) ∧
  ((∀ s t c q x, Issues s c q 0x40 x t → x.aTokenFault c = none → x.aDva.toNat % (J.wid x.w / 8) ≠ 0 →
     exec (.load c q) s =
       .next (({ t.countIssue c q with issued := (t.countIssue c q).issued - 1 } : State).pfault c q Rsn.misalign).settle) ∧
   (∀ s t c q x, Issues s c q 0x63 x t → x.aTokenFault c = none → x.aDva.toNat % 8 ≠ 0 →
     exec (.waitMem c q) s =
       .next (({ t.countIssue c q with issued := (t.countIssue c q).issued - 1 } : State).pfault c q Rsn.misalign).settle)) ∧
  ((∀ s t c q x, Issues s c q 0xC0 x t → (t.countIssue c q).ctlFn c = none →
     exec (.ctxCreate c q) s =
       .next (({ t.countIssue c q with issued := (t.countIssue c q).issued - 1 } : State).pfault c q Rsn.priv).settle) ∧
   (∀ s t c q x, Issues s c q 0xC5 x t → (t.countIssue c q).ctlFn c = none →
     exec (.ctxDestroy c q) s =
       .next (({ t.countIssue c q with issued := (t.countIssue c q).issued - 1 } : State).pfault c q Rsn.priv).settle) ∧
   (∀ s t c q x, Issues s c q 0x43 x t →
     fld ((t.countIssue c q).counterWord (fld x.aVal.toNat 19 0)).toNat 63 50 ≠ c.toNat →
     exec (.refAdd c q) s =
       .next (({ t.countIssue c q with issued := (t.countIssue c q).issued - 1 } : State).pfault c q Rsn.priv).settle)) ∧
  ((∀ s t c q x, GuardedOff s c q 0x20 x t → exec (.add c q) s = .next ((t.countIssue c q).advance c q x.w).settle) ∧
   (∀ s t c q x, GuardedOff s c q 0x40 x t → exec (.load c q) s = .next ((t.countIssue c q).advance c q x.w).settle) ∧
   (∀ s t c q x, GuardedOff s c q 0x41 x t → exec (.store c q) s = .next ((t.countIssue c q).advance c q x.w).settle) ∧
   (∀ s t c q x, GuardedOff s c q 0x61 x t → exec (.signal c q) s = .next ((t.countIssue c q).advance c q x.w).settle) ∧
   (∀ s t c q x, GuardedOff s c q 0xC5 x t → exec (.ctxDestroy c q) s = .next ((t.countIssue c q).advance c q x.w).settle))

/-! ## Translation, ATS, PRI and fault service (ch. 03, 04) -/

/-- Lookups, walks and invalidations (R80 to R92, R97 to R103): a lookup that hits takes the translation, one that misses takes a
walker; a walker's request takes the walk's outcome and the walker the next request; a walk that finds a MAPPED page sets ACC and
DIRTY, fills the caches and launches the access; the epoch scrubber advances; an invalidation purges, and completes once its accesses
have drained.
What the rules leave open in it is the model's choice: notes/assumptions/24, 25, 26, 29. -/
def Obligations.TranslationCommands : Prop :=
  (∀ (s : State) (id : Nat) (r : Req) (x : CacheEntry), s.req? id = some r → r.phase = .lookup → s.runs Blk.xlt = true →
    (r.s2only = none → r.addr.toNat < 2 ^ 57) → r.cluster = none →
    s.cacheHit none r.s2only.isSome r.ctx (r.s2only.getD (s.ctxVdix r.ctx)) r.addr.toNat = some x → x.t.allows r = true →
    (r.wr = false ∨ x.t.dirty = true) →
    exec (.xlateLookup id) s = .next ((s.cacheTouch x.l1 x.set x.way).launch id x.t).settle) ∧
  (∀ (s : State) (id : Nat) (r : Req) (w : Nat), s.req? id = some r → r.phase = .lookup → s.runs Blk.xlt = true →
    (r.s2only = none → r.addr.toNat < 2 ^ 57) → r.cluster = none →
    s.cacheHit none r.s2only.isSome r.ctx (r.s2only.getD (s.ctxVdix r.ctx)) r.addr.toNat = none →
    (∀ o ∈ s.reqs, sameWalk o r = true → ∀ k, o.phase ≠ .walker k) → s.walksFull r = false → s.xlt.walkQ = [] → s.pickWalker r.homeRegion = some w →
    exec (.xlateLookup id) s = .next (s.updReq id (fun y => { y with phase := .walker w })).settle) ∧
  (∀ (s : State) (w : BitVec 7) (r : Req) (l1 : Option (Nat × PTE)) (k2 : Nat) (e2 : PTE) (ca : Nat) (v : Vdix),
    s.reqs.find? (fun o => o.phase == .walker w.toNat) = some r → s.req? r.id = some r →
    s.regionFrozen (walkerRegion w.toNat) = false → s.joinedTo r.id = [] →
    (s.walkOf (walkerRegion w.toNat) r).1 = .leaves l1 k2 e2 ca v → r.permitted (l1.map Prod.snd) e2 = true →
    Pte.ts e2 = Ts.mapped →
    let u := (s.walkOf (walkerRegion w.toNat) r).2.markLeaves l1 k2 e2 r.wr
    let tr := transOf r (l1.map (fun p => u.pte p.1)) (u.pte k2) ca v (u.epochsOf r.s2only.isSome r.ctx v)
    exec (.walk w) s = .next (((u.fillFor r.cluster tr).launch r.id tr).walkNext w.toNat).settle) ∧
  (∀ (s : State) (w : BitVec 7), s.reqs.find? (fun o => o.phase == .walker w.toNat) = none → s.walkerBusy w.toNat = false →
    exec (.walk w) s = .next (s.walkNext w.toNat).settle) ∧
  (∀ (s : State) (id : Nat) (r : Req) (t : Trans) (w : Nat) (reason : Byte) (a : Nat), s.req? id = some r →
    r.phase = .dirty w → r.tr = some t → (s.walkOf (walkerRegion w) r).1 = .fail reason a →
    let u : State := { s with xlt := { s.xlt with cache := s.xlt.cache.map (fun e =>
      if e.t = t then { e with t := { e.t with dirty := true } } else e) } }
    exec (.dirtyUpdate id) s = .next ((u.launch id { t with dirty := true }).walkNext w).settle) ∧
  (∀ (s : State) (id : Nat) (r : Req) (t : Trans) (w : Nat) (l1 : Option (Nat × PTE)) (k2 : Nat) (e2 : PTE) (ca : Nat) (v : Vdix),
    s.req? id = some r → r.phase = .dirty w → r.tr = some t →
    (s.walkOf (walkerRegion w) r).1 = .leaves l1 k2 e2 ca v → Pte.ts e2 = Ts.mapped → Pte.cls e2 = t.cls →
    Pte.index e2 = t.idx → Pte.offpn e2 * 4096 + ca % 2 ^ Pte.lsize e2 = t.off + r.addr.toNat % 2 ^ t.lsize →
    let m := (s.walkOf (walkerRegion w) r).2.markLeaves l1 k2 e2 true
    let u : State := { m with xlt := { m.xlt with cache := m.xlt.cache.map (fun e =>
      if e.t = t then { e with t := { e.t with dirty := true } } else e) } }
    exec (.dirtyUpdate id) s = .next ((u.launch id { t with dirty := true }).walkNext w).settle) ∧
  (∀ (s : State) (n : Nat),
    exec (.l2EpochScrub n) s = .next ({ s with xlt := { s.xlt with
      cache := s.xlt.cache.filter (fun e => e.l1.isSome || !decide ((e.set + l2Sets - s.xlt.scrubPos) % l2Sets < n) || s.freshT e.t)
      scrubPos := (s.xlt.scrubPos + n) % l2Sets
      retired := (s.xlt.retired.map (fun r => { r with left := r.left - n })).filter (fun r => decide (0 < r.left)) } } :
      State).settle) ∧
  (∀ (s : State) (i : Nat) (x : Inv), s.xlt.invs.find? (fun j => j.id == i) = some x → x.purged = false →
    (s.invEpoch x = false ∨ s.epochUsable x.epochScope = true) →
    exec (.invPurgeDone i) s = .next (s.invPurge x).settle) ∧
  (∀ (s : State) (i : Nat) (x : Inv), s.xlt.invs.find? (fun j => j.id == i) = some x → s.invDrained x = true →
    x.places = [] → x.after = .nothing → x.src ≠ .regs →
    exec (.invComplete i) s = .next (({ s with xlt := { s.xlt with
      invs := s.xlt.invs.filter (fun j => j.id != i)
      placeWait := s.xlt.placeWait.filter (fun _ => true)
      unlinks := s.xlt.unlinks.map (fun u => if x.frames.contains u.frame then { u with invDone := true } else u) } } :
      State).invRefill).settle) ∧
  (∀ (s : State) (d : Nat) (x : Desc) (c : CtxId) (q : QIdx) (seq : Word) (ch : Nat × Nat) (b : DWord) (l1 : Nat × PTE) (k2 : Nat)
      (e2 : PTE) (ca : Nat) (v : Vdix),
    s.desc? d = some x → x.owner = .queue c q seq → x.chan = some ch → x.src = .dva b →
    let at_ := x.streamAt false
    let l := min (Pte.lsize l1.2) (Pte.lsize e2)
    let next := pageBase at_.1 l + 2 ^ l
    s.peekWalk c at_.1 = .leaves (some l1) k2 e2 ca v → s.ce .xltCtrl 3 3 = 1 → 3 * 2 ^ l ≤ 4 * (at_.1 % 2 ^ l) →
    next < at_.1 + at_.2 → next < 2 ^ 57 → s.runs Blk.xlt = true → s.cacheHit none false c (s.ctxVdix c) next = none →
    exec (.nextPageWalk d false) s = .next (s.prefetch
      { id := 0, who := chanWho ch, cluster := s.clusterOf c, ctx := c, queue := some q, seq := seq
        addr := BitVec.ofNat 64 next, len := 1, rd := true, wr := false, purpose := .descRead d }
      ((s.slotOf c).map slotRegion |>.getD 0)).settle)

/-- ATS and PRI (R109 to R114, R136 to R142): a grant of the access fills L0 and sends the request on; a denied one becomes a host
fault; an Invalidate Request removes the entries that it meets, and its completion leaves once their reads have ended; what is not
supported is answered so and recorded; ATS, PASID and PRI enables take their values; a Page Request's response ends its wait; a
host's time runs out; a consumer index is read again; a zero-fill completes.
What the rules leave open in it is the model's choice: notes/assumptions/9, 17, 27, 36, 37, 38, 100, 108. -/
def Obligations.HostTranslationCommands : Prop :=
  (∀ (s : State) (id : Nat) (r : Req) (t : Trans) (f : FnId) (pa : DWord) (l : BitVec 6) (rd wr : Bool), s.req? id = some r →
    s.reqFn r = some f → r.phase = .ats → r.tr = some t → 12 ≤ l.toNat → (r.wr = true → wr = true) → (r.rd = true → rd = true) →
    exec (.atsCompletion id (.granted pa l rd wr)) s =
      .next ((s.l0Fill f (BitVec.ofNat 20 (fld t.idx.toNat 19 0)) (r.targetOff t) pa l.toNat rd wr).transmit id).settle) ∧
  (∀ (s : State) (id : Nat) (r : Req) (t : Trans) (f : FnId), s.req? id = some r →
    s.reqFn r = some f → r.phase = .ats → r.tr = some t →
    exec (.atsCompletion id .denied) s = .next (s.hostPageFault id r t f).settle) ∧
  (∀ (s : State) (f : FnId) (pasid : BitVec 20) (a : DWord) (lsize : BitVec 6) (glob : Bool) (itag : BitVec 5),
    s.atsInvCount f < 32 → s.reqs = [] →
    let meets (e : L0Entry) : Bool := e.func == f && (glob || e.pasid == pasid) &&
      decide (pageBase a.toNat lsize.toNat < e.page * 4096 + 2 ^ e.lsize ∧
        e.page * 4096 < pageBase a.toNat lsize.toNat + 2 ^ lsize.toNat)
    exec (.atsInvalidateRequest f pasid a lsize glob itag) s = .next ({ s with xlt := { s.xlt with
      l0 := s.xlt.l0.filter (fun e => !meets e), atsInv := s.xlt.atsInv ++ [(f, itag, [])] } } : State).settle) ∧
  (∀ (s : State) (f : FnId) (itag : BitVec 5) (ids : List Nat),
    s.xlt.atsInv.find? (fun e => e.1 == f && e.2.1 == itag) = some (f, itag, ids) →
    ids.any (fun id => (s.req? id).isSome) = false → s.hostRoom f 1 = true →
    exec (.atsInvalidationCompletion f itag) s = .next (({ s with xlt := { s.xlt with
      atsInv := s.xlt.atsInv.filter (fun x => !(x.1 == f && x.2.1 == itag)) } } : State).hostPush f (.atsInvDone f itag)).settle) ∧
  (∀ (s : State) (f : FnId) (a : DWord), (s.link (s.fnLink f)).dlup = true → (s.link (s.fnLink f)).frozen = false →
    exec (.inboundAtsOrTranslated f a) s = .next ((s.emit (.unsupported f)).raise
      { src := Src.hpxUrIn (s.fnLink f), who := .host f, addr := a, acc := .message, akind := .host }).settle) ∧
  (∀ (s : State) (f : FnId), (s.fn f).ats = false →
    let u := s.updFn f (fun x => { x with ats := true })
    exec (.atsEnableChange f true) s =
      .next ({ u with xlt := { u.xlt with l0 := u.xlt.l0.filter (fun e => e.func != f) } } : State).settle) ∧
  (∀ (s : State) (f : FnId), (s.fn f).ats = true →
    let u := s.updFn f (fun x => { x with ats := false })
    exec (.atsEnableChange f false) s =
      .next (((({ u with xlt := { u.xlt with l0 := u.xlt.l0.filter (fun e => e.func != f) } } : State).pfHostEnd
        (fun p => p.func == f) Code.hostPathFailed 0)).atsRetry f).settle) ∧
  (∀ (s : State) (f : FnId) (on : Bool), s.isPf f = true → (s.fn f).pasid ≠ on →
    let u := s.updFn f (fun x => { x with pasid := on })
    exec (.pasidEnableChange f on) s = .next ({ u with xlt := { u.xlt with
      l0 := u.xlt.l0.filter (fun e => s.fnLink e.func != s.fnLink f) } } : State).settle) ∧
  (∀ (s : State) (f : FnId) (idx : BitVec 9) (e : Nat) (p : PFault), (s.link (s.fnLink f)).frozen = false →
    s.xlt.faults.find? (fun e => e.2.func == f && e.2.prgSent && e.2.prgIdx == some idx) = some (e, p) →
    let u := s.updPf e (fun x => { x with prgSent := false, prgIdx := none })
    let w := (u.updPf e (fun x => { x with atsWait := true })).emit (.atsReq f
      (BitVec.ofNat 20 (fld (Pte.index p.leaf).toNat 19 0)) (p.hostPage.getD (Pte.offpn p.leaf)) ((p.waiters.head?).getD 0))
    exec (.prgResponse f idx .success) s = .next ((w.prgNext f 512).prgStopCheck f).settle) ∧
  (∀ (s : State) (e : BitVec 12) (p : PFault), s.xlt.faults.look e.toNat = some p → p.svc = .host →
    s.rf .xltFltCtrl 23 8 ≠ 0 → s.rf .xltFltCtrl 23 8 * 1000000 ≤ s.since p.start →
    exec (.hostFaultTimeout e) s = .next (s.pfFail e.toNat Code.hostPathFailed Rsn.hostTimeout).settle) ∧
  (∀ (s : State) (f : FnId), (s.fn f).pri = true →
    exec (.priEnableClear f) s = .next (((s.updFn f (fun x => { x with pri := false })).pfHostEnd (fun p => p.func == f)
      Code.hostPathFailed 0).prgStopCheck f).settle) ∧
  (∀ (s : State) (c : CtxId) (n : Word),
    exec (.queueConsumerPoll (.hostCq c) n) s = .next ((s.updCtx c (fun x => { x with cqCons := n })).cqDrain c 65536).settle) ∧
  (∀ (s : State) (c : CtxId) (n : Word),
    exec (.queueConsumerPoll (.devCq c) n) s = .next ((s.updCtx c (fun x => { x with dcqCons := n })).cqDrain c 65536).settle) ∧
  (∀ (s : State) (f : FnId) (n : Word), exec (.queueConsumerPoll (.fault f) n) s = .next (s.fqDrain f 65536).settle) ∧
  (∀ (s : State) (e : BitVec 12) (p : PFault) (off : Nat) (u : State), s.xlt.faults.look e.toNat = some p → p.svc = .zero →
    s.takePlace (Pte.lsize p.leaf) (Pte.pin p.leaf) = some (off, u) →
    exec (.zeroFillComplete e) s = .next ((u.tierZero off (Pte.lsize p.leaf) (Pte.owner p.leaf)).fillEnd e.toNat p off
      { vdix := p.vdix, ca := p.ca, lsize := Pte.lsize p.leaf, flash := none, lp := false, dirty := true, ref := true
        owner := Pte.owner p.leaf }).settle)

/-- The ends of accesses (R27, R31, R38, R62, R235 to R237, R329, R334, R337, R463): an accepted write reaches the memory behind its
translation; a read returns its data to whoever asked, and an atomic writes at its ordering point; a write to HBM or tile memory is
done; a failure breaks its queue; a compute engine's access becomes requests within 4 KiB ranges.
What the rules leave open in it is the model's choice: notes/assumptions/2, 7, 13, 14, 75, 76, 77, 78, 115. -/
def Obligations.AccessesEnd : Prop :=
  (∀ (s : State) (id : Nat) (ecc : Ecc) (r : Req) (t : Trans), s.req? id = some r → r.tr = some t → r.phase = .sent →
    r.wr = true → r.rd = false → r.targetOff t + r.len ≤ classSize t.cls → s.refused r t = false → s.canAccept r t = true →
    exec (.writeAccept id ecc) s = .next (s.acceptWrite r t ecc).settle) ∧
  (∀ (s : State) (id : Nat) (r : Req) (t : Trans), s.req? id = some r → r.tr = some t → r.phase = .accepted → t.cls ≠ 7 →
    (∀ k seq a b, r.purpose ≠ .remoteWrite k seq a b) →
    exec (.writeDone id) s = .next ((s.delReq id).reqEnded r).settle) ∧
  (∀ (s : State) (id : Nat) (r : Req) (t : Trans) (k : FlowKey) (seq : Word) (a : List Byte) (b : Bool), s.req? id = some r →
    r.tr = some t → r.phase = .accepted → t.cls ≠ 7 → r.purpose = .remoteWrite k seq a b →
    exec (.writeDone id) s = .next (((s.delReq id).reqEnded r).emit (.relay 5 k k.pkg seq 0 [] false)).settle) ∧
  (∀ (s : State) (id : Nat) (ecc : Ecc) (r : Req) (t : Trans), s.req? id = some r → r.tr = some t → r.phase = .sent →
    r.rd = true → t.cls = 1 → r.targetOff t + r.len ≤ classSize t.cls → (r.wr = false ∨ s.canAccept r t = true) →
    (linesOf (stagingBase + r.targetOff t) r.len).any s.lineOut = false →
    let u := s.eccLine (stagingBase + r.targetOff t) ecc r.who
    let g := u.smsRead (stagingBase + r.targetOff t) r.len (some t.owner) r.who
    exec (.readDataReturn id (.die ecc)) s =
      .next (g.2.2.finishRead r t g.1 (u.smsPoison (stagingBase + r.targetOff t) r.len)).settle) ∧
  (∀ (s : State) (id : Nat) (r : Req) (t : Trans), s.req? id = some r → r.tr = some t → r.phase = .sent →
    r.rd = true → r.wr = false → t.cls = 3 → r.targetOff t + r.len ≤ classSize t.cls →
    let g := s.hbmRead t.idx (r.targetOff t) t.owner t.lp r.len
    exec (.hbmReadResponse id .ok) s = .next (g.2.finishRead r t g.1 (List.replicate r.len false)).settle) ∧
  (∀ (s : State) (id : Nat) (r : Req) (t : Trans), s.req? id = some r → r.tr = some t → r.phase = .sent → r.wr = true →
    r.rd = false → t.cls = 9 →
    exec (.writeFailReport id .roceNak) s = .next (((s.failReq id Code.remoteNack Rsn.remoteWrite).reqEnded r).raise
      (r.praFault t Src.roceFail Rsn.remoteWrite Code.remoteNack)).settle) ∧
  (∀ (s : State) (id : Nat) (r : Req) (t : Trans), s.req? id = some r → r.tr = some t → r.phase = .sent → r.wr = true →
    r.rd = false → t.cls = 7 →
    exec (.writeFailReport id .remoteXlate) s = .next (((((s.unackDrop id).failReq id Code.remoteNack Rsn.remoteXlate).reqEnded
      r).raise (r.praFault t Src.ofpWriteFail Rsn.remoteXlate Code.remoteNack))).settle) ∧
  (∀ (s : State) (die : BitVec 3) (tile : BitVec 5) (c : CtxId) (a : DWord) (x : CeAccess) (y : Ctx), s.runs Blk.ddl = true →
    s.dieUp die.toNat = true → s.ctx? c = some y → (s.vdev y.vdix).hasTile die tile = true →
    exec (.computeEngineRequest die tile c a x) s = .next (forAll (cePieces 64 a x) s (fun t p =>
      ({ t with nextId := t.nextId + 1 } : State).addReq (ceReq t.nextId die c p.1 p.2 s.now))).settle)

/-! ## The tensor movers and the pacer (ch. 10, 11) -/

/-- A mover's steps (R322 to R327, R342): a pulse on a pacing line adds one credit, and at 4,095 credits PACE_OVERRUN is recorded; the
first waiting descriptor that a channel can take is placed; a descriptor whose writes have all been accepted ends, and a MOVE with B
= 1 that waits for it retires. A heat's end (R354, R356, R363): a grid that has an origin and no heat begins heat 0 there; at its
planned end a heat ends, and where items due in it have not written their SIGNAL it is stretched; a stretch ends when they have, and
at the latest after L/4.
What the rules leave open in it is the model's choice: notes/assumptions/9, 17, 59, 82, 85. -/
def Obligations.MoverAndHeat : Prop :=
  ((∀ (s : State) (n : BitVec 6), s.rpc.islands.contains 90 = true → s.paceCredits n.toNat < 4095 →
     exec (.pacePulse n) s = .next (({ s with map := { s.map with
       credits := s.map.credits.put n.toNat (s.paceCredits n.toNat + 1) } } : State).paceServe n.toNat 32).settle) ∧
   (∀ (s : State) (n : BitVec 6), s.rpc.islands.contains 90 = true → 4095 ≤ s.paceCredits n.toNat →
     exec (.pacePulse n) s = .next (s.raise { src := Src.paceOverrun }).settle) ∧
   (∀ (s : State) (d : Desc) (rest : List Nat) (ch : Nat × Nat), s.chanOrder = d.id :: rest → s.desc? d.id = some d →
     s.chooseChan d = some ch → exec .channelWaitPlace s = .next ((s.descAccepted d).placeDesc d.id ch).settle) ∧
   (∀ (s : State) (k : Nat) (d : Desc) (c : CtxId) (q : QIdx) (seq : Word), s.desc? k = some d →
     d.owner = .queue c q seq → d.pos = d.len → d.writing = false → d.status = none →
     ((s.delDesc k).queue c q).wait = some (.moveB k) →
     exec (.descriptorComplete k) s = .next ((s.delDesc k).retireWait c q 0 0).settle) ∧
   (∀ (s : State) (k : Nat) (d : Desc) (r : BitVec 4) (slot : Nat), s.desc? k = some d →
     d.owner = .ring r slot → d.finished = true →
     exec (.descriptorComplete k) s = .next ((((s.delDesc k).ringEnd r.toNat slot d.tag d.doneCount d.failed d.poisoned
       d.irq)).ringRun r.toNat 8).settle)) ∧
  ((∀ (s : State), s.pcr.running = false → s.runs Blk.pcr = true → s.reached s.pcr.origin = true →
     exec .heatPlannedEnd s = .next (s.beginHeat 0 s.pcr.origin 0).settle) ∧
   (∀ (s : State), s.pcr.running = true → s.pcr.stretch = false → s.reached s.heatEnd = true → s.dueLeft = true →
     exec .heatPlannedEnd s = .next ({ s with pcr := { s.pcr with stretch := true } } : State).settle) ∧
   (∀ (s : State), s.pcr.running = true → s.pcr.stretch = false → s.reached s.heatEnd = true → s.dueLeft = false →
     exec .heatPlannedEnd s = .next (s.endHeat s.heatEnd).settle) ∧
   (∀ (s : State), s.pcr.running = true → s.pcr.stretch = true →
     s.reached (s.heatEnd + BitVec.ofNat 64 (s.heatL / 4)) = true →
     exec .heatStretchLimit s = .next (s.endHeat (s.heatEnd + BitVec.ofNat 64 (s.heatL / 4))).settle) ∧
   (∀ (s : State), s.pcr.running = true → s.pcr.stretch = true →
     s.reached (s.heatEnd + BitVec.ofNat 64 (s.heatL / 4)) = false → s.dueLeft = true →
     exec .heatStretchLimit s = .next s.settle))

/-! ## The flash tier (ch. 12) -/

/-- Fills, reads and evictions (R78, R127, R131, R133, R382, R388): a fill takes a place in the tier cache and reads its units; a unit
that decodes is taken over; one that fails its last step is lost and fails the fill with FLASH_UNRECOVERABLE; a unit of another owner
fails it; the eviction of a page makes its leaf BUSY and invalidates it.
What the rules leave open in it is the model's choice: notes/assumptions/2, 17, 33, 35, 38, 82, 90, 92, 94, 97. -/
def Obligations.FlashReads : Prop :=
  (∀ (s : State) (e : Nat) (p : PFault) (off : Nat) (s1 : State), s.runs Blk.ftc = true → s.fillsActive < 64 →
    s.fillNext = some e → s.xlt.faults.look e = some p → s.flashLost p.flashAt (Pte.lsize p.leaf) = false →
    s.takePlace (Pte.lsize p.leaf) (Pte.pin p.leaf) = some (off, s1) → s.segMissing p.seg = false →
    let s2 := s1.updPf e (fun x => { x with active := true, place := some off, mapWait := false, units := 0, ladder := 0, buf := [] })
    exec .flashFillStart s = .next ((({ s2 with xlt := { s2.xlt with
      fillWait := s2.xlt.fillWait.filter (fun k => decide (k ≠ e)) } } : State).segTouch p.seg).flashAdvance e flashSteps).flashAfter.settle) ∧
  (∀ (s : State) (e : Nat) (p : PFault), s.runs Blk.ftc = true → s.fillsActive < 64 →
    s.fillNext = some e → s.xlt.faults.look e = some p → s.flashLost p.flashAt (Pte.lsize p.leaf) = true →
    exec .flashFillStart s = .next (s.pfFail e Code.flashUnrecoverable 0).flashAfter.settle) ∧
  (∀ (s : State) (g : Nat), s.ftc.segReads.contains g = true →
    let s1 : State := { s with ftc := { s.ftc with segReads := dropFrom s.ftc.segReads g } }
    let es := (s.xlt.faults.filter (fun e => e.2.svc == .flash && e.2.active && e.2.mapWait && e.2.seg == g)).map Prod.fst
    exec (.mapSegmentReadDone g) s = .next (forAll es (s1.segTouch g) (fun t e =>
      (t.updPf e (fun x => { x with mapWait := false })).flashAdvance e flashSteps)).flashAfter.settle) ∧
  (∀ (s : State) (e : BitVec 12) (p : PFault) (b i : Nat) (u : Sys2Proof.Machine.Unit), s.xlt.faults.look e.toNat = some p → s.readLoc p = some (b, i) →
    s.ftc.units.look p.curUnit = some u → u.owner = Pte.owner p.leaf → u.gen = s.genOf (Pte.owner p.leaf) → u.lp = Pte.lp p.leaf →
    let s1 := s.updBlock b (fun x => { x with reads := x.reads + 1 })
    exec (.flashUnitReadDone e .decoded) s = .next (((s1.unitDecoded b (s.ladderAt b p.ladder)).updPf e.toNat (fun x =>
      { x with units := x.units + 1, ladder := 0, buf := x.buf ++ u.data })).flashAdvance e.toNat flashSteps).flashAfter.settle) ∧
  (∀ (s : State) (e : BitVec 12) (p : PFault) (b i : Nat) (u : Sys2Proof.Machine.Unit), s.xlt.faults.look e.toNat = some p → s.readLoc p = some (b, i) →
    s.ftc.units.look p.curUnit = some u → u.owner = Pte.owner p.leaf → u.gen = s.genOf (Pte.owner p.leaf) →
    7 ≤ s.ladderAt b p.ladder →
    exec (.flashUnitReadDone e .failed) s = .next ((((s.updBlock b (fun x => { x with reads := x.reads + 1 })).unitLost p.curUnit
      b i).flashFail e.toNat p Code.flashUnrecoverable 0)).flashAfter.settle) ∧
  (∀ (s : State) (e : BitVec 12) (r : UnitRead) (p : PFault) (b i : Nat) (u : Sys2Proof.Machine.Unit), s.xlt.faults.look e.toNat = some p →
    s.readLoc p = some (b, i) → s.ftc.units.look p.curUnit = some u → u.owner ≠ Pte.owner p.leaf →
    exec (.flashUnitReadDone e r) s = .next ((s.updBlock b (fun x => { x with reads := x.reads + 1 })).flashFail e.toNat p
      Code.xlateUnresolved Rsn.flashOwner).flashAfter.settle) ∧
  (∀ (s s1 : State) (off k e : Nat) (d : DirEntry) (leaf : PTE),
    s.xlt.faults.find? (fun e => e.2.svc == .evict && e.2.mapWait && (!s.ftc.wrstop && s.runs Blk.ftc) &&
      (s.findRange e.2.vdix (Pte.lsize e.2.leaf)).isSome) = none →
    s.runs Blk.xlt = true → s.tierFree < s.rf .xltTierReserve 11 0 → s.clockPick = (some (off, d), s1) →
    s1.s2leaf d.vdix d.ca = some (k, leaf) → s1.freeFault = some e →
    let u := s1.putPte k (Pte.setTs leaf Ts.busy)
    let p : PFault := { vdix := d.vdix, ca := d.ca, key := k, leaf := leaf, svc := .evict, start := s1.now, place := some off
                        active := true, ctx := d.owner }
    exec .tierEvictStart s = .next (({ u with xlt := { u.xlt with
      faults := u.xlt.faults.put e p, clock := off + 1 } } : State).invInternal .s2page d.vdix.toNat (BitVec.ofNat 64 d.ca)
      (.evict e)).settle)

/-- Programs, erases, patrol and mount (R372 to R374, R383 to R386, R391 to R396): a program that passes puts its unit in its place,
one that fails makes its block GROWN_BAD and is placed again; a stripe without a write for 1 ms is padded and closed; an erase that
passes leaves the block clean with one erase more, WORN at its endurance; a suspension ends after 2 ms; a SUSPECT block that is empty
is GOOD or GROWN_BAD by its test; three failing blocks within 1 s fail their target, whose units are rebuilt; calibration and
checkpoint take place at their times; a mount happens once, while I93 is powered.
What the rules leave open in it is the model's choice: notes/assumptions/9, 90, 93, 95, 96, 99, 155. -/
def Obligations.FlashUpkeep : Prop :=
  (∀ (s : State) (id b i o j : Nat) (p : Program), s.ftc.programs.find? (fun x => x.id == id) = some p → p.at_ = some (b, i) →
    s.blockHeld b = false → p.why = .move o j → s.programLive p = true →
    let rest := s.ftc.programs.filter (fun x => decide (x.id ≠ id))
    let idle := !rest.any (fun x => (x.at_.map Prod.fst) == some b)
    let s0 := s.updBlock b (fun x => { x with work := if idle ∧ x.work = BWork.programming then .idle else x.work })
    let u : State := { s0 with ftc := { s0.ftc with programs := rest } }
    (∀ a, (((u.unitPut p).emptyBlock o).pageWritten (.move o j)) = a →
      exec (.flashProgramDone id .pass) s = .next (a.collect (blockLun b)).flashAfter.settle)) ∧
  (∀ (s : State) (id b i : Nat) (p : Program), s.ftc.programs.find? (fun x => x.id == id) = some p → p.at_ = some (b, i) →
    s.blockHeld b = false →
    let rest := s.ftc.programs.filter (fun x => decide (x.id ≠ id))
    let idle := !rest.any (fun x => (x.at_.map Prod.fst) == some b)
    let s0 := s.updBlock b (fun x => { x with work := if idle ∧ x.work = BWork.programming then .idle else x.work })
    exec (.flashProgramDone id .fail) s = .next (((((s0.clearPage b i).updProgram id (fun x => { x with at_ := none })).statusFail
      b Src.ftcProgFail)).placePrograms).flashAfter.settle) ∧
  (∀ (s : State), s.ftc.stripeFill ≠ [] → 1000000 ≤ s.since s.ftc.lastWrite →
    let pad (t : State) (i : Nat) : State := match (t.dataChan i).bind t.writeBlock with
      | some b => t.takePage b none
      | none => t
    exec .stripeCloseTimeout s = .next ((forAll (rangeFrom s.ftc.stripeFill.length (stripeUnits - s.ftc.stripeFill.length)) s
      pad).closeStripe).settle) ∧
  (∀ (s : State) (b : Nat), s.ftc.mounted = true → s.blockExists b = true → (s.block b).dirty = true → (s.block b).st = .good →
    s.blockHeld b = false → ((s.block b).erases + 1) % 16 ≠ 0 → (s.block b).erases + 1 < s.ftcGeom.endurance →
    let u := s.updBlock b (fun y => { y with dirty := false, pages := [], reads := 0, erases := (s.block b).erases + 1, work := .idle
                                             susp := false, suspAt := 0 })
    exec (.flashEraseDone b .pass) s = .next (((({ u with ftc := { u.ftc with erasing := u.ftc.erasing && !u.mountErased } } :
      State).levelWear (blockChan b)).collect (blockLun b)).placePrograms).flashAfter.settle) ∧
  (∀ (s : State) (b : Nat), s.ftc.mounted = true → s.blockExists b = true → (s.block b).dirty = true → (s.block b).st = .good →
    s.blockHeld b = false →
    exec (.flashEraseDone b .fail) s = .next ((s.updBlock b (fun y => { y with work := .idle })).statusFail b
      Src.ftcEraseFail).flashAfter.settle) ∧
  (∀ (s : State) (b : Nat), (s.block b).susp = true → 2000000 ≤ s.since (s.block b).suspAt →
    exec (.flashSuspendLimit b) s = .next (s.updBlock b (fun y => { y with susp := false, suspAt := s.now })).settle) ∧
  (∀ (s : State) (b : Nat) (step : BitVec 3), s.runs Blk.ftc = true → s.ftc.mounted = true → s.patrolSet.contains b = true →
    (s.block b).st = .zone → step.toNat < 5 →
    let u : State := { s with ftc := { s.ftc with patrolled := addTo s.ftc.patrolled b } }
    exec (.flashPatrolCheck b step true) s =
      .next ((u.updBlock b (fun y => { y with reads := y.reads + 3 })).patrolClock).flashAfter.settle) ∧
  (∀ (s : State) (b : Nat), s.runs Blk.ftc = true → s.ftc.mounted = true → (s.block b).st = .suspect →
    s.validUnits b = [] → exec (.flashBlockTest b .fail) s = .next (s.setBState b .grownBad).settle) ∧
  (∀ (s : State) (b : Nat), s.runs Blk.ftc = true → s.ftc.mounted = true → (s.block b).st = .suspect → s.validUnits b = [] →
    exec (.flashBlockTest b .pass) s = .next ((s.updBlock b (fun y => { y with
      erases := y.erases + 1, dirty := true, pages := [], work := .erasing, moving := false })).setBState b .good).settle) ∧
  (∀ (s : State) (chan : BitVec 5) (tgt : BitVec 3) (x : Target), let n := chan.toNat * 8 + tgt.toNat
    s.ftc.targets.look n = some x → x.st = .active →
    let u := ({ s with ftc := { s.ftc with targets := s.ftc.targets.put n { x with st := .failed } } } : State).raise
      { src := Src.ftcTargetFail, synd := BitVec.ofNat 160 n }
    let move (w : State) (b : Nat) : State := (({ w with ftc := { w.ftc with
      cntRebuild := sat32 (w.ftc.cntRebuild.toNat + (w.validUnits b).length) } } : State).moveBlock b)
    exec (.flashTargetFail chan tgt) s =
      .next ((forAll ((u.ftc.blocks.filter (fun e => blockTgt e.1 == n)).map Prod.fst) u move).flashAfter).settle) ∧
  (∀ (s : State), s.ftc.mounted = true → 100000000 ≤ s.since s.ftc.zqAt →
    exec .zqCalShort s = .next ({ s with ftc := { s.ftc with zqAt := s.now } } : State).settle) ∧
  (∀ (s : State), s.ftc.mounted = true → 600000000000 ≤ s.since s.ftc.chkAt →
    let er := s.ftc.blocks.foldl (fun m e => m.put e.1 e.2.erases) s.ftc.zone.erases
    let bad := s.ftc.blocks.foldl (fun m e => if e.2.st = .good then m.del e.1 else m.put e.1 e.2.st) s.ftc.zone.badBlocks
    exec .blockTableCheckpoint s = .next (({ s with ftc := { s.ftc with
      zone := { s.ftc.zone with erases := er, badBlocks := bad }, chkAt := s.now } } : State).patrolClock).settle) ∧
  (∀ (s : State) (ts : List TargetInfo), s.ftc.mounted = true → exec (.flashMount ts) s = .next s.settle) ∧
  (∀ (s : State) (ts : List TargetInfo), s.ftc.mounted = false → s.runs Blk.ftc = true → s.rpc.inReset = false →
    s.islandOn 93 = true → ∃ t : State, exec (.flashMount ts) s = .next t.settle ∧ t.ftc.targets = mountTargets ts ∧
      t.ftc.chrate = mountRates (mountTargets ts) (s.ce .ftcCtrl 2 0) ∧ t.ftc.mounted = true ∧ t.ftc.zqAt = s.now)

/-! ## Aggregation (ch. 09) -/

/-- AGG instructions (R246, R247, R292 to R298, R306, R309, R314): OPEN gives its code and handle; JOIN at the home, from another
package and toward another home; a CONTRIB of whole stripes becomes a descriptor and advances the party's cursor; CLOSE takes the
cutoff and carries the outcome; LEAVE drops the party. A round's life (R293, R300, R301, R309 to R312): a stripe of a party on
another package is buffered and committed in order; the cutoff comes at the timeout; a release begins where the parties that are
complete suffice, and otherwise the round fails; a failed release ends the round.
What the rules leave open in it is the model's choice: notes/assumptions/9, 11, 38, 54, 55, 57, 65, 67, 68, 69, 70, 71, 72, 83,
90. -/
def Obligations.Aggregation : Prop :=
  ((∀ s t c q x, Issues s c q 0x50 x t → fld (J.md x.w) 2 0 = 0 →
     (t.countIssue c q).sec.entropy = true → (t.countIssue c q).runs Blk.map = true →
     let r := (t.countIssue c q).aggOpen c x.aDva.toNat
     exec (.aggOpen c q) s = .next (r.2.2.result c q x.w r.1 (some r.2.1)).settle) ∧
   (∀ s t c q x ans, Issues s c q 0x50 x t → fld (J.md x.w) 2 0 = 1 → (t.countIssue c q).runs Blk.map = true →
     (t.countIssue c q).homeHere (aggHandle x) = true →
     let u := t.countIssue c q
     let r := u.roundJoin (aggHandle x) c q u.ownPkg
     exec (.aggJoin c q (.here ans)) s = .next (r.2.2.result c q x.w r.1 (some (BitVec.ofNat 64 r.2.1))).settle) ∧
   (∀ s t c q x a, Issues s c q 0x50 x t → fld (J.md x.w) 2 0 = 1 → (t.countIssue c q).runs Blk.map = true →
     (t.countIssue c q).homeHere (aggHandle x) = false →
     exec (.aggJoin c q (.here (some a))) s = .next (((t.countIssue c q).joinAway (aggHandle x) c q a).result c q x.w
       (BitVec.ofNat 64 a.code.toNat) (some (BitVec.ofNat 64 a.party.toNat))).settle) ∧
   (∀ (s : State) (c : CtxId) (q : QIdx) (p : PkgId) (h : Word), s.routeUp p ≠ [] →
     let r := s.roundJoin h c q p
     exec (.aggJoin c q (.remote p h)) s = .next (r.2.2.emit (.relay 13 { pkg := p, dev := true, ctx := c, gen := 0, queue := q } p h
       (BitVec.ofNat 64 (r.1.toNat + r.2.1 * 256)) [] false)).settle) ∧
   (∀ s t c q x home party cursor total ls, Issues s c q 0x50 x t → fld (J.md x.w) 2 0 = 2 → J.ama x.w = amInline →
     let u := t.countIssue c q
     let n := contribLen x
     let conv : BitVec 16 := BitVec.ofNat 16 (fld (J.imm2 x.w) 55 40)
     let h : Word := BitVec.ofNat 32 x.bVal.toNat
     let d : Desc :=
       { id := u.nextId, owner := .queue c q x.q.head, src := .inline (x.pay.drop (fld (J.imm0 x.w) 7 0)), dst := .inline []
         conv := some conv, len := n, bbit := (J.md x.w).testBit 3
         agg := some { handle := h, party := party, first := cursor, home := home } }
     fld (J.imm0 x.w) 7 0 + (cvOf conv.toNat).src.spanBytes n ≤ 32 * J.xc x.w → n ≠ 0 → n < 2 ^ 40 →
     u.partyOf h c q = some (home, party, cursor, total, ls) → u.roundMarked h = false → cursor + n ≤ total → (n % 2 ^ ls = 0 ∨ cursor + n = total) →
     x.aTokenFault c = none → u.descsFull c = false →
     exec (.aggContrib c q) s =
       .next ((u.newId.2.cursorTo h c q home party (cursor + n)).sendDesc c q x.w d).settle) ∧
   (∀ s t c q x slot r, Issues s c q 0x50 x t → fld (J.md x.w) 2 0 = 3 → (t.countIssue c q).runs Blk.map = true →
     let u := t.countIssue c q
     u.roundOf (aggHandle x) = some (slot, r) → r.ctx = c → r.closer = none → r.st ≠ .released → r.st ≠ .failed →
     let d : Desc := { id := u.nextId, owner := .queue c q x.q.head, src := .inline [], dst := .inline [], len := 1
                       agg := some { handle := aggHandle x, party := 64, first := 0, home := true } }
     exec (.aggClose c q) s = .next ((({ u with nextId := u.nextId + 1, map := { u.map with
       descs := u.map.descs ++ [d], rounds := u.map.rounds.put slot { r with closer := some u.nextId } } } :
       State).cutoff slot).result c q x.w 0 none).settle) ∧
   (∀ s t c q x via i cursor total ls, Issues s c q 0x50 x t → fld (J.md x.w) 2 0 = 4 → (t.countIssue c q).runs Blk.map = true →
     let u := t.countIssue c q
     u.partyOf (aggHandle x) c q = some (true, i, cursor, total, ls) → u.map.descs = [] →
     exec (.aggLeave c q (.here via)) s = .next ((u.partyLeave (aggHandle x) i).result c q x.w 0 none).settle) ∧
   (∀ (s : State) (c : CtxId) (q : QIdx) (p : PkgId) (h : Word) (slot i : Nat) (r : Round), s.roundOf h = some (slot, r) →
     r.listed c p = some i →
     exec (.aggLeave c q (.remote p h)) s = .next (s.updRound slot (fun r => r.updParty i (fun y =>
       if y.joined && y.queue == q && !y.dropped then y.drop else y))).settle)) ∧
  ((∀ (s : State) (slot : BitVec 4) (i : BitVec 6) (k : BitVec 18) (ws : List DWord) (cl nn : BitVec 16) (r : Round) (p : Party)
       (u : Nat), s.map.rounds.look slot.toNat = some r → r.parties[i.toNat]? = some p → k.toNat < r.stripes →
     s.runs Blk.map = true → p.pkg ≠ s.ownPkg → ws.length = stripeLen r.n r.lstripe k.toNat → k.toNat = p.commits →
     p.accepted = [] → p.joined = true → p.dropped = false → r.marked = 0 → s.stripeUnit none = some u →
     exec (.stripeAccept slot i k ws cl nn) s = .next (s.stripeIn slot.toNat i.toNat
       { k := k.toNat, unit := u, words := ws, clamped := cl.toNat, nans := nn.toNat }).settle) ∧
   (∀ (s : State) (slot : BitVec 4) (r : Round), s.map.rounds.look slot.toNat = some r → r.tmo ≠ 0 →
     s.reached (r.openAt + r.tmo * 1000) = true →
     exec (.aggCutoffTimeout slot) s = .next (s.cutoff slot.toNat).settle) ∧
   (∀ (s : State) (slot : BitVec 4) (r : Round), s.map.rounds.look slot.toNat = some r → r.cut = true → r.st = .closing →
     r.releasing = false → (r.strict = true → r.parties.length ≤ r.completeCount) → r.quorum ≤ r.completeCount → r.marked = 0 →
     exec (.aggReleaseStart slot) s = .next ({ s with map := { s.map with
       rounds := s.map.rounds.put slot.toNat { r with releasing := true } } } : State).settle) ∧
   (∀ (s : State) (slot : BitVec 4) (r : Round), s.map.rounds.look slot.toNat = some r → r.cut = true → r.st = .closing →
     r.releasing = false → r.strict = false → r.completeCount < r.quorum →
     exec (.aggReleaseStart slot) s = .next (s.roundFinish slot.toNat .failed 1 0).settle) ∧
   (∀ (s : State) (slot : BitVec 4) (code : Byte) (x : Round), s.map.rounds.look slot.toNat = some x → x.releasing = true →
     (s.heldRead x.ctx x.accPages x.acc.toNat (accBytes x.mode x.n / 4096 + 2) x.acc.toNat (accBytes x.mode x.n)).2.1 = false →
     exec (.aggReleaseDone slot .fail code) s = .next (s.roundFinish slot.toNat .failed 5 code).settle))

/-! ## Pages that change their home (ch. 15) -/

/-- The steps of a page's move (R483 to R486): its start; the copy, after which the leaf is RELAY and its invalidation begins; the
close of the relay window, after which the leaf maps the new home; a failure of the stream, the third of which ends the move and is
recorded.
What the rules leave open in it is the model's choice: notes/assumptions/134, 135, 136. -/
def Obligations.PageMoves : Prop :=
  (∀ (s : State) (v : Vdix) (a : BitVec 56) (cls : Byte) (idx : BitVec 24) (off : BitVec 48) (k : Nat) (leaf : PTE),
    s.runs Blk.bnd = true → (s.vdev v).vv = true → (s.vdev v).st = .bound → s.s2leaf v a.toNat = some (k, leaf) →
    s.moveOf v (pageBase a.toNat (Pte.lsize leaf)) = none → s.bnd.moves.length < 512 → Pte.ts leaf = Ts.mapped →
    movable leaf = true → s.homeFree v leaf cls idx off.toNat = true → cls ≠ 7 →
    exec (.pageMoveStart v a cls idx off) s = .next (s.setMove v (pageBase a.toNat (Pte.lsize leaf))
      (some { vdix := v, ca := pageBase a.toNat (Pte.lsize leaf), leaf := leaf, cls := cls, idx := idx, off := off.toNat })).settle) ∧
  (∀ (s : State) (v : Vdix) (ca : BitVec 56) (m : PageMove) (k : Nat), s.moveOf v ca.toNat = some m → m.step = 1 →
    s.s2leaf v ca.toNat = some (k, m.leaf) → Pte.ts m.leaf ≠ Ts.busy → s.xlt.invs = [] → s.xlt.invWait = [] →
    movable m.leaf = true → m.cls ≠ 7 →
    exec (.pageMoveCopyDone v ca) s =
      .next (((s.setMove v ca.toNat (some { m with step := 2, sent := [] })).putPte k (Pte.setTs (Pte.setPra m.leaf m.cls.toNat
        m.idx.toNat m.off) Ts.relay)).invInternal .s2page v.toNat (BitVec.ofNat 64 ca.toNat) (.pageMove v ca.toNat)).settle) ∧
  (∀ (s : State) (v : Vdix) (ca : BitVec 56) (m : PageMove) (k : Nat) (leaf : PTE), s.moveOf v ca.toNat = some m → m.step = 3 →
    s.s2leaf v ca.toNat = some (k, leaf) → Pte.ts leaf = Ts.relay → m.cls ≠ 7 →
    let new := s.withLp (Pte.setTs leaf Ts.mapped)
    let u := ((((s.copyPage m.leaf m (Pte.lp new)).follow m.leaf m).putPte k new).leaveHome v m.leaf)
    exec (.relayWindowClose v ca) s = .next (((({ u with bnd := { u.bnd with
      cntMove := satInc u.bnd.cntMove } } : State).setMove v ca.toNat none).relayAgain).removeCheck v).settle) ∧
  (∀ (s : State) (v : Vdix) (ca : BitVec 56) (m : PageMove) (k : Nat) (leaf : PTE), s.moveOf v ca.toNat = some m →
    s.s2leaf v ca.toNat = some (k, leaf) → Pte.ts leaf = Ts.relay →
    let u := (s.putPte k m.leaf).relayAgain
    exec (.pageMoveStreamFail v ca) s = .next (if 3 ≤ m.fails + 1 then (u.setMove v ca.toNat none).raise
        { src := Src.bndMoveFail, addr := BitVec.ofNat 64 ca.toNat, akind := .ca, synd := BitVec.ofNat 160 v.toNat }
      else u.setMove v ca.toNat (some { m with step := 1, fails := m.fails + 1, sent := [] })).settle)

/-! ## The fault collector and the die-to-die modules (ch. 17, 18, 01) -/

/-- Faults and their log (R560, R562, R570 to R576, R614): a block's fault is captured; the next capture enters the log, or the
last-gasp log in last-gasp mode, and is counted as dropped when the log is full; a block of 256 records is spilled, and a spill that
fails stops; the consumer index stays within the log; a record is read as 16 words; RESUME, LGCLEAR and FLC_ACK empty what they name;
a forced fault is marked so; a policy is written; an access to an island without power ends with an error.
What the rules leave open in it is the model's choice: notes/assumptions/40, 90, 128, 166, 167, 168, 177, 178, 179, 193, 207. -/
def Obligations.FaultLog : Prop :=
  (∀ (s : State) (f : FaultIn), f.forced = false → f.src ≠ Src.rcBothLost →
    exec (.faultDetect f) s = .next (s.raise f).settle) ∧
  (∀ (s : State) (n : Nat) (r : FRec), s.runs Blk.flc = true → s.captureNext = some (n, r) → s.flc.lastgasp = false →
    s.logFull = false →
    exec (.faultLogWrite false) s = .next (({ s with flc := { s.flc with
      capture := s.flc.capture.del n, rot := n
      log := s.flc.log.put (s.flc.prod.toNat % 1048576) r.bits, prod := s.flc.prod + 1 } } : State).spillFollow).settle) ∧
  (∀ (s : State) (b : Bool) (n : Nat) (r : FRec), s.runs Blk.flc = true → s.captureNext = some (n, r) → s.flc.lastgasp = false →
    s.logFull = true →
    exec (.faultLogWrite b) s = .next ({ s with flc := { s.flc with
      capture := s.flc.capture.del n, rot := n, drop := satInc s.flc.drop } } : State).settle) ∧
  (∀ (s : State) (b : Bool) (n : Nat) (r : FRec), s.runs Blk.flc = true → s.captureNext = some (n, r) → s.flc.lastgasp = true →
    exec (.faultLogWrite b) s = .next (({ s with flc := { s.flc with
      capture := s.flc.capture.del n, rot := n } } : State).lgPut r.bits).settle) ∧
  (∀ (s : State), s.spills = true → s.ftc.mounted = true → 256 ≤ Flc.span s.flc.prod s.flc.spill →
    let recs := (rangeFrom s.flc.spill.toNat 256).map (fun i => (s.flc.log.look (i % 2 ^ 32 % 1048576)).getD 0)
    let all := s.ftc.zone.spills ++ [(s.ftc.zone.spillSeq, recs)]
    exec (.logSpillWrite .pass) s = .next ({ s with
      flc := { s.flc with spill := s.flc.spill + 256 }
      ftc := { s.ftc with zone := { s.ftc.zone with
        spills := if all.length > 131072 then all.drop 1 else all, spillSeq := s.ftc.zone.spillSeq + 1 } } } : State).settle) ∧
  (∀ (s : State), s.spills = true → s.ftc.mounted = true → 256 ≤ Flc.span s.flc.prod s.flc.spill →
    exec (.logSpillWrite .fail) s = .next ((({ s with flc := { s.flc with spillStop := true } } : State).spillFollow).raise
      { src := Src.logSpillFail }).settle) ∧
  (∀ (s : State) (w : Who) (v : Word), Arrives s w (regAddr .flcLogCons []) → s.coreOrOperator w = true →
    exec (.logConsume w v) s = .next (if Flc.span v s.flc.cons ≤ Flc.span s.flc.prod s.flc.cons then
      { s with flc := { s.flc with cons := v } } else s.cfgReject w (regAddr .flcLogCons [])).settle) ∧
  (∀ (s : State) (w : Who) (i : Word), Arrives s w (regAddr .flcLogRidx []) → s.coreOrOperator w = true →
    let r := ((s.flc.log.look (i.toNat % 1048576)).getD 0).toNat
    exec (.logRead w i false) s = .next (forAll (rangeFrom 0 16) (s.putReg .flcLogRidx [] i.toNat) (fun u k =>
      u.emit (.coreVal w (BitVec.ofNat 32 (r / 2 ^ (32 * k)))))).settle) ∧
  (∀ (s : State) (p : Bool), Arrives s (.core s.primaryCore) (regAddr .flcLogResume []) →
    exec (.logResume (.core s.primaryCore) p) s = .next (if p then { s with flc := { s.flc with
      cons := s.flc.prod, spill := s.flc.prod, log := [], lastgasp := false } } else s).settle) ∧
  (∀ (s : State), s.operatorHere = true → s.rpc.bootSt ≠ 3 →
    exec .lgclear s = .next ({ s with flc := { s.flc with lg := [], lgLost := 0 } } : State).settle) ∧
  (∀ (s : State) (w : Who) (k : BitVec 9), Arrives s w (regAddr .flcAck []) → s.coreOrOperator w = true →
    exec (.flcAck w k) s = .next ({ s with flc := { s.flc with
      unclr := s.flc.unclr.filter (fun u => decide (u.1 ≠ k.toNat)) } } : State).settle) ∧
  (∀ (s : State) (w : Who) (k : BitVec 9), Arrives s w (regAddr .flcSrcCfg [k.toNat]) → s.coreOrOperator w = true →
    s.srcWritable k = true → s.rf .flcForceTgt 31 31 = 0 → s.rf .flcForceTgt 30 30 = 0 →
    exec (.faultForce w k) s = .next (s.raise { src := k, who := w, forced := true }).settle) ∧
  (∀ (s : State) (w : Who) (k : BitVec 9) (lv : BitVec 3) (cl : BitVec 2), Arrives s w (regAddr .flcSrcCfg [k.toNat]) →
    s.coreOrOperator w = true → s.srcWritable k = true → lv.toNat ≤ 4 → s.rpc.quar = false →
    exec (.faultPolicy w k lv cl) s = .next ({ s with flc := { s.flc with
      srcCfg := s.flc.srcCfg.put k.toNat (cl, lv) } } : State).settle) ∧
  (∀ (s : State) (n : CoreId) (i : BitVec 7) (acc : Acc) (a : DWord), s.islandOn i.toNat = false → i.toNat ≤ 95 →
    exec (.islandAccessTimeout (.core n) i acc a) s = .next ((s.emit (.coreErr n)).raise
      { src := Src.islandOff, who := .core n, addr := a, acc := acc, akind := .ccpa, synd := BitVec.ofNat 160 i.toNat
        blk := some (BitVec.ofNat 5 (islandBlock i.toNat)) }).settle)

/-- Die-to-die modules and the patrol of SMS (R31, R32, R39 to R41, R593): a retry is counted; a module that loses a lane is DEGRADED;
one that goes down leaves its die to another module, or loses it; a retrained module serves again; training ends UP with what the die
reports, or its module stays DOWN with its power domain off; a patrol pass handles what it finds.
What the rules leave open in it is the model's choice: notes/assumptions/9, 12, 13, 15, 16, 178. -/
def Obligations.DieLinks : Prop :=
  (∀ (s : State) (m : BitVec 5), (s.module m.toNat).serves = true →
    exec (.ddlCrcRetry m) s = .next (({ s with ddl := { s.ddl with corr := satInc s.ddl.corr } } : State).raise
      { src := Src.ddlCorr, synd := BitVec.ofNat 160 m.toNat }).settle) ∧
  (∀ (s : State) (m : BitVec 5), (s.module m.toNat).serves = true →
    exec (.ddlLaneDegrade m) s = .next ((s.updModule m.toNat (fun x => { x with st := 3 })).ddlCorr m.toNat).settle) ∧
  (∀ (s : State) (m : BitVec 5), (s.module m.toNat).serves = true →
    let u := (s.updModule m.toNat (fun y => { y with st := 0 })).raise { src := Src.ddlLinkDown, synd := BitVec.ofNat 160 m.toNat }
    exec (.ddlModuleLinkDown m) s = .next (if u.dieUp (s.module m.toNat).die.toNat then u
      else u.dieLost (s.module m.toNat).die.toNat).settle) ∧
  (∀ (s : State) (m : BitVec 5), (s.module m.toNat).st = 0 → (s.module m.toNat).waitOver = false →
    (s.module m.toNat).trained = true → s.islandOn (90 + m.toNat / 8) = true →
    exec (.ddlModuleRetrain m) s = .next (s.updModule m.toNat (fun y =>
      { y with st := 2, retrain := if y.retrain = 255 then 255 else y.retrain + 1 })).settle) ∧
  (∀ (s : State) (m : BitVec 5) (die : BitVec 3) (hbm : List (BitVec 4 × BitVec 7)) (tiles : BitVec 6) (kib : BitVec 20),
    (s.module m.toNat).st = 1 →
    let u := s.updModule m.toNat (fun x => { x with st := 2, die := die, trained := true })
    exec (.ddlTrainComplete m die hbm tiles kib) s = .next ({ u with ddl := { u.ddl with
      hbm := hbm.foldl (fun t p => t.put p.1.toNat p.2) u.ddl.hbm
      hbmDie := hbm.foldl (fun t p => t.put p.1.toNat die) u.ddl.hbmDie
      tiles := u.ddl.tiles.put die.toNat (tiles, kib) } } : State).settle) ∧
  (∀ (s : State) (m : BitVec 5), m.toNat < 24 → (s.module m.toNat).st = 1 →
    s.ce .ddlCtrl 7 0 * 1000000 ≤ s.since s.ddl.trainAt →
    exec (.ddlLinkwaitExpire m) s = .next ((s.updModule m.toNat (fun y => { y with st := 0, waitOver := true })).setDomain
      (496 + m.toNat) false).settle) ∧
  (∀ (s : State) (finds : List (Nat × Ecc)), s.runs Blk.sms = true → (∀ p ∈ finds, p.1 < (fwBase + fwSize) / 64) →
    let u := forAll finds s (fun t p => t.eccLine (64 * p.1) p.2 .hw)
    exec (.smsPatrolPass finds) s = .next ({ u with mem := { u.mem with passes := satInc u.mem.passes } } : State).settle)

/-! ## Host ports (ch. 13) -/

/-- Functions and their resets (R182, R183, R414 to R416): an FLR stops a function, clears its configuration, re-attaches its control
context and sends an FRS message; that of a PF ends its VFs with their SR-IOV capability; the VF enables bring VFs up and end them; the
Bus Master Enable orphans the function's contexts when it goes and re-attaches its control context when it comes.
What the rules leave open in it is the model's choice: notes/assumptions/53, 75, 101, 102. -/
def Obligations.HostFunctions : Prop :=
  (∀ (s : State) (f : FnId), (s.fn f).present = true → s.isPf f = false →
    exec (.flr f) s = .next ((((((s.fnStop f).fnClear f true).rstCause 5 4 f.toNat).reattach f).emit (.frs f))).settle) ∧
  (∀ (s : State) (f : FnId), (s.fn f).present = true → s.isPf f = true →
    exec (.flr f) s = .next ((forAll (s.vfsOf f) s (fun t v => t.fnReset v false)).fnReset f true).settle) ∧
  (∀ (s : State) (f : FnId) (n : BitVec 8), s.isPf f = true → (s.fn f).present = true → (s.fn f).vfEnable = false → 0 < n.toNat →
    n.toNat ≤ s.vfMax (s.fnLink f) →
    let u := s.updFn f (fun x => { x with vfEnable := true, numVfs := n.toNat })
    exec (.vfEnableSet f n) s = .next (forAll (u.vfsOf f) u (fun t v =>
      (t.updFn v (fun y => { y with present := true, ready := true })).emit (.frs v))).settle) ∧
  (∀ (s : State) (f : FnId), (s.fn f).vfEnable = true →
    exec (.vfEnableClear f) s = .next ((forAll (s.vfsOf f) s (fun t v => t.fnReset v false)).updFn f (fun x =>
      { x with vfEnable := false, numVfs := 0 })).settle) ∧
  (∀ (s : State) (f : FnId), (s.fn f).vfMse = true →
    exec (.vfMemorySpaceClear f) s = .next ((forAll (s.vfsOf f) s (fun t v => t.fnReset v true)).updFn f (fun x =>
      { x with vfMse := false })).settle) ∧
  (∀ (s : State) (f : FnId), (s.fn f).bme = true →
    let u := (s.updFn f (fun x => { x with bme := false })).orphan (fun x => x.func == f)
    exec (.bmeClear f) s = .next (forAll ((u.reqs.filter (fun r => u.atFn f r && !r.out)).map Req.id) u (fun t i =>
      t.failReq i Code.hostPathFailed 0)).settle) ∧
  (∀ (s : State) (f : FnId), (s.fn f).bme = false → (s.fn f).present = true →
    exec (.bmeSet f) s = .next (((s.updFn f (fun x => { x with bme := true })).reattach f).relaunch).settle)

/-- Links (R402, R404, R413, R424 to R428): a link that comes up shows its width and makes the PF of an open port ready; one that goes
down freezes, and its functions are reset; PERST# resets it and starts its training; its drain ends; a release lets held traffic
leave; a control core opens and forms ports.
What the rules leave open in it is the model's choice: notes/assumptions/108. -/
def Obligations.HostLinks : Prop :=
  (∀ (s : State) (l : LinkId), (s.link l.toNat).perst = true → s.linkExists l.toNat = true →
    exec (.perstAssert l) s = .next ((((s.updLink l.toNat (fun k => { k with perst := false })).goDown l.toNat 0xFE
      .down).rstCause 4 3 l.toNat)).settle) ∧
  (∀ (s : State) (l : LinkId), (s.link l.toNat).perst = false → s.linkExists l.toNat = true →
    let u := (s.updLink l.toNat (fun k => { k with perst := true, wake := false })).setDomain (linkDomain l.toNat) true
    u.islandOn (portIsland l.toNat) = true →
    exec (.perstDeassert l) s = .next (u.updLink l.toNat (fun k => { k with st := .training })).settle) ∧
  (∀ (s : State) (l : LinkId), (s.link l.toNat).dlup = true →
    exec (.linkDown l .surprise) s = .next ((s.goDown l.toNat 5 .training).raise
      { src := Src.hpxUncorr l.toNat, aer := some 5 }).settle) ∧
  (∀ (s : State) (l : LinkId), (s.link l.toNat).dlup = true →
    exec (.linkDown l .hotReset) s = .next ((s.goDown l.toNat 0xFE .training).rstCause 4 3 l.toNat).settle) ∧
  (∀ (s : State) (l : LinkId), (s.link l.toNat).dlup = true →
    exec (.linkDown l .linkDisable) s = .next ((s.goDown l.toNat 0xFE .down).rstCause 4 3 l.toNat).settle) ∧
  (∀ (s : State) (l : LinkId) (w : BitVec 5) (cxl : Bool), s.linkExists l.toNat = true → (s.link l.toNat).dlup = false →
    (s.link l.toNat).perst = true → (s.link l.toNat).st ≠ .l2 → s.islandOn (portIsland l.toNat) = true → w ≠ 0 →
    w.toNat ≤ s.linkMax l.toNat → (s.link l.toNat).frozen = false → s.hpx.openB.toNat.testBit (l.toNat / 2) = true →
    let u := s.updLink l.toNat (fun x => { x with st := .l0, dlup := true, width := w, full := w,
                                                  cxl := cxl && l.toNat % 2 == 0 && s.hpx.cxlB.toNat.testBit (l.toNat / 2) })
    exec (.linkUp l w cxl) s =
      .next ((u.updFn (State.linkPf l.toNat) (fun x => { x with present := true })).pfReady l.toNat).settle) ∧
  (∀ (s : State) (l : LinkId), (s.link l.toNat).frozen = true → (s.link l.toNat).drain = true → (s.link l.toNat).selfEnd = false →
    exec (.freezeDrainDone l) s = .next (s.updLink l.toNat (fun x => { x with drain := false })).settle) ∧
  (∀ (s : State) (w : Who) (l : LinkId), Arrives s w (regAddr .hpxLrel [l.toNat]) → s.coreOrOperator w = true →
    (s.link l.toNat).dlup = true → (s.link l.toNat).drain = false → (s.link l.toNat).frozen = true →
    exec (.linkRelease w l) s = .next (s.thaw l.toNat).settle) ∧
  (∀ (s : State) (n : CoreId) (v : Word), Arrives s (.core n) (regAddr .hpxPortCfg []) → s.hpx.openB = 0 →
    fld v.toNat 3 0 = s.hpx.bifB.toNat → (∀ l, (s.link l).dlup = false) →
    exec (.portCfgWrite (.core n) v) s = .next ({ s with hpx := { s.hpx with
      openB := BitVec.ofNat 4 (fld v.toNat 19 16), cxlB := BitVec.ofNat 4 (fld v.toNat 11 8) } } : State).settle)

/-- Power states of functions and links (R419 to R422): D3hot and the return from it, PME messages, L1 by ASPM and its end, narrower and
wider links, and what a partner asks for. Errors, completions and interrupts (R408, R411, R417, R418, R423): an error of a link is
recorded and sends its message; an unsupported request is answered so and recorded; a completion ends its read, one with an error
status or the timeout fails it; MSI-X vectors, INTx marks and the Interrupt Disable bit take their values.
What the rules leave open in it is the model's choice: notes/assumptions/9, 75, 100, 103, 104, 105, 106, 108. -/
def Obligations.HostPowerAndErrors : Prop :=
  ((∀ (s : State) (f : FnId), (s.fn f).present = true →
     exec (.d3hotEnter f) s = .next ((s.updFn f (fun x => { x with d3hot := true })).wakeCheck f).settle) ∧
   (∀ (s : State) (f : FnId), (s.fn f).d3hot = true →
     let mine := (s.link (s.fnLink f)).dheld.filter (fun m => m.fnOf == some f)
     let u := (s.updFn f (fun x => { x with d3hot := false })).updLink (s.fnLink f) (fun k => { k with
       dheld := k.dheld.filter (fun m => m.fnOf != some f) })
     mine = [] → exec (.d0Return f) s = .next (u.portResume (s.fnLink f)).settle) ∧
   (∀ (s : State) (l : LinkId), (s.link l.toNat).dlup = true → (s.link l.toNat).dheld = [] →
     exec (.pmeTurnOff l) s = .next ((s.updLink l.toNat (fun k => { k with dheld := [] })).emit (.pmeToAck l.toNat)).settle) ∧
   (∀ (s : State) (f : FnId), (s.fn f).pmeSt = true → (s.fn f).pmeEn = true → (s.fn f).d3hot = true → s.wakes f = true →
     100000000 ≤ s.since (s.fn f).pmeAt →
     exec (.pmeResend f) s = .next ((s.updFn f (fun x => { x with pmeAt := s.now })).emit (.pmPme f)).settle) ∧
   (∀ (s : State) (l : LinkId), ((s.link l.toNat).st = .l0 ∨ (s.link l.toNat).st = .l0p) → (s.link l.toNat).aspm = true →
     s.linkPromised l.toNat = false → s.linkBusy l.toNat = false →
     exec (.aspmL1Request l) s = .next ((s.updLink l.toNat (fun x => { x with st := .l1 })).emit (.l1Req l.toNat)).settle) ∧
   (∀ (s : State) (l : LinkId), s.linkPromised l.toNat = true → exec (.aspmL1Request l) s = .next s.settle) ∧
   (∀ (s : State) (l : LinkId), (s.link l.toNat).st = .l1 → (s.link l.toNat).width = (s.link l.toNat).full →
     exec (.l1Exit l) s = .next (s.updLink l.toNat (fun x => { x with st := .l0 })).settle) ∧
   (∀ (s : State) (l : LinkId) (w : BitVec 5), ((s.link l.toNat).st = .l0 ∨ (s.link l.toNat).st = .l0p) →
     (s.link l.toNat).l0pEn = true → s.rf .hpxLpm 1 0 [l.toNat] = 2 → (w = 4 ∨ w = 8) →
     w.toNat < (s.link l.toNat).width.toNat → s.linkPromised l.toNat = false →
     exec (.l0pNarrowRequest l w) s = .next ((s.updLink l.toNat (fun x => { x with st := .l0p, width := w })).emit
       (.widthReq l.toNat w)).settle) ∧
   (∀ (s : State) (l : LinkId), (s.link l.toNat).st = .l0p →
     exec (.l0pWidenRequest l) s = .next ((s.updLink l.toNat (fun x => { x with st := .l0, width := (s.link l.toNat).full })).emit
       (.widthReq l.toNat (s.link l.toNat).full)).settle) ∧
   (∀ (s : State) (l : LinkId) (w : BitVec 5), ((s.link l.toNat).st = .l0 ∨ (s.link l.toNat).st = .l0p) →
     exec (.partnerPowerRequest l 4 w) s = .next (s.updLink l.toNat (fun x => { x with st := .l1 })).settle)) ∧
  ((∀ (s : State) (l : LinkId), (s.link l.toNat).dlup = true →
     exec (.hpxLinkError l .corr) s = .next ((s.emit (.err l.toNat 0)).raise { src := Src.hpxCorr l.toNat }).settle) ∧
   (∀ (s : State) (l : LinkId), (s.link l.toNat).dlup = true →
     exec (.hpxLinkError l .poisonIn) s =
       .next ((s.emit (.err l.toNat 1)).raise { src := Src.hpxPoisonIn l.toNat, aer := some 12 }).settle) ∧
   (∀ (s : State) (l : LinkId) (b : BitVec 8), (s.link l.toNat).dlup = true → b.toNat ∈ [4, 13, 17, 18, 22] →
     exec (.hpxLinkError l (.uncorr b)) s =
       .next ((s.emit (.err l.toNat 2)).raise { src := Src.hpxUncorr l.toNat, aer := some b }).settle) ∧
   (∀ (s : State) (f : FnId) (a : DWord), (s.link (s.fnLink f)).dlup = true → (s.link (s.fnLink f)).frozen = false →
     exec (.inboundUnsupported f false a) s = .next ((s.emit (.unsupported f)).raise
       { src := Src.hpxUrIn (s.fnLink f), who := .host f, addr := a, acc := .read, akind := .host }).settle) ∧
   (∀ (s : State) (f : FnId) (a : DWord), (s.link (s.fnLink f)).dlup = true → (s.link (s.fnLink f)).frozen = true →
     exec (.inboundUnsupported f false a) s = .next (s.emit (.unsupported f)).settle) ∧
   (∀ (s : State) (id : Nat) (bs : List Byte) (r : Req) (t : Trans) (f : FnId), s.hostAsked id = some (r, t, f) → bs.length = r.len →
     exec (.hostReadCompletion id bs false true) s = .next ((s.finishRead r t bs (List.replicate bs.length false)).relaunch).settle) ∧
   (∀ (s : State) (id : Nat) (bs : List Byte) (ep : Bool) (r : Req) (t : Trans) (f : FnId), s.hostAsked id = some (r, t, f) →
     exec (.hostReadCompletion id bs ep false) s = .next (s.hostFail id r t f 15).settle) ∧
   (∀ (s : State) (id : Nat) (r : Req) (t : Trans) (f : FnId), s.hostAsked id = some (r, t, f) →
     exec (.completionTimeout id) s = .next (s.hostFail id r t f 14).settle) ∧
   (∀ (s : State) (f : FnId) (v : BitVec 11), Reaches s f →
     let old := ((s.fn f).vectors.look v.toNat).getD (0, 0, true)
     exec (.msixUnmask f v) s = .next ((s.updFn f (fun x => { x with
       vectors := x.vectors.put v.toNat (old.1, old.2.1, false) })).msixFlush f).settle) ∧
   (∀ (s : State) (n : CoreId) (l : LinkId) (v : Word), Arrives s (.core n) (regAddr .hpxIntxSeen [l.toNat]) →
     exec (.intxSeenWrite (.core n) l v) s =
       .next ((s.updLink l.toNat (fun k => { k with seen := v })).intaUpdate l.toNat).settle) ∧
   (∀ (s : State) (l : LinkId) (d : Bool), (s.fn (State.linkPf l.toNat)).present = true →
     exec (.interruptDisableWrite l d) s =
       .next ((s.updFn (State.linkPf l.toNat) (fun x => { x with intDis := d })).intaUpdate l.toNat).settle))

/-! ## Coherence (ch. 14) -/

/-- The coherence ring (R434 to R436, R438 to R442): a request of an agent, on a coherent line that it has no request for, with fewer
than 16 outstanding and room in the tracker, enters the tracker of the line's home; an agent's answer leaves it in the state that
R435 gives; its response is taken, and the last one grants the line; a hold ends. Hosts in the coherence domain (R445, R446, R448 to
R453): a host's request to a valid window becomes a ring request on its behalf, and one outside every window is recorded; a host's
snoop is a request to its port's home; the host's answers update the filter, and the HCA; a window is opened where its pages are
staging pages, and closed.
What the rules leave open in it is the model's choice: notes/assumptions/31, 75, 109, 110, 111, 112, 113, 114, 115. -/
def Obligations.Coherence : Prop :=
  (let fresh (s : State) (a : BitVec 6) (line : Nat) : Prop :=
     a.toNat < 40 ∧ (∀ r, agentRegion a.toNat = some r → s.regionFrozen r = false) ∧ s.runs Blk.crg = true ∧ s.lineCoherent line = true ∧
     s.crg.tracks = [] ∧ s.crg.retry = [] ∧ s.crg.credits = []
   let enters (s : State) (a : BitVec 6) (line : Nat) (req : CohReq) (d : List Byte) : State :=
     s.trackAdd { home := crgHome line, line := line, agent := a.toNat, req := req, data := d }
   (∀ (s : State) (a : BitVec 6) (n : Nat), fresh s a n → exec (.rds a n) s = .next (enters s a n .rds []).settle) ∧
   (∀ (s : State) (a : BitVec 6) (n : Nat), fresh s a n → exec (.rdx a n) s = .next (enters s a n .rdx []).settle) ∧
   (∀ (s : State) (a : BitVec 6) (n : Nat), fresh s a n → exec (.rdna a n) s = .next (enters s a n .rdna []).settle) ∧
   (∀ (s : State) (a : BitVec 6) (n : Nat), fresh s a n → (s.copyOf a n = .s ∨ s.copyOf a n = .o) →
     exec (.upg a n) s = .next (enters s a n .upg []).settle) ∧
   (∀ (s : State) (a : BitVec 6) (n : Nat) (d : List Byte), fresh s a n → d.length = 64 → ctlAgent a.toNat = false →
     exec (.wrline a n d) s = .next (enters s a n .wrline d).settle) ∧
   (∀ (s : State) (a : BitVec 6) (n : Nat) (d : List Byte), fresh s a n → d.length = 64 →
     (s.copyOf a n = Moesi.m ∨ s.copyOf a n = .o) → exec (.wbm a n d) s = .next (enters s a n .wbm d).settle) ∧
   (∀ (s : State) (a : BitVec 6) (n : Nat) (t : Track) (c : CLine), s.activeTrack n = some t →
     s.crg.lines.find? (fun c => c.agent == a.toNat && c.line == n) = some c → t.pending.contains a.toNat = true →
     c.hold = false →
     exec (.snoopReceive a n) s = .next ((s.setLineCopy a.toNat n (snooped c.st t.req).1 c.data false).updTrack n t.agent (fun x =>
       { x with pending := dropFrom x.pending a.toNat, answered := addTo x.answered a.toNat
                supplied := if (snooped c.st t.req).2 then some c.data else x.supplied })).settle) ∧
   (∀ (s : State) (a : BitVec 6) (n : Nat) (t : Track), s.activeTrack n = some t → t.answered.contains a.toNat = true →
     exec (.snoopResponse a n) s = .next ((s.updTrack n t.agent (fun x =>
       { x with answered := dropFrom x.answered a.toNat })).trackRun n trackMax).settle) ∧
   (∀ (s : State) (a : BitVec 6) (n : Nat),
     let free (c : CLine) : CLine := if c.agent = a.toNat ∧ c.line = n then { c with hold := false } else c
     exec (.holdExpire a n) s = .next (({ s with crg := { s.crg with
       lines := s.crg.lines.map free } } : State).snoopReceive a.toNat n).settle)) ∧
  (let serves (s : State) (p : PortId) : Prop :=
     s.cxlUp p = true ∧ (s.link (2 * p.toNat)).frozen = false ∧ s.runs Blk.crg = true
   let asked (p : PortId) (x : Nat × CtxId) (req : CohReq) (op : HostOp) (d : List Byte) (poison : Bool) : Track :=
     { home := crgHome x.1, line := x.1, agent := 40 + p.toNat, req := req, op := some op, tag := x.2, data := d, poison := poison }
   (∀ (s : State) (p : PortId) (n : BitVec 1) (off : BitVec 33) (x : Nat × CtxId), serves s p → s.winLine p n off.toNat = some x →
     exec (.memrd p n off 2) s = .next (s.cohRequest (asked p x .rdx (.read .m) [] false)).settle) ∧
   (∀ (s : State) (p : PortId) (n : BitVec 1) (off : BitVec 33) (x : Nat × CtxId), serves s p → s.winLine p n off.toNat = some x →
     exec (.memrddata p n off) s = .next (s.cohRequest (asked p x .rdna (.read .i) [] false)).settle) ∧
   (∀ (s : State) (p : PortId) (n : BitVec 1) (off : BitVec 33) (d : List Byte) (poison : Bool) (x : Nat × CtxId), serves s p →
     s.winLine p n off.toNat = some x → d.length = 64 → (s.filterOf p.toNat).any (fun e => e.line == x.1) = false →
     exec (.memwr p n off d poison) s = .next (s.cohRequest (asked p x .wrline .write d poison)).settle) ∧
   (∀ (s : State) (p : PortId) (n : BitVec 1) (off : BitVec 33) (x : Nat × CtxId), serves s p → s.winLine p n off.toNat = some x →
     exec (.meminv p n off) s = .next (s.cohRequest (asked p x .rdx .inv [] false)).settle) ∧
   (∀ (s : State) (p : PortId) (n : BitVec 1) (off : BitVec 33), s.cxlUp p = true → (s.link (2 * p.toNat)).frozen = false →
     s.winLine p n off.toNat = none →
     exec (.memrddata p n off) s = .next ((s.emit (.cxlMem p.toNat (List.replicate 64 0) true)).raise
       { src := Src.cohMemwinRange, who := .host (State.linkPf (2 * p.toNat)), acc := .read, akind := .host }).settle) ∧
   (∀ (s : State) (p : PortId) (n : Nat) (req : CohReq), serves s p → (req = .rds ∨ req = .rdx ∨ req = .rdna) →
     exec (.hostSnoop p n req) s = .next (s.cohRequest { home := p.toNat, line := hostLine p.toNat (64 * (n % 2 ^ 42))
                                                         agent := 44 + p.toNat, req := req, op := some .snoop }).settle) ∧
   (∀ (s : State) (p : PortId) (n : Nat) (st : Moesi), (s.filterOf p.toNat).any (fun e => e.line == n) = true →
     s.crg.tracks = [] → (s.filterSet p.toNat n st).crg.tracks = [] → ∃ t, exec (.bisnpResponse p n none st) s = .next t ∧
       t = (({ s.filterSet p.toNat n st with crg := { (s.filterSet p.toNat n st).crg with tracks := [] } } : State).trackRun n
         trackMax).settle) ∧
   (∀ (s : State) (p : PortId) (n : Nat) (d : List Byte) (poison : Bool) (t : Track),
     s.activeTrack (hostLine p.toNat (64 * n)) = some t → t.hostWait = true → t.req = .rds → d.length = 64 →
     exec (.hcaHostResponse p n d true poison) s = .next (((s.hcaFill { port := p.toNat, line := n, st := .s, data := d,
                                                                        poison := poison }).trackEnd t).trackRun t.line trackMax).settle) ∧
   (∀ (s : State) (n : CoreId) (p : PortId) (i : BitVec 1) (v : Word) (w : MemWin),
     let ix := [p.toNat, i.toNat]
     let c := fld v.toNat 13 0
     Arrives s (.core n) (regAddr .crgMemwinCtrl ix) → v.toNat.testBit 31 = true →
     (s.crg.wins.look (2 * p.toNat + i.toNat)).isSome = false →
     (s.putReg .crgMemwinCtrl ix c).winOpen (.core n) p.toNat i.toNat (BitVec.ofNat 14 c) = some w →
     let u := s.putReg .crgMemwinCtrl ix c
     exec (.memwinValidSet (.core n) p i v) s = .next (({ u with crg := { u.crg with
       wins := u.crg.wins.put (2 * p.toNat + i.toNat) w } } : State).putReg .crgMemwinCtrl ix (c + 2 ^ 31)).settle) ∧
   (∀ (s : State) (n : CoreId) (p : PortId) (i : BitVec 1), Arrives s (.core n) (regAddr .crgMemwinCtrl [p.toNat, i.toNat]) →
     exec (.memwinValidClear (.core n) p i) s = .next (s.winEnd (2 * p.toNat + i.toNat)).settle))

/-! ## The optical fabric (ch. 15) -/

/-- Flows that this HTU sends (R461 to R468): responses end their requests; an ACK makes the writes up to its SEQ done; a NACK fails the
request of a queue's flow, and on a device flow every later one too, which is then reset; RETRY pauses a flow and RESUME sends
again; a packet without a report is sent again at 6 us and at 12 us, and fails at 20 us with REMOTE_NACK, or PARTITIONED where no
route is up. Requests that come from other packages (R44, R461 to R467): a write, a read or an atomic for this package that its flow
accepts in SEQ order becomes an access that stage 2 alone translates, for the virtual device that its ID names; one for another
package goes on where a route is up and hops are left; a flow's reset is answered; an idle flow's entry goes after 1 ms.
What the rules leave open in it is the model's choice: notes/assumptions/9, 116, 117, 118, 119, 120, 121, 210. -/
def Obligations.RelayPackets : Prop :=
  ((∀ (s : State) (id : Nat) (bs : List Byte) (poison : Bool) (r : Req) (t : Trans), s.fabricReq id = some (r, t) → r.rd = true →
     r.wr = false → bs.length = r.len → exec (.relayReadresp id bs poison) s =
       .next (((s.unackDrop id).completeRead r bs (List.replicate r.len poison)).reqEnded r).settle) ∧
   (∀ (s : State) (id : Nat) (old : DWord) (r : Req) (t : Trans), s.fabricReq id = some (r, t) → r.rd = true → r.wr = true →
     r.queue = none → exec (.relayAtomresp id old) s =
       .next (((s.unackDrop id).completeRead r (leBytes r.len old.toNat) (List.replicate r.len false)).reqEnded r).settle) ∧
   (∀ (s : State) (k : FlowKey) (seq : Word) (f : TxFlow), s.txFlow? k = some f → f.resetting = false →
     let hit := f.unacked.filter (fun u => seqFrom seq u.seq && s.isWrite u)
     exec (.relayAck k seq) s = .next (forAll hit (s.updTx k (fun g => { g with
       unacked := g.unacked.filter (fun u => !hit.contains u) })) State.fabricDone).settle) ∧
   (∀ (s : State) (k : FlowKey) (seq : Word) (code reason : Byte) (f : TxFlow) (u : Unacked), s.txFlow? k = some f →
     f.packet seq = some u → f.resetting = false → k.dev = false →
     exec (.relayNack k seq code reason) s = .next (s.fabricFail u.req Code.remoteNack reason).settle) ∧
   (∀ (s : State) (k : FlowKey) (seq : Word) (code reason : Byte) (f : TxFlow) (u : Unacked), s.txFlow? k = some f →
     f.packet seq = some u → f.resetting = false → k.dev = true →
     exec (.relayNack k seq code reason) s = .next ((forAll (f.unacked.filter (fun x => seqFrom x.seq seq)) s (fun t x =>
       t.fabricFail x.req Code.remoteNack reason)).flowReset k).settle) ∧
   (∀ (s : State) (k : FlowKey) (seq : Word) (f : TxFlow) (u : Unacked), s.txFlow? k = some f → f.packet seq = some u →
     f.resetting = false →
     exec (.relayRetry k seq) s = .next (s.updTx k (fun g => { g with
       paused := true
       unacked := g.unacked.map (fun u => if seqFrom u.seq seq then { u with retried := true } else u) })).settle) ∧
   (∀ (s : State) (k : FlowKey) (seq : Word) (f : TxFlow), s.txFlow? k = some f → f.resetting = false → f.paused = true →
     let again (u : Unacked) : Unacked := if seqFrom u.seq seq then { u with retried := false, sent := s.now, resends := 0 } else u
     let g : TxFlow := { f with paused := false, unacked := f.unacked.map again }
     exec (.relayResume k seq) s = .next (forAll ((f.unacked.map again).filter (fun u => seqFrom u.seq seq)) (s.putTx g)
       (fun t u => t.sendPacket g u)).settle) ∧
   (∀ (s : State) (k : FlowKey) (f : TxFlow), s.txFlow? k = some f → f.resetting = true →
     exec (.relayFlowresetAck k) s = .next (s.flowResetEnd k).settle) ∧
   (∀ (s : State) (k : FlowKey) (seq : Word) (f : TxFlow) (u : Unacked) (l : OLink), s.txFlow? k = some f → f.packet seq = some u →
     u.retried = false → u.resends < 2 → 6000 * (u.resends + 1) ≤ s.since u.sent → s.isWrite u = true → f.link = some l →
     s.runs Blk.ofp = true →
     let more (x : Unacked) : Unacked := if x.seq = seq then { x with resends := x.resends + 1 } else x
     exec (.relayWriteResend k seq) s = .next (((s.updTx k (fun g => { g with unacked := g.unacked.map more })).sendPacket f
       u).countRetx 1).settle) ∧
   (∀ (s : State) (k : FlowKey) (seq : Word) (f : TxFlow) (u : Unacked), s.txFlow? k = some f → f.packet seq = some u →
     u.retried = false → 20000 ≤ s.since u.sent → f.resetting = false → s.isWrite u = true → s.routeUp k.pkg ≠ [] →
     exec (.relayReportTimeout k seq) s = .next (({ s with ofp := { s.ofp with
       cntNorpt := satInc s.ofp.cntNorpt } } : State).fabricFail u.req Code.remoteNack Rsn.noReport).settle) ∧
   (∀ (s : State) (k : FlowKey) (seq : Word) (f : TxFlow) (u : Unacked), s.txFlow? k = some f → f.packet seq = some u →
     u.retried = false → 20000 ≤ s.since u.sent → f.resetting = false → s.isWrite u = true → s.routeUp k.pkg = [] →
     exec (.relayReportTimeout k seq) s = .next (({ s with ofp := { s.ofp with
       cntNorpt := satInc s.ofp.cntNorpt } } : State).fabricFail u.req Code.partitioned 0).settle)) ∧
  (let takes (s : State) (l : OLink) (dst : PkgId) (k : FlowKey) (seq svdid : Word) (v : Vdix) (w : Bool) (u : State) : Prop :=
     s.relayIn l = true ∧ s.ofp.pkg = some dst ∧ s.rxAccept k seq w = (true, u) ∧ s.svdev svdid = some v
   (∀ (s u : State) (l : OLink) (dst : PkgId) (k : FlowKey) (seq svdid : Word) (ca : BitVec 56) (bs : List Byte) (poison : Bool)
       (hops : BitVec 3) (v : Vdix), takes s l dst k seq svdid v true u → 0 < bs.length → bs.length ≤ 4096 - ca.toNat % 4096 →
     exec (.relayWriteReceive l dst k seq svdid ca bs poison hops) s = .next (({ u with nextId := u.nextId + 1 } : State).addReq
       { id := u.nextId, who := .fabric l, ctx := k.ctx, s2only := some v, addr := ca.zeroExtend 64, len := bs.length, rd := false
         wr := true, purpose := .remoteWrite k seq bs poison, poison := poison, started := s.now }).settle) ∧
   (∀ (s u : State) (l : OLink) (dst : PkgId) (k : FlowKey) (seq svdid : Word) (ca : BitVec 56) (n : Nat) (hops : BitVec 3) (v : Vdix),
     takes s l dst k seq svdid v false u → 0 < n → n ≤ 4096 - ca.toNat % 4096 →
     exec (.relayReadReceive l dst k seq svdid ca n hops) s = .next (({ u with nextId := u.nextId + 1 } : State).addReq
       { id := u.nextId, who := .fabric l, ctx := k.ctx, s2only := some v, addr := ca.zeroExtend 64, len := n, rd := true
         wr := false, purpose := .remoteRead k seq, poison := false, started := s.now }).settle) ∧
   (∀ (s u : State) (l : OLink) (dst : PkgId) (k : FlowKey) (seq svdid : Word) (ca : BitVec 56) (op : BitVec 3) (sg : Bool)
       (b cmp : DWord) (hops : BitVec 3) (v : Vdix), takes s l dst k seq svdid v false u → 8 ≤ 4096 - ca.toNat % 4096 →
     exec (.relayAtomicReceive l dst k seq svdid ca op true sg b cmp hops) s = .next (({ u with nextId := u.nextId + 1 } :
       State).addReq { id := u.nextId, who := .fabric l, ctx := k.ctx, s2only := some v, addr := ca.zeroExtend 64, len := 8, rd := true
                       wr := true, purpose := .remoteAtom k seq op sg b cmp, poison := false, started := s.now }).settle) ∧
   (∀ (s : State) (l out : OLink) (dst : PkgId) (k : FlowKey) (seq svdid : Word) (ca : BitVec 56) (n : Nat) (hops : BitVec 3),
     s.relayIn l = true → s.ofp.pkg ≠ some dst → 0 < n → n ≤ 4096 - ca.toNat % 4096 → hops ≠ 0 → s.runs Blk.ofp = true →
     State.chooseFrom k (s.routeUp dst) = some out →
     exec (.relayReadReceive l dst k seq svdid ca n hops) s = .next ((s.updOlink out (fun y => { y with frames := y.frames + 1 })).emit
       (.relay 1 k dst seq (ca.zeroExtend 64) [] false)).settle) ∧
   (∀ (s : State) (l : OLink) (k : FlowKey), s.relayIn l = true → s.ofp.rx.any (fun x => x.key == k) = false →
     exec (.relayFlowreset l k) s = .next (({ s with ofp := { s.ofp with
       rx := s.ofp.rx.filter (fun x => x.key != k) } } : State).emit (.relay 10 k k.pkg 0 0 [] false)).settle) ∧
   (∀ (s : State) (k : FlowKey) (x : RxFlow), s.ofp.rx.find? (fun x => x.key == k) = some x → x.refusing = false → x.retried = none →
     1000000 ≤ s.since x.idleAt →
     exec (.flowEntryIdleFree k) s = .next (({ s with ofp := { s.ofp with
       rx := s.ofp.rx.filter (fun y => y.key != k) } } : State).rxFreed).settle))

/-- Optical links, routes and keys (R457 to R460, R468, R493, R530, R534, R593): a link trains, is attested and loses lanes; a flow
moves when its link goes down; the two key phases; a port's form; routes and the package's index. Time and Ethernet (R469 to R472,
R481): PTP within 50 ns locks, and only the first lock steps the time base; holdover begins, and after 100 s fences the leases held;
RoCE connections answer, fail and try again; other frames.
What the rules leave open in it is the model's choice: notes/assumptions/2, 4, 9, 40, 41, 75, 90, 123, 124, 125, 127, 128, 143,
155, 160, 166, 209. -/
def Obligations.OpticalAndEthernet : Prop :=
  ((∀ (s : State) (l : OLink), (s.olink l).st ≠ .down → exec (.opticalLinkDown l) s = .next ((s.updOlink l (fun x =>
     { x with st := .down, lanes := 0, frames := 0, oldKey := false })).moveFlows).settle) ∧
   (∀ (s : State) (l : OLink) (n : BitVec 4), (s.olink l).carries = true → n ≠ 0 → n.toNat < (s.olink l).lanes.toNat →
     exec (.wavelengthLoss l n) s = .next (s.updOlink l (fun y => { y with lanes := n, st := .degraded })).settle) ∧
   (∀ (s : State) (l : OLink) (n : BitVec 4), s.olinkMode l = 1 → s.olinkExists l = true → (s.olink l).st = .training → n ≠ 0 →
     n.toNat ≤ s.olinkFull l →
     exec (.relayLinkTrained l n) s = .next (s.updOlink l (fun y => { y with st := .attesting, lanes := n, keyWait := false })).settle) ∧
   (∀ (s : State) (l : OLink), (s.olink l).st = .attesting → s.sec.entropy = true → s.sec.fuses = true →
     exec (.attestationDone l .pass) s = .next ((s.updOlink l (fun y =>
       { y with st := if y.lanes.toNat < s.olinkFull l then .degraded else .up, txLap := s.lapStored true l.toNat, frames := 0
                keyUpdates := 0, oldKey := false, keyWait := false, updWait := false })).moveFlows).settle) ∧
   (∀ (s : State) (l : OLink), (s.olink l).st = .attesting → s.sec.entropy = false → s.sec.fuses = true →
     exec (.attestationDone l .pass) s = .next (s.updOlink l (fun y => { y with keyWait := true })).settle) ∧
   (∀ (s : State) (l : OLink), (s.olink l).st = .attesting →
     exec (.attestationDone l .fail) s = .next (s.raise { src := Src.ofpAttestFail l.toNat }).settle) ∧
   (∀ (s : State) (l : OLink) (lap : Word), (s.olink l).carries = true →
     exec (.relayControl l lap) s = .next (s.updOlink l (fun x => { x with rxLap := lap, oldKey := true, oldKeyAt := s.now })).settle) ∧
   (∀ (s : State) (l : OLink), (s.olink l).oldKey = true → 100000 ≤ s.since (s.olink l).oldKeyAt →
     exec (.keyPhaseOldExpire l) s = .next (s.updOlink l (fun y => { y with oldKey := false })).settle) ∧
   (∀ (s : State) (l : OLink), (s.olink l).carries = true → s.sec.entropy = true →
     exec (.linkKeyUpdate l) s = .next ((s.updOlink l (fun x => { x with
       frames := 0, keyUpdates := x.keyUpdates + 1, updWait := false })).emit (.keyUpdate l.toNat)).settle) ∧
   (∀ (s : State) (n : CoreId) (p : BitVec 4) (v : Word), Arrives s (.core n) (regAddr .ofpPortCfg [p.toNat]) →
     fld v.toNat 1 0 ≠ 3 → fld v.toNat 3 2 ≠ 3 → (fld v.toNat 1 0 = 2 → fld v.toNat 3 2 = 1) →
     s.rf .ofpPortCfg 3 0 [p.toNat] = fld v.toNat 3 0 → exec (.ofpPortCfgWrite (.core n) p v) s = .next s.settle) ∧
   (∀ (s : State) (n : CoreId) (p : BitVec 4) (v : Word), Arrives s (.core n) (regAddr .ofpPortCfg [p.toNat]) →
     fld v.toNat 1 0 ≠ 3 → fld v.toNat 3 2 ≠ 3 → (fld v.toNat 1 0 = 2 → fld v.toNat 3 2 = 1) →
     s.rf .ofpPortCfg 3 0 [p.toNat] ≠ fld v.toNat 3 0 →
     let u := forAll (ofpDomains p.toNat) (s.putReg .ofpPortCfg [p.toNat] (fld v.toNat 3 0)) (fun u d =>
       u.setDomain d (decide (fld v.toNat 1 0 ≠ 0)))
     let next (l : OLink) (x : OLinkSt) : OLinkSt :=
       { x with st := if u.olinkExists l ∧ fld v.toNat 1 0 ≠ 0 ∧ u.islandOn (ofpIsland p.toNat) then .training else .down, lanes := 0
                frames := 0, oldKey := false }
     exec (.ofpPortCfgWrite (.core n) p v) s =
       .next ((forAll (portLinks p.toNat) u (fun w l => w.updOlink l (next l))).moveFlows).settle) ∧
   (∀ (s : State) (dst : PkgId) (ls : List OLink) (hops : BitVec 3), Authority s → ls.length ≤ 4 → hops.toNat ≤ 6 →
     exec (.routeTableUpdate dst ls hops) s = .next (({ s with ofp := { s.ofp with
       routes := s.ofp.routes.put dst.toNat (ls, hops) } } : State).moveFlows).settle) ∧
   (∀ (s : State) (p : PkgId), Authority s →
     exec (.packageIndexAssign p) s = .next ({ s with ofp := { s.ofp with pkg := some p } } : State).settle)) ∧
  ((∀ (s : State) (l : OLink) (off : BitVec 16) (gm : Bool) (step : DWord), (s.olink l).carries = true → s.ofp.everLocked = true →
     exec (.relayPtp l off gm step) s = .next (({ s with ofp := { s.ofp with
       offset := off, gm := gm, locked := decide (off.toNat ≤ 50), everLocked := true, holdover := false } } :
       State).unsyncSet false).settle) ∧
   (∀ (s : State) (l : OLink) (off : BitVec 16) (gm : Bool) (step : DWord), (s.olink l).carries = true → s.ofp.everLocked = false →
     off.toNat ≤ 50 →
     exec (.relayPtp l off gm step) s = .next (({ s with
       now := s.now + step
       ofp := { s.ofp with offset := off, gm := gm, locked := true, everLocked := true, holdover := false } } :
       State).unsyncSet false).settle) ∧
   (∀ (s : State), s.ofp.holdover = false → s.ofp.everLocked = true →
     exec .ptpSyncLost s = .next ({ s with ofp := { s.ofp with holdover := true, locked := false, holdAt := s.now } } : State).settle) ∧
   (∀ (s : State), s.ofp.holdover = true → s.ofp.unsync = false → 100000000000 ≤ s.since s.ofp.holdAt →
     let held := (s.bnd.vdevs.filter (fun e => e.2.st == .bound && !e.2.grant.isHome && e.2.leaseExp != 0)).map
       (fun e => (BitVec.ofNat 8 e.1 : Vdix))
     exec .ptpHoldoverExpire s = .next (forAll held (s.unsyncSet true) State.fenceVdev).settle) ∧
   (∀ (s : State) (l : OLink), s.olinkMode l = 2 → s.olinkExists l = true → (s.olink l).st = .training →
     exec (.ethernetLinkUp l) s = .next (s.updOlink l (fun y => { y with st := .ethUp, lanes := 4, pauseTill := 0 })).settle) ∧
   (∀ (s : State) (id : Nat) (bs : List Byte) (r : Req) (t : Trans), s.req? id = some r → r.tr = some t → t.cls = 9 →
     r.phase = .sent → r.rd = false →
     exec (.roceResponse id bs) s =
       .next ((s.updConn (fld t.idx.toNat 15 0) (fun c => { c with tries := 0 })).acceptWrite r t .ok).settle) ∧
   (∀ (s : State) (k : BitVec 16) (c : Conn), s.ofp.conns.look k.toNat = some c →
     exec (.roceConnectionError k) s = .next ((forAll (s.roceOut k.toNat) s (fun u x =>
       ((u.failReq x.1 Code.remoteNack Rsn.remoteWrite).reqEnded x.2.1).raise (x.2.1.praFault x.2.2 Src.roceFail Rsn.remoteWrite
         Code.remoteNack))).updConn k.toNat (fun c => { c with gen := c.gen + 1, tries := 0, cuts := 0 })).settle) ∧
   (∀ (s : State) (k : BitVec 16) (c : Conn), s.ofp.conns.look k.toNat = some c → s.roceOut k.toNat ≠ [] →
     exec (.roceRetryTimeout k) s = .next ((if c.tries < Config.roceRetryLimit then
         forAll (s.roceOut k.toNat) (s.updConn k.toNat (fun x => { x with tries := x.tries + 1 })) (fun t x => t.emit (.roce k.toNat x.1))
       else s.connError k.toNat).settle)) ∧
   (∀ (s : State) (k : BitVec 16) (l : OLink), Authority s → s.olinkMode l = 2 → s.olinkExists l = true →
     s.ofp.conns.look k.toNat = none →
     exec (.roceConnectionCreate k l) s =
       .next ({ s with ofp := { s.ofp with conns := s.ofp.conns.put k.toNat { link := l } } } : State).settle) ∧
   (∀ (s : State) (l : OLink), (s.olink l).st = .ethUp → exec (.roceInboundRequest l) s = .next (s.emit (.roceNak l.toNat)).settle) ∧
   (∀ (s : State) (k : BitVec 16),
     exec (.congestionNotification k) s = .next (s.updConn k.toNat (fun c => { c with cuts := c.cuts + 1 })).settle) ∧
   (∀ (s : State) (l : OLink) (n : BitVec 16), (s.olink l).st = .ethUp → n ≠ 0 →
     exec (.pfcPauseFrame l n) s =
       .next (s.updOlink l (fun x => { x with pauseTill := s.after ((n.toNat * 16 + 24) / 25) })).settle) ∧
   (∀ (s : State) (l : OLink) (fr : List Byte), (s.olink l).st = .ethUp → s.icu.cores.all Core.held = false →
     exec (.arpNdLldpFrame l fr) s = .next ((s.drawBytes fr.length).2.emit (.frame l.toNat (s.drawBytes fr.length).1)).settle))

/-! ## Binding (ch. 15) -/

/-- Binding and capacity (R154, R473 to R476, R487 to R491): a grant that is not refused is prepared, and the home tells the others;
COMMIT binds it; ABORT releases it; UNBIND ends its contexts and invalidates it; added resources wait for the next heat boundary, and
removed ones leave when nothing uses them or their limit has passed; the commands of a tile that is drained return.
What the rules leave open in it is the model's choice: notes/assumptions/9, 40, 43, 44, 125, 128, 129, 130, 131, 132, 133, 137,
141, 144, 166. -/
def Obligations.Binding : Prop :=
  (∀ (s : State) (g : Grant), Authority s → s.canBind = true → s.ofp.pkg = some g.home → s.runs Blk.bnd = true → s.bindRefusal g = none →
    exec (.bind g) s = .next (forAll (s.others g) (s.prepare g) (fun t p => t.tell p g.svdid 1)).settle) ∧
  (∀ (s : State) (g : Grant) (w : Nat), Authority s → s.canBind = true → s.ofp.pkg = some g.home → s.runs Blk.bnd = true →
    s.bindRefusal g = some w → exec (.bind g) s = .next (s.emit (.mgtRefuse w)).settle) ∧
  (∀ (s : State) (g : Grant), s.canBind = true → s.ofp.pkg ≠ some g.home → s.runs Blk.bnd = true → s.bindRefusal g = none →
    exec (.bindPrepare g) s = .next (s.prepare g).settle) ∧
  (∀ (s : State) (n : Word) (c : CtxId) (ring : DWord) (v : Vdix), s.vdevNamed n = some v → (s.vdev v).st = .prepared →
    (s.vdev v).grant.isHome = false →
    exec (.bindCommit n c ring) s =
      .next ((s.updVdev v (fun x => { x with st := .bound, vv := true, lastLease := s.now })).ctlCreate v c ring).settle) ∧
  (∀ (s : State) (n : Word) (v : Vdix), s.vdevNamed n = some v → (s.vdev v).st = .prepared → (s.vdev v).grant.isHome = false →
    let u := s.freeTree (s.vdev v).s2root.toNat
    exec (.bindAbort n) s = .next ({ u with bnd := { u.bnd with vdevs := u.bnd.vdevs.del v.toNat } } : State).settle) ∧
  (∀ (s : State) (n : Word) (v : Vdix), s.vdevNamed n = some v → (s.vdev v).st = .bound → (s.vdev v).grant.isHome = false →
    exec (.unbind n) s = .next (s.unbindVdev v).settle) ∧
  (∀ (s : State) (n : Word) (v : Vdix), Authority s → s.vdevNamed n = some v → (s.vdev v).st = .bound →
    (s.vdev v).grant.isHome = true →
    exec (.unbind n) s =
      .next ((forAll (s.others (s.vdev v).grant) s (fun u p => u.tell p n 4)).unbindVdev v).settle) ∧
  (∀ (s : State) (n : Word) (a : Grant) (v : Vdix), Authority s → s.svdev n = some v → s.grantTaken a none = false →
    (s.vdev v).adding = [] → s.grantMissing a = false → grantContinues (s.vdev v).grant a = true → grantLocksReserved a = false →
    exec (.capacityAdd n a) s = .next (s.updVdev v (fun x => { x with adding := x.adding ++ [a] })).settle) ∧
  (∀ (s : State) (n : Word) (x : Grant) (v : Vdix), Authority s → s.runs Blk.bnd = true → s.svdev n = some v →
    (s.vdev v).removing = none → s.removed (s.vdev v) x = x → (s.vdev v).grant.slots ≤ x.slots →
    s.vdevPins v < (s.vdev v).grant.slots.toNat → s.roomLeft v x = true →
    exec (.remove n x) s = .next (((s.updVdev v (fun y => { y with
      removing := some x, removeAt := s.now, rangeOver := false
      grant := { y.grant with slots := (s.vdev v).grant.slots,
                              shareMax := if x.shareMax < y.grant.shareMax then x.shareMax else y.grant.shareMax,
                              links := y.grant.links &&& ~~~x.links } })).moveFlows).removeCheck v).settle) ∧
  (∀ (s : State) (v : Vdix) (x : Grant), (s.vdev v).removing = some x → (s.vdev v).rangeOver = false →
    s.rf .bndCtrl 15 0 * 1000000 ≤ s.since (s.vdev v).removeAt → s.lkt.waiters = [] → s.lkt.locks = [] → s.ofp.conns = [] →
    exec (.lockRoceRangeDrainLimit v) s =
      .next ((s.updVdev v (fun y => { y with rangeOver := true })).removeCheck v).settle) ∧
  (∀ (s : State) (d : BitVec 3) (n : BitVec 5) (k : Drain),
    let mine (k : Drain) : Bool := k.die == d && k.tile == n && !k.ended && decide (s.since k.at_ ≥ s.rf .bndCtrl 15 0 * 1000000)
    let f (y : Drain) : Drain := if mine y then { y with ended := true } else y
    s.bnd.drains.find? mine = some k →
    exec (.tileDrainLimit d n) s = .next ((({ s with bnd := { s.bnd with drains := s.bnd.drains.map f } } : State).emit
      (.endCmds d n)).removeCheck k.vdix).settle) ∧
  (∀ (s : State) (d : BitVec 3) (n : BitVec 5) (c : CtxId) (e : BitVec 16) (k : Drain) (x : Ctx),
    s.bnd.drains.find? (fun k => k.die == d && k.tile == n && k.ended && k.vdix == s.ctxVdix c) = some k → s.ctx? c = some x →
    e.toNat < x.events →
    exec (.tileCommandReturn d n c e false) s = .next ((s.attachEvent c 0 e.toNat
      (if k.fenced then Code.partitioned else Code.rebindAborted) 0).removeCheck k.vdix).settle)

/-- Leases and members (R477 to R481, R492): the home sends leases and takes their answers; a member takes a later expiry and answers;
it fences itself 100 ns before the lease runs out, or by FENCE; the home counts a lease as lapsed and takes the member's resources
back 10 ms later; what is overdue is told; a survivor gets a new home; a member ends what a context has there.
What the rules leave open in it is the model's choice: notes/assumptions/9, 120, 128, 138, 139, 140, 166. -/
def Obligations.Leases : Prop :=
  (∀ (s : State) (n : Word) (v : Vdix), s.svdev n = some v → (s.vdev v).grant.isHome = true → (s.vdev v).grant.multi = true →
    s.runs Blk.ofp = true → s.renewNs ≤ s.since (s.vdev v).lastLease →
    let to_ := (s.others (s.vdev v).grant).filter (fun p => !(s.vdev v).lapsed.contains p && !(s.routeUp p).isEmpty)
    let e := s.after s.leaseNs
    exec (.leaseSend n) s = .next ((forAll to_ s (fun t p => t.emit (.relay 11 (bndKey p) p n e [] false))).updVdev v (fun x =>
      { x with lastLease := s.now, memberExp := to_.foldl (fun l p => putPair l p e) x.memberExp })).settle) ∧
  (∀ (s : State) (n : Word) (e : DWord) (v : Vdix), s.svdev n = some v → (s.vdev v).grant.isHome = false →
    (s.vdev v).leaseExp.toNat < e.toNat →
    exec (.relayLease n e) s = .next ((s.updVdev v (fun x => { x with leaseExp := e, lastLease := s.now })).emit
      (.relay 12 (bndKey (s.vdev v).grant.home) (s.vdev v).grant.home n e [] false)).settle) ∧
  (∀ (s : State) (n : Word) (p : PkgId) (e : DWord) (v : Vdix), s.svdev n = some v → (s.vdev v).grant.isHome = true →
    (s.vdev v).grant.members.contains p = true →
    exec (.relayLeaseAck n p e) s = .next (s.updVdev v (fun x => { x with acked := putPair x.acked p s.now })).settle) ∧
  (∀ (s : State) (v : Vdix), (s.vdev v).st = .bound → (s.vdev v).grant.isHome = false → (s.vdev v).leaseExp ≠ 0 →
    (s.vdev v).leaseExp.toNat ≤ s.now.toNat + 100 → exec (.leaseFence v) s = .next (s.fenceVdev v).settle) ∧
  (∀ (s : State) (v : Vdix), s.now.toNat + 100 < (s.vdev v).leaseExp.toNat → exec (.leaseFence v) s = .next s.settle) ∧
  (∀ (s : State) (n : Word) (v : Vdix), Authority s → s.svdev n = some v →
    exec (.fence n) s = .next ((s.fenceVdev v).emit (.fenceDone n)).settle) ∧
  (∀ (s : State) (v : Vdix) (p : PkgId) (e : DWord), (s.vdev v).expiryOf p = some e → (s.vdev v).st = .bound →
    (s.vdev v).grant.isHome = true → (s.vdev v).lapsed.contains p = false → s.reached e = true → s.ctxs = [] →
    exec (.leaseLapse v p) s = .next (s.updVdev v (fun x => { x with lapsed := addTo x.lapsed p })).settle) ∧
  (∀ (s : State) (v : Vdix) (p : PkgId) (e : DWord), (s.vdev v).expiryOf p = some e → (s.vdev v).lapsed.contains p = true →
    s.reached (e + 10000000) = true →
    exec (.leaseReclaim v p) s = .next ((s.dropPackage v p).updVdev v (fun x =>
      { x with grant := { x.grant with members := x.grant.members.filter (fun q => q != p) }
               memberExp := x.memberExp.filter (fun y => y.1 != p), acked := x.acked.filter (fun y => y.1 != p) })).settle) ∧
  (∀ (s : State) (v : Vdix), (s.vdev v).st = .bound → (s.vdev v).grant.multi = true → (s.vdev v).grant.isHome = false →
    2 * s.renewNs ≤ s.since (s.vdev v).lastLease →
    exec (.leaseOverdue v) s = .next (s.emit (.leaseOverdue (s.vdev v).grant.svdid)).settle) ∧
  (∀ (s : State) (n : Word) (h : PkgId) (v : Vdix), Authority s → s.svdev n = some v → (s.vdev v).grant.members.contains h = true →
    s.ofp.pkg ≠ some h →
    exec (.survivor n h) s = .next (s.updVdev v (fun x => { x with grant := { x.grant with home := h, isHome := false } })).settle) ∧
  (∀ (s : State) (p : PkgId) (c : CtxId) (gen : Word),
    let mine (k : FlowKey) : Bool := k.pkg == p && k.ctx == c && k.gen == gen
    s.reqs = [] → s.map.rounds = [] → s.ofp.rx.any (fun x => mine x.key) = false →
    exec (.memberAbort p c gen) s = .next (({ s with ofp := { s.ofp with
      rx := s.ofp.rx.filter (fun x => !mine x.key), rxWait := s.ofp.rxWait.filter (fun x => !mine x.1) } } : State).emit
      (.relay 13 { pkg := p, dev := true, ctx := c, gen := gen, queue := 0 } p 0 6 [] false)).settle)

/-! ## Control cores (ch. 16) -/

/-- The coprocessor port (R499 to R503, R506 to R510, R515): on a core that runs and whose starting block has room, TIME and XLATE give
their result, and the other operations enter the block, those with operands outside their range giving code 1; the oldest is performed
when it commits and its target takes it; a false start squashes one.
What the rules leave open in it is the model's choice: notes/assumptions/145, 146, 147, 153. -/
def Obligations.CoprocessorPort : Prop :=
  let port (s : State) (n : CoreId) : Prop := s.coreRuns n = true ∧ (s.core n.toNat).block.length < 8
  let enters (s : State) (n : CoreId) (op : CpOp) : State := s.updCore n.toNat (fun c => { c with block := c.block ++ [op] })
  (∀ (s : State) (n : CoreId), port s n → exec (.cpTime n) s = .next (s.cpResult n s.now).settle) ∧
  (∀ (s : State) (n : CoreId) (x y : DWord), port s n → x.toNat < 16384 → s.runs Blk.xlt = true →
    exec (.cpXlate n x y) s =
      .next (s.cpResult n (BitVec.ofNat 64 (s.probeWord (BitVec.ofNat 14 x.toNat) y.toNat false))).settle) ∧
  (∀ (s : State) (n : CoreId) (x : DWord), port s n →
    exec (.cpLocktry n x) s = .next (enters s n (.locktry (fld x.toNat 11 0))).settle) ∧
  (∀ (s : State) (n : CoreId) (x y : DWord), port s n →
    exec (.cpLockacq n x y) s = .next (enters s n (.lockacq (fld x.toNat 11 0) (if y = 0 then none else some y))).settle) ∧
  (∀ (s : State) (n : CoreId) (x : DWord), port s n →
    exec (.cpLockrel n x) s = .next (enters s n (.lockrel (fld x.toNat 11 0))).settle) ∧
  (∀ (s : State) (n : CoreId) (x : DWord), port s n →
    exec (.cpEoi n x) s = .next (enters s n (.eoi (fld x.toNat 9 0))).settle) ∧
  (∀ (s : State) (n : CoreId) (x : DWord), port s n → fld x.toNat 8 0 ≤ 256 →
    exec (.cpTpr n x) s = .next (enters s n (.tpr (fld x.toNat 8 0))).settle) ∧
  (∀ (s : State) (n : CoreId) (x : DWord), port s n → 256 < fld x.toNat 8 0 →
    exec (.cpTpr n x) s = .next (s.cpResult n 1).settle) ∧
  (∀ (s : State) (n : CoreId) (x y : DWord), port s n → fld x.toNat 8 0 ≤ 256 → y.toNat ≤ 65535 →
    exec (.cpMaskwin n x y) s = .next (enters s n (.maskwin (fld x.toNat 8 0) y.toNat)).settle) ∧
  (∀ (s : State) (n : CoreId) (x : DWord), port s n →
    exec (.cpIpi n x) s = .next (enters s n (.ipi (BitVec.ofNat 16 x.toNat))).settle) ∧
  (∀ (s : State) (n : CoreId) (v : Nat) (rest : List CpOp), s.coreRuns n = true → (s.core n.toNat).block = .tpr v :: rest →
    exec (.cpCommit n) s = .next (((s.updCore n.toNat (fun c => { c with block := rest })).updCore n.toNat (fun c =>
      { c with tpr := v })).cpResult n 0).settle) ∧
  (∀ (s : State) (n : CoreId) (k : Nat) (rest : List CpOp), s.coreRuns n = true → (s.core n.toNat).block = .locktry k :: rest →
    let u := s.updCore n.toNat (fun c => { c with block := rest })
    u.runs Blk.lkt = true →
    exec (.cpCommit n) s = .next ((u.lkTry k (.core n)).2.cpResult n (u.lkTry k (.core n)).1).settle) ∧
  (∀ (s : State) (n : CoreId) (k : Nat), s.coreRuns n = true →
    exec (.falseStart n k) s = .next (s.updCore n.toNat (fun c => { c with block := c.block.eraseIdx k, fs := satInc c.fs })).settle) ∧
  (∀ (s : State) (n : CoreId) (a : BitVec 40) (k : BitVec 7), s.coreRuns n = true → s.ccPermits n a.toNat k.toNat true = false →
    exec (.ccBusErr n a k true) s = .next (s.raise
      { src := Src.ccBusErr, who := .core n, addr := BitVec.ofNat 64 a.toNat, acc := .write, akind := .ccpa }).settle)

/-- Interrupt offers and locks (R506 to R511, R513 to R515, R520): the most urgent source that a core can take is offered to the core
of greatest CUR; the core accepts it, or it is withdrawn after its time; a mask window ends; a source without a target is recorded
after 100 us; a pulse source is set; a lock request of a function or a core is answered, and a wait for a lock ends at its limit.
What the rules leave open in it is the model's choice: notes/assumptions/9, 113, 149, 150, 151, 152, 153. -/
def Obligations.OffersAndLocks : Prop :=
  (∀ (s : State) (src n : Nat), s.runs Blk.icu = true → leastBy (fun n => s.icuPrio n * 1024 + n) s.offerable = some src →
    s.offerCore src = some n → (s.core n).offer = none →
    let u := s.updCore n (fun c => { c with offer := some src, offerAt := s.now, withdrawing := false })
    exec .icuOffer s = .next ({ u with icu := { u.icu with last := u.icu.last.put src n } } : State).settle) ∧
  (∀ (s : State) (n : CoreId) (src : Nat), (s.core n.toNat).offer = some src → s.coreRuns n = true →
    (s.core n.toNat).withdrawing = false → exec (.icuOfferAccept n) s = .next (s.offerTake n src).settle) ∧
  (∀ (s : State) (n : CoreId) (src : Nat), (s.core n.toNat).offer = some src → (s.core n.toNat).withdrawing = false →
    s.ce .icuCtrl 15 0 ≤ s.since (s.core n.toNat).offerAt →
    exec (.icuOfferTimeout n) s = .next (s.updCore n.toNat (fun x => { x with withdrawing := true })).settle) ∧
  (∀ (s : State) (n : CoreId) (src : Nat), (s.core n.toNat).offer = some src → (s.core n.toNat).withdrawing = true →
    exec (.icuWithdrawAnswer n true) s = .next (s.offerTake n src).settle) ∧
  (∀ (s : State) (n : CoreId) (src : Nat), (s.core n.toNat).offer = some src → (s.core n.toNat).withdrawing = true →
    let u := s.updCore n.toNat (fun x => { x with offer := none, withdrawing := false })
    exec (.icuWithdrawAnswer n false) s = .next ({ u with icu := { u.icu with last := u.icu.last.put src n.toNat } } : State).settle) ∧
  (∀ (s : State) (n : CoreId), (s.core n.toNat).winOpen = true → s.reached (s.core n.toNat).winEnd = true →
    exec (.maskWindowExpire n) s = .next ((s.updCore n.toNat (fun x => { x with winOpen := false, mth := 256 })).raise
      { src := Src.icuMaskExpire, who := .core n }).settle) ∧
  (∀ (s : State) (src : BitVec 10) (t : DWord), s.icu.noTarget.look src.toNat = some (t, false) → 100000 ≤ s.since t →
    exec (.icuNoTarget src) s = .next (({ s with icu := { s.icu with
      noTarget := s.icu.noTarget.put src.toNat (t, true) } } : State).raise
      { src := Src.icuNoTarget, synd := BitVec.ofNat 160 src.toNat }).settle) ∧
  (∀ (s : State) (n : CoreId) (src : BitVec 10), Arrives s (.core n) (regAddr .icuSwset []) → (src.toNat < 16 ∨ 128 ≤ src.toNat) →
    exec (.icuSwset (.core n) src) s = .next (s.icuPulse src.toNat).settle) ∧
  (∀ (s : State) (n : CoreId) (k : BitVec 12), Arrives s (.core n) (regAddr .lktReq []) → s.runs Blk.lkt = true →
    let r := s.lkTry k.toNat (.core n)
    exec (.lktReqTry (.core n) k) s = .next (r.2.lktKeep (.core n) k r.1).settle) ∧
  (∀ (s : State) (n : CoreId) (k : BitVec 12), Arrives s (.core n) (regAddr .lktReq []) → s.runs Blk.lkt = true →
    let r := s.lkRel k.toNat (.core n)
    exec (.lktReqRel (.core n) k) s = .next (r.2.lktKeep (.core n) k r.1).settle) ∧
  (∀ (s : State) (n : CoreId) (c : CtxId) (q : QIdx) (w : LkWaiter) (e : DWord),
    s.lkt.waiters.find? (fun w => w.who.same (.core n)) = some w → w.limit = some e → s.reached e = true →
    exec (.lockWaitTimeout (.core n) c q) s = .next (({ s with lkt := { s.lkt with
      waiters := s.lkt.waiters.filter (fun x => !x.who.same (.core n)) } } : State).lkReply w.who 5).settle)

/-! ## Recovery and resets (ch. 18, 19) -/

/-- Recovery controllers (R577 to R581): heartbeats and arming; a silent primary is replaced and held, a silent standby recorded, and
when both are silent every core is held and every link frozen; the primary restarts the other; RECOVER ends the hold; a frozen
region is reset as it is released. Resets of units (R13, R351, R586, R602): commanded by the primary recovery core while RPC is
enabled, outside frozen regions, each recorded in the reset cause.
What the rules leave open in it is the model's choice: notes/assumptions/79, 100, 128, 166, 169, 170, 171, 172, 173, 174, 175,
190. -/
def Obligations.RecoveryAndUnitResets : Prop :=
  ((∀ (s : State), Arrives s (.core 0) (regAddr .flcRcHb0 []) →
     exec (.rcHeartbeat 0 false) s = .next ({ s with flc := { s.flc with
       beat0 := some s.now, monitor := s.flc.monitor || (s.flc.arm && s.flc.beat15.isSome)
       standbyLost := if s.flc.primary then false else s.flc.standbyLost } } : State).settle) ∧
   (∀ (s : State) (w : Who), Arrives s w (regAddr .flcRcCtrl []) → s.coreOrOperator w = true →
     exec (.rcArm w) s = .next ({ s with flc := { s.flc with arm := true, monitor := true } } : State).settle) ∧
   (∀ (s : State), s.watches = true → s.silent s.flc.primary = true → s.silent (!s.flc.primary) = false →
     exec .rcTakeover s = .next ((({ s with flc := { s.flc with primary := !s.flc.primary, standbyLost := true } } : State).holdCore
       (rcCore s.flc.primary).toNat).raise { src := Src.rcTakeover }).settle) ∧
   (∀ (s : State), s.watches = true → s.silent s.flc.primary = false → s.silent (!s.flc.primary) = true → s.flc.standbyLost = false →
     exec .rcStandbyLost s = .next (({ s with flc := { s.flc with standbyLost := true } } : State).raise
       { src := Src.rcStandbyLost }).settle) ∧
   (∀ (s : State), s.watches = true → s.silent false = true → s.silent true = true →
     let u := forAll allLinks (forAll allCores (s.raise { src := Src.rcBothLost }) State.holdCore) (fun t l => t.freezeLink l 0xFE)
     exec .fallbackHold s = .next ({ u with flc := { u.flc with fallback := true } } : State).settle) ∧
   (∀ (s : State), Arrives s (.core s.primaryCore) (regAddr .flcRcCtrl []) →
     exec (.rcRestart (.core s.primaryCore)) s =
       .next (s.updCore (rcCore (!s.flc.primary)).toNat (fun c => { c with held := false })).settle) ∧
   (∀ (s : State), s.operatorHere = true → s.flc.fallback = true →
     let run (c : Core) : Core := { c with held := false }
     let u := (s.updCore 0 run).updCore 15 run
     exec .recover s = .next ({ u with
       flc := { u.flc with fallback := false, monitor := false, beat0 := none, beat15 := none }
       rpc := { u.rpc with released := u.now, kickAt := u.now } } : State).settle) ∧
   (∀ (s : State) (r : BitVec 2), Arrives s (.core s.primaryCore) (regAddr .flcRelease []) →
     (s.putReg .flcRelease [] r.toNat).regionFrozen r.toNat = true →
     let u := ((s.putReg .flcRelease [] r.toNat).regionReset r.toNat).rstCause 3 9 (5 * 256 + r.toNat)
     exec (.flcReleaseRegion (.core s.primaryCore) r) s =
       .next ({ u with flc := { u.flc with regions := dropFrom u.flc.regions r.toNat } } : State).settle)) ∧
  (let may (s : State) (kind idx region : Nat) : Prop :=
     Arrives s (.core s.primaryCore) (regAddr .rpcRstCmd []) ∧ s.enabled Blk.rpc = true ∧
     (s.putReg .rpcRstCmd [] (kind * 256 + idx)).regionFrozen region = false
   let at_ (s : State) (kind idx : Nat) : State := s.putReg .rpcRstCmd [] (kind * 256 + idx)
   (∀ (s : State) (k : BitVec 5), may s 0 k.toNat (k.toNat / 8) →
     exec (.strideEngineReset (.core s.primaryCore) k) s = .next (((at_ s 0 k.toNat).seReset k.toNat).rstCause 1 9 (0 * 256 + k.toNat)).settle) ∧
   (∀ (s : State) (k : BitVec 3), may s 1 k.toNat (unitRegion k.toNat) →
     exec (.moverUnitReset (.core s.primaryCore) k) s =
       .next (((at_ s 1 k.toNat).moverReset k.toNat).rstCause 1 9 (1 * 256 + k.toNat)).settle) ∧
   (∀ (s : State) (k : BitVec 2), may s 2 k.toNat k.toNat →
     exec (.walkerQuarterReset (.core s.primaryCore) k) s =
       .next (((at_ s 2 k.toNat).requeueWalks k.toNat).rstCause 1 9 (2 * 256 + k.toNat)).settle) ∧
   (∀ (s : State) (k : BitVec 4), may s 3 k.toNat (k.toNat / 4) →
     exec (.lanePairReset (.core s.primaryCore) k) s =
       .next (((at_ s 3 k.toNat).laneReset k.toNat).rstCause 1 9 (3 * 256 + k.toNat)).settle) ∧
   (∀ (s : State) (k : CoreId), may s 4 k.toNat (coreRegion k.toNat) → k ≠ s.primaryCore →
     exec (.controlCoreReset (.core s.primaryCore) k) s =
       .next (((at_ s 4 k.toNat).coreReset k.toNat).rstCause 1 9 (4 * 256 + k.toNat)).settle) ∧
   (∀ (s : State) (k : BitVec 4), may s 6 k.toNat (k.toNat / 4) →
     exec (.clusterReset (.core s.primaryCore) k) s =
       .next (((at_ s 6 k.toNat).clusterReset k.toNat).rstCause 2 9 (6 * 256 + k.toNat)).settle))

/-- Resets of the die (R584, R585, R587 to R590, R594, R598, R600): the pins, the watchdogs, the escalation of a fault whose record is
safe, and an operator's RESET and ROLLBACK each reset the die, cold or warm; a kick and the done bit stop what they stop; the loss of
power.
What the rules leave open in it is the model's choice: notes/assumptions/9, 182, 183, 184, 186, 187, 188, 190, 191. -/
def Obligations.DieResets : Prop :=
  (∀ (s : State), exec .powerOn s = .next (s.coldReset 0).settle) ∧
  (∀ (s : State), s.powered = true → s.rpc.rstPin = true →
    exec .rstNAssert s = .next (({ s with rpc := { s.rpc with rstPin := false } } : State).coldReset 1).settle) ∧
  (∀ (s : State), s.powered = true → s.rpc.wrstPin = true → s.rpc.rstPin = true →
    exec .wrstNAssert s = .next (({ s with rpc := { s.rpc with wrstPin := false } } : State).dieReset 2 0 none).settle) ∧
  (∀ (s : State), s.rpc.rstPin = false → exec .rstNRelease s = .next (s.pinRise true s.rpc.wrstPin).settle) ∧
  (∀ (s : State), s.rpc.wrstPin = false → exec .wrstNRelease s = .next (s.pinRise s.rpc.rstPin true).settle) ∧
  (∀ (s : State), s.rpc.bootRun = true → s.rpc.done = false → s.rpc.inReset = false → s.flc.fallback = false → s.powered = true →
    2000000000 ≤ s.since s.rpc.released → exec .bootWatchdogExpire s = .next (s.dieReset 6 1 none).settle) ∧
  (∀ (s : State), s.rpc.wdogEn = true → s.rpc.inReset = false → s.flc.fallback = false →
    s.rf .rpcWdog 15 0 * 1000000 ≤ s.since s.rpc.kickAt → exec .runtimeWatchdogExpire s = .next (s.dieReset 6 0 none).settle) ∧
  (∀ (s : State) (n : Nat), s.flc.dieReset = some n → s.recordGone n = true →
    exec .escalationDieReset s = .next (s.dieReset 7 n (some n)).settle) ∧
  (∀ (s : State) (w : Who), s.operator w = true → exec (.reset w) s = .next (s.dieReset 8 (whoIndex w) none).settle) ∧
  (∀ (s : State) (w : Who), s.operator w = true → s.rpc.bootSt ≠ 3 → s.ftc.mounted = true →
    exec (.rollback w) s = .next (({ s with ftc := { s.ftc with zone := { s.ftc.zone with
      selB := !s.ftc.zone.selB, selSeq := s.ftc.zone.selSeq + 1 } } } : State).dieReset 8 (whoIndex w) none).settle) ∧
  (∀ (s : State) (n : CoreId), Arrives s (.core n) (regAddr .rpcWdogKick []) →
    exec (.wdogKick (.core n)) s = .next ({ s with rpc := { s.rpc with kickAt := s.now } } : State).settle) ∧
  (∀ (s : State) (n : CoreId), Arrives s (.core n) (regAddr .rpcBoot []) →
    exec (.bootDoneWrite (.core n)) s = .next ({ s with rpc := { s.rpc with done := true, bootRun := false, attempts := 0 } } : State).settle) ∧
  (∀ (s : State) (n : CoreId), Arrives s (.core n) (regAddr .rpcBoot []) →
    exec (.quarantineSet (.core n)) s = .next ({ s with rpc := { s.rpc with quar := true } } : State).settle) ∧
  (∀ (s : State), ∃ t : State, exec .powerLoss s = .next t.settle ∧ t.ftc = { zone := s.ftc.zone } ∧ t.rpc.islands = [] ∧
    t.ctxs = [] ∧ t.sec.minSvn = s.sec.minSvn ∧ t.sec.fuses = s.sec.fuses ∧ t.flc.lg = [])

/-- Bring-up (R34, R52, R592, R593, R597, R598): islands whose PLL locks are powered and their links begin to train, one that does not
lock is a fault; SMS and the table store start empty; the boot ROM takes an image that it accepts, or none.
What the rules leave open in it is the model's choice: notes/assumptions/9, 13, 15, 87, 153, 159, 185, 186, 189, 191, 207. -/
def Obligations.BringUp : Prop :=
  (∀ (s : State) (ls : List Nat), s.islandOn 94 = true → exec (.islandPowerUp ls) s = .next s.settle) ∧
  (∀ (s : State) (ls : List Nat), s.rpc.inReset = false → s.powered = true → s.islandOn 94 = false →
    ∃ t : State, exec (.islandPowerUp ls) s = .next t.settle ∧ t.ddl.trainAt = s.now ∧
      t.rpc.islands = s.bootIslands.filter (fun i => ls.contains i || i == 94 || i == 53) ++ [95]) ∧
  (∀ (s : State) (i : BitVec 7), s.rpc.pllBad.contains i.toNat = true → 1000000 ≤ s.since s.rpc.released →
    exec (.islandPllTimeout i) s = .next (s.condFault { src := Src.islandOff, synd := BitVec.ofNat 160 i.toNat
                                                        blk := some (BitVec.ofNat 5 (islandBlock i.toNat)) } true).settle) ∧
  (∀ (s : State), s.rpc.smsInit = false → s.islandOn 45 = true →
    exec (.smsInitDone []) s = .next ({ s with mem := { s.mem with bytes := [], lines := [] },
                                               rpc := { s.rpc with smsInit := true } } : State).settle) ∧
  (∀ (s : State), s.rpc.tstInit = false → s.rpc.smsInit = true → s.islandOn 44 = true → s.enabled Blk.pcr = false →
    exec .tstInitDone s = .next ({ s with xlt := { s.xlt with entries := [], frames := [], counters := [], seqs := [] }
                                          rpc := { s.rpc with tstInit := true } } : State).settle) ∧
  (∀ (s : State), s.rpc.inReset = false → s.ftc.mounted = true → s.rpc.tstInit = true → s.rpc.bootSt ≠ 2 → s.coreRuns 0 = true →
    s.bootPick = none → exec .bootImageLoad s = .next ({ s with rpc := { s.rpc with bootSt := 3, bootRun := false } } : State).settle) ∧
  (∀ (s : State) (b : Bool) (i : Image), s.rpc.inReset = false → s.ftc.mounted = true → s.rpc.tstInit = true → s.rpc.bootSt ≠ 2 →
    s.coreRuns 0 = true → s.bootPick = some (b, i) →
    exec .bootImageLoad s = .next (({ s with
      rpc := { s.rpc with bootSt := 2, running := some i, bootB := b, fallbackImg := b != s.ftc.zone.selB }
      flc := { s.flc with primary := false } } : State).takeSettings i).settle)

/-! ## SEC and MGT (ch. 17) -/

/-- Laps and scrubs (R398, R531 to R542): a LAP command begins a slot update, and its commit brings the lap into use; every lap steps
once after power-on; a page of a channel's sweep takes the new lap; a scrubbed page is zero.
What the rules leave open in it is the model's choice: notes/assumptions/90, 128, 154, 155, 156, 157, 158, 160, 166. -/
def Obligations.LapsAndScrubs : Prop :=
  (∀ (s : State) (link : Bool) (id : BitVec 14), Authority s → s.sec.ready = true → s.ftc.mounted = true → s.ftc.lapUpd = none →
    exec (.lap link id) s = .next (s.lapServe link id.toNat).settle) ∧
  (∀ (s : State), s.ftc.mounted = true → s.sec.fuses = true → s.sec.stepped = false → s.ftc.lapUpd = none → s.sec.lapBase ≠ lapMax →
    s.lapsOver = false →
    exec .lapStep s = .next ({ s with
      ftc := { s.ftc with lapUpd := some { seq := s.lapSeq + 1, base := s.sec.lapBase + 1, ctx := lapStepAll s.sec.lapBase s.sec.laps,
                                           link := lapStepAll s.sec.lapBase s.sec.linkLaps }, lapStepUpd := true }
      sec := { s.sec with stepped := true } } : State).settle) ∧
  (∀ (s : State) (slot : LapSlot), s.ftc.lapUpd = some slot → s.ftc.mounted = true → s.runs Blk.ftc = true → s.sec.lapBusy = none →
    s.sec.lapQ = [] →
    exec .lapCommitReport s = .next ({ s with
      ftc := { s.ftc with zone := s.ftc.zone.putLap slot, lapUpd := none, lapStepUpd := false }
      sec := { s.sec with lapBase := slot.base, laps := slot.ctx, linkLaps := slot.link, lapBusy := none
                          ready := s.sec.ready || (s.ftc.lapStepUpd && !s.lapsOver) } } : State).settle) ∧
  (∀ (s : State) (ch : BitVec 4) (r : SweepReg) (w : Sweep), s.runs Blk.sec = true → s.sec.regs.look ch.toNat = some r →
    s.sec.sweep = some w → r.finished = false → r.stands ch.toNat (s.pte r.key) (w.old.toNat.testBit 0) = true →
    let u := (s.putPte r.key (Pte.set (s.pte r.key) 9 9 (b2n (!w.old.toNat.testBit 0)))).rekey ch.toNat r w.old w.new
    exec (.sweepPageDone ch) s = .next (({ u with sec := { u.sec with
      regs := u.sec.regs.put ch.toNat { r with finished := true, cursor := 2 ^ r.lsize / 64 } } } : State).invInternal .s2page
      r.vdix.toNat (BitVec.ofNat 64 r.ca) (.sweepReg ch.toNat)).settle) ∧
  (∀ (s : State) (ch : BitVec 4) (pg : BitVec 24) (x : Scrub),
    s.sec.scrub.find? (fun x => x.chan == ch.toNat && x.page == pg.toNat) = some x → s.runs Blk.sec = true →
    let a := hbmKey (BitVec.ofNat 24 ch.toNat) (pg.toNat * 4096)
    exec (.scrubPageDone ch pg .pass) s = .next ({ s with
      sec := { s.sec with scrub := dropFrom s.sec.scrub x }
      mem := { s.mem with hbm := s.mem.hbm.filter (fun e => !(decide (a ≤ e.1 ∧ e.1 < a + 2 ^ x.lsize))) } } : State).settle) ∧
  (∀ (s : State), s.sec.entropy = true →
    exec .entropyHealthFail s = .next (({ s with sec := { s.sec with entropy := false } } : State).raise { src := Src.secEntropy }).settle) ∧
  (∀ (s : State), exec .entropyHealthPass s = .next (if s.sec.entropy then s
    else ({ s with sec := { s.sec with entropy := true } } : State).entropyServe).settle)

/-- The management network (R399, R543 to R551, R598 to R600): SPDM requests are answered; sessions of clients whose certificate chains
to an anchor are opened with its right, and ended, and wait while there is no entropy; the link of a port; CLAIM by its code, with a lockout after the third wrong one;
settings, anchors, the minimum security version and images.
What the rules leave open in it is the model's choice: notes/assumptions/4, 9, 40, 42, 90, 95, 128, 160, 161, 162, 163, 164,
165, 166. -/
def Obligations.Management : Prop :=
  (∀ (s : State) (p n : BitVec 1) (m : BitVec 3) (msg : Byte), s.spdmPath (.mgt p m) = true → msg.toNat ≠ spdmKeyExchange →
    exec (.spdmRequest (.mgt p m) msg) s = .next (s.emit (.spdm (.mgt p m) msg (spdmCodes.contains msg.toNat))).settle) ∧
  (∀ (s : State) (p : BitVec 1) (a : BitVec 64) (r : Right), s.mgtReady = true → s.mgt.up.getD p.toNat false = true →
    (s.sessionsOn p.toNat).length < 8 → s.sec.entropy = true → s.anchorRight a = some r →
    let n := ((rangeFrom 0 8).find? (fun k => !((s.sessionsOn p.toNat).map Session.num).contains k)).getD 0
    exec (.mgtSessionConnect p (some a)) s = .next ({ s with mgt := { s.mgt with
      sessions := s.mgt.sessions ++ [{ port := p.toNat, num := n, right := r, anchor := a }] } } : State).settle) ∧
  (∀ (s : State) (p : BitVec 1) (a : BitVec 64), s.mgtReady = true → s.mgt.up.getD p.toNat false = true →
    (s.sessionsOn p.toNat).length < 8 → s.sec.entropy = true → s.anchorRight a = none →
    exec (.mgtSessionConnect p (some a)) s = .next (s.raise { src := Src.mgtAuthFail }).settle) ∧
  (∀ (s : State) (p : BitVec 1) (x : Option (BitVec 64)), s.mgtReady = true → s.mgt.up.getD p.toNat false = true →
    (s.sessionsOn p.toNat).length + s.sec.hands.countP (fun h => h.1 == p.toNat) < 8 → s.sec.entropy = false →
    exec (.mgtSessionConnect p x) s = .next ({ s with sec := { s.sec with hands := s.sec.hands ++ [(p.toNat, x)] } } : State).settle) ∧
  (∀ (s : State) (p : BitVec 1) (n : BitVec 3),
    exec (.mgtSessionEnd p n) s = .next (s.endSessions (fun x => x.port == p.toNat && x.num == n.toNat)).settle) ∧
  (∀ (s : State) (p : BitVec 1), exec (.mgtLinkUp p) s = .next (s.mgtLink p.toNat true).settle) ∧
  (∀ (s : State) (p : BitVec 1),
    exec (.mgtLinkDown p) s = .next ((s.mgtLink p.toNat false).endSessions (fun x => x.port == p.toNat)).settle) ∧
  (∀ (s : State) (code : Nat) (a : BitVec 64), s.mgt.sessions.any (fun x => x.right == .claim) = true → s.rpc.bootSt ≠ 3 →
    s.rpc.quar = false → s.claimed = false → s.sec.lockout = none →
    exec (.claim code a) s = .next (if code = Config.claimCode then
        (({ s with sec := { s.sec with claimFails := 0 } } : State).setAnchors ((0, a) :: s.anchorList)).mgtDone 2
      else ({ s with sec := { s.sec with
        claimFails := s.sec.claimFails + 1
        lockout := if 3 ≤ s.sec.claimFails + 1 then some (s.after 600000000000) else none } } : State).emit
        (.mgtRefuse Why.wrongCode)).settle) ∧
  (∀ (s : State) (e : DWord), s.sec.lockout = some e → s.reached e = true →
    exec .claimLockoutExpire s = .next ({ s with sec := { s.sec with lockout := none, claimFails := 0 } } : State).settle) ∧
  (∀ (s : State) (slot : BitVec 2) (a : BitVec 64), Authority s → slot.toNat < 2 →
    let new := (slot, a) :: s.anchorList.filter (fun e => e.1 != slot)
    exec (.anchorChange slot (some a)) s = .next (((s.setAnchors new).endSessions (fun x =>
      x.right != .claim && !new.any (fun e => e.2 == x.anchor))).mgtDone 3).settle) ∧
  (∀ (s : State) (r : Settings) (i : Image), Authority s → s.rpc.running = some i → r.schema = i.schema → s.ftc.mounted = true →
    exec (.settingsCommand r) s = .next ((s.writeSettings r.schema r.body s.anchorList).mgtDone 1).settle) ∧
  (∀ (s : State) (n : Nat) (i : Image), Authority s → s.ftc.zone.image (!s.ftc.zone.selB) = some i → n ≤ i.svn → s.svnMin ≤ n →
    exec (.svnRaise n) s = .next ((({ s with sec := { s.sec with minSvn := n } } : State)).mgtDone 4).settle) ∧
  (∀ (s : State) (i : Image), s.operatorHere = true → s.ftc.mounted = true → s.imageOk i = true → s.ftc.zone.selB = false →
    exec (.update i true) s = .next (({ s with ftc := { s.ftc with zone := { s.ftc.zone with
      imageB := some i, selB := true, selSeq := s.ftc.zone.selSeq + 1 } } } : State).mgtDone 5).settle)

/-! ## Registers (ch. 19) -/

/-- Register reads (R4, R546, R602, R608, R609, R614): a read by a core or a session reaches the register and answers its value; the
LO half of a pair loads the reader's shadow of the window with the HI half, and the next read of the HI half returns the shadow; a
powered-down island refuses a session's read; a parity scan raises one fault for each bad register.
What the rules leave open in it is the model's choice: notes/assumptions/153, 159, 192, 196, 198. -/
def Obligations.RegisterReads : Prop :=
  (∀ (s : State) (n : CoreId) (a : BitVec 21), a.toNat % 4 = 0 → Arrives s (.core n) (plainAddr a.toNat) →
    exec (.pairLoRead (.core n) a) s =
      .next ((s.readAt (.core n) a.toNat).2.emit (.coreVal (.core n) (s.readAt (.core n) a.toNat).1)).settle) ∧
  (∀ (s : State) (w : Who) (a : BitVec 21), a.toNat % 4 = 0 → Arrives s w (plainAddr a.toNat) → s.reader w = true →
    exec (.statusRead w a) s = .next ((s.readAt w a.toNat).2.emit (.coreVal w (s.readAt w a.toNat).1)).settle) ∧
  (∀ (s : State) (w : Who) (a : BitVec 21), a.toNat % 4 = 0 → s.islandOn (regIsland (plainAddr a.toNat)) = false → s.reader w = true →
    exec (.statusRead w a) s = .next (s.emit (.mgtRefuse Why.islandOff)).settle) ∧
  (∀ (s : State) (n : CoreId) (a : Nat) (r h : RegName) (ix : List Nat), regAt (plainAddr a) = some (r, ix) → r.hiOf = some h →
    s.badPar = [] → s.viewOpen r = false →
    s.readAt (.core n) a = (BitVec.ofNat 32 (s.regView (.core n) r ix), { s with
      shadows := s.shadowDrop (.core n) (plainAddr a / 0x10000) ++
        [(.core n, plainAddr a, BitVec.ofNat 32 (s.regView (.core n) h ix))] })) ∧
  (∀ (s : State) (n : CoreId) (a : Nat) (r : RegName) (ix : List Nat) (old : Word), regAt (plainAddr a) = some (r, ix) →
    r.hiOf = none → r.isHi = true → s.badPar = [] → s.viewOpen r = false →
    s.shadows = [(.core n, plainAddr a - 4, old)] → 4 ≤ plainAddr a →
    s.readAt (.core n) a = (old, { s with shadows := s.shadowDrop (.core n) (plainAddr a / 0x10000) })) ∧
  (∀ (s : State) (a : BitVec 21) (ix : List Nat), regAt a.toNat = some (.bndCtrl, ix) → s.badPar = [] →
    exec (.parityScan [a]) s = .next (({ s with badPar := [a.toNat] } : State).raise
      { src := Src.regParity, addr := BitVec.ofNat 64 a.toNat, acc := .regRead, akind := .bar0 }).settle)

/-- Register writes (R5 to R7, R350, R581, R604, R606, R607, R610 to R612): a write by a core at an aligned offset stores the value, or
the old value with the written bits set, cleared or toggled; a value with a reserved encoding, and an alias write of a register with
a WO field wider than a bit, change nothing and are recorded as CFG_REJECT; BLK_CTRL, the tail and the enable of a descriptor ring,
and the release of a block have their effects. Fields by their access codes (R5, R611): RW takes the written value; RO keeps its
value; WO and reserved bits hold nothing; CE is refused while the block is enabled, LK while it is locked; SET1 never clears a bit.
A refused field keeps its value.
What the rules leave open in it is the model's choice: notes/assumptions/28, 104, 106, 159, 174, 176, 177, 193, 195, 203, 205. -/
def Obligations.RegisterWrites : Prop :=
  (let kept (s : State) (a : BitVec 21) : State := { s with badPar := dropFrom s.badPar (plainAddr a.toNat) }
   (∀ (s : State) (n : CoreId) (a : BitVec 21) (v : Word) (r : RegName) (ix : List Nat), a.toNat % 4 = 0 →
     aliasOf a.toNat = .plain → regAt (plainAddr a.toNat) = some (r, ix) → Arrives s (.core n) (plainAddr a.toNat) →
     exec (.registerWrite (.core n) (.win a) v) s = .next (if s.legal r ix v.toNat then (kept s a).regApply (.core n) r ix true v.toNat
       else s.cfgReject (.core n) (plainAddr a.toNat)).settle) ∧
   (∀ (s : State) (n : CoreId) (a : BitVec 21) (v : Word) (r : RegName) (ix : List Nat), a.toNat % 4 = 0 →
     regAt (plainAddr a.toNat) = some (r, ix) → Arrives s (.core n) (plainAddr a.toNat) → r.wideWo = false →
     let old := s.regView (.core n) r ix
     let store (w : Nat) : State := if s.legal r ix w then (kept s a).regApply (.core n) r ix false w
       else s.cfgReject (.core n) (plainAddr a.toNat)
     exec (.aliasSetWrite (.core n) a v) s = .next (store (old ||| v.toNat)).settle ∧
     exec (.aliasClearWrite (.core n) a v) s = .next (store (old - (old &&& v.toNat))).settle ∧
     exec (.aliasToggleWrite (.core n) a v) s = .next (store (old ^^^ v.toNat)).settle) ∧
   (∀ (s : State) (n : CoreId) (a : BitVec 21) (v : Word) (r : RegName) (ix : List Nat), a.toNat % 4 = 0 →
     regAt (plainAddr a.toNat) = some (r, ix) → Arrives s (.core n) (plainAddr a.toNat) → r.wideWo = true →
     exec (.aliasSetWrite (.core n) a v) s = .next (s.cfgReject (.core n) (plainAddr a.toNat)).settle) ∧
   (∀ (s : State) (n : CoreId) (b : BitVec 5) (v : Word), b.toNat < 19 → Arrives s (.core n) (regAddr .blkCtrl [b.toNat]) →
     exec (.blkCtrlWrite (.core n) b v) s = .next (s.blkWrite (.core n) b.toNat true v.toNat).settle) ∧
   (∀ (s : State) (n : CoreId) (r : BitVec 4) (v : Word), Arrives s (.core n) (regAddr .mapRingTail [r.toNat]) →
     2 ^ (s.ring r.toNat).lsize < (v - (s.ring r.toNat).head).toNat →
     exec (.mapRingTailWrite (.core n) r v) s =
       .next (s.raise { src := Src.ringRange, who := .core (BitVec.ofNat 4 r.toNat) }).settle) ∧
   (∀ (s : State) (n : CoreId) (r : BitVec 4) (v : Word), Arrives s (.core n) (regAddr .mapRingTail [r.toNat]) →
     (v - (s.ring r.toNat).head).toNat ≤ 2 ^ (s.ring r.toNat).lsize →
     exec (.mapRingTailWrite (.core n) r v) s =
       .next ((s.updRing r.toNat (fun y => { y with tail := v, stopped := false })).ringRun r.toNat 8).settle) ∧
   (∀ (s : State) (n : CoreId) (r : BitVec 4) (v : Word), Arrives s (.core n) (regAddr .mapRingCtrl [r.toNat]) →
     s.legal .mapRingCtrl [r.toNat] v.toNat = true →
     exec (.mapRingEnable (.core n) r v) s =
       .next ((s.storeFields (.core n) .mapRingCtrl [r.toNat] true v.toNat).ringEnable r.toNat (v.toNat.testBit 31)).settle) ∧
   (∀ (s : State) (b : BitVec 5), b.toNat < 19 → Arrives s (.core s.primaryCore) (regAddr .flcRelease []) →
     s.flc.blocks.contains b.toNat = false →
     exec (.flcReleaseBlock (.core s.primaryCore) b) s = .next (s.putReg .flcRelease [] (0x10 + b.toNat)).settle) ∧
   (∀ (s : State) (b : BitVec 5), b.toNat < 19 → Arrives s (.core s.primaryCore) (regAddr .flcRelease []) →
     s.flc.blocks.contains b.toNat = true →
     let u := ((s.putReg .flcRelease [] (0x10 + b.toNat)).blockReset b.toNat).rstCause 3 9 (7 * 256 + b.toNat)
     exec (.flcReleaseBlock (.core s.primaryCore) b) s =
       .next (({ u with flc := { u.flc with blocks := dropFrom u.flc.blocks b.toNat } } : State).blockStart b.toNat false u.heatL).settle)) ∧
  (∀ (f : RField) (enable lock plain : Bool) (old v : Nat),
     let o := fld old f.hi f.lo
     let n := fld v f.hi f.lo
     let x := f.write enable lock plain old v
     (f.acc = .rw → x = (n, false)) ∧ (f.acc = .ro → x = (o, false)) ∧ (f.acc = .wo ∨ f.acc = .rsv → x = (0, false)) ∧
     (f.acc = .ce → enable = false → x = (n, false)) ∧ (f.acc = .ce → enable = true → plain = true → x = (o, true)) ∧
     (f.acc = .lk → lock = false → x = (n, false)) ∧ (f.acc = .lk → lock = true → plain = true → x = (o, true)) ∧
     (f.acc = .set1 → ∀ i, o.testBit i = true → x.1.testBit i = true) ∧ (x.2 = true → x.1 = o))

/-! ## Test access port (ch. 19) -/

/-- The test access port (R617, R618): a TCK cycle acts by the controller's state and moves it; five cycles with TMS high reach
Test-Logic-Reset, where IDCODE is selected; TRST_N does the same at once; EXTEST acts only while RST_N is low.
What the rules leave open in it is the model's choice: notes/assumptions/206. -/
def Obligations.TestAccessPort : Prop :=
  (∀ (s : State) (tms tdi : Bool), s.powered = true →
    let u := s.tapAct tdi
    let n := u.tap.st.next tms
    exec (.tapTck tms tdi) s = .next ({ u with tap := { u.tap with
      st := n, instr := if n = .reset then .idcode else u.tap.instr } } : State).settle) ∧
  (∀ (s : State), exec .trstNAssert s = .next ({ s with tap := { s.tap with
    st := .reset, instr := .idcode, ir := [], dr := [], tdo := false } } : State).settle) ∧
  (∀ (t : TapSt), ((((t.next true).next true).next true).next true).next true = .reset) ∧
  (∀ (s : State), s.tap.instr = .extest → (s.tapActs = .extest ↔ s.rpc.rstPin = false)) ∧
  (∀ (s : State), s.tapActs = .idcode → (s.tapCapture).tap.dr = bitList idcode 32 ∧
    idcode % 2 = 1 ∧ idcode / 4096 % 65536 = 0x2A71)

/-! ## The block as a whole -/

/-- A step takes the command at the front of the queue and runs it on the state whose queue is the rest. On an empty queue the block
idles for one nanosecond: the model's choice (notes/assumptions/1), in which a block whose old work has ended takes its new values. -/
def Obligations.StepRunsFrontCommand : Prop :=
  (∀ (c : Instr) (s : State) (rest : List Instr), s.pending = c :: rest → step s = exec c { s with pending := rest }) ∧
  (∀ (c : Instr) (s : State), step (s.before c) = exec c s) ∧
  (∀ (s : State), s.pending = [] → step s = .next s.tick) ∧
  (∀ (s : State), s.ceWait = [] → (∀ e ∈ s.ofp.links, e.2.pauseTill ≠ s.now + 1) → s.tick = { s with now := s.now + 1 })

/-- No command is refused. A command stops only where a control-core descriptor ring names an offset outside its resource class
(R46), at one of the three commands that perform its access; every other outcome is a settled next state.
What the rules leave open in it is the model's choice: notes/assumptions/78. -/
def Obligations.EveryCommandAnswers : Prop :=
  (∀ (c : Instr) (s : State) (r : Refusal), exec c s ≠ .refused r) ∧
  (∀ (c : Instr) (s : State) (f : Fault), exec c s = .fault f → ∃ (id : Nat) (x : Byte × Nat), s.outOfClass id = some x ∧
    f = .absentAddress x.1 x.2 ∧ ((∃ e, c = .writeAccept id e) ∨ (∃ r, c = .readDataReturn id r) ∨ (∃ h, c = .hbmReadResponse id h))) ∧
  (∀ (c : Instr) (s t : State), exec c s = .next t → ∃ u : State, t = u.settle)

/-- After a die reset no context and no virtual device is defined, every pool frame is free, and XLT_BLK_CTRL.ready reads 0 until the
Table Store is ready (R52). -/
def Obligations.TableStoreAfterReset : Prop :=
  (∀ (s : State) (src inst : Nat) (cause : Option Nat), let t := s.dieReset src inst cause
    (∀ c, t.ctx? c = none) ∧ (∀ v, t.vdev v = {}) ∧ t.tstFree = 507904 ∧ t.ready Blk.xlt = false) ∧
  (∀ (s : State), s.ready Blk.xlt = true → s.rpc.tstInit = true) ∧
  (∀ (s : State), s.rpc.tstInit = false → s.rpc.smsInit = true → s.islandOn 44 = true → s.enabled Blk.pcr = false →
    exec .tstInitDone s = .next ({ s with xlt := { s.xlt with entries := [], frames := [], counters := [], seqs := [] }
                                          rpc := { s.rpc with tstInit := true } } : State).settle)

/-- What a die reset ends and what it keeps (R394, R518, R521, R574, R584, R587, R596): no round, lease, lock or session is left, and
every line of SMS is unowned; the time base runs on, and the fault log and its indices, last-gasp mode, the last-gasp log, the boot
zone and the fuses stay; the attempts count it. A cold reset starts the time at 0 and clears the log.
What the rules leave open in it is the model's choice: notes/assumptions/183, 191. -/
def Obligations.ResetEndsAndKeeps : Prop :=
  (∀ (s : State) (src inst : Nat) (cause : Option Nat), let t := s.dieReset src inst cause
    t.map.rounds = [] ∧ t.bnd = {} ∧ t.lkt = {} ∧ t.mgt.sessions = [] ∧ t.pcr = {} ∧ t.reqs = [] ∧ (∀ a, (t.line a).owned = false) ∧
    t.now = s.now ∧ t.flc.log = s.flc.log ∧ t.flc.prod = s.flc.prod ∧ t.flc.cons = s.flc.cons ∧ t.flc.spill = s.flc.spill ∧
    t.flc.lastgasp = s.flc.lastgasp ∧ t.flc.lg = s.flc.lg ∧ t.ftc = { zone := s.ftc.zone } ∧ t.sec.fuses = s.sec.fuses ∧
    t.rpc.attempts = (if src = 8 then 0 else if s.rpc.done then s.rpc.attempts else min 15 (s.rpc.attempts + 1)) ∧
    (∀ r ix, t.reg r ix = r.resetVal)) ∧
  (∀ (s : State) (src : Nat), let t := s.coldReset src
    t.now = 0 ∧ t.rpc.attempts = 0 ∧ t.flc.log = [] ∧ t.flc.prod = 0 ∧ t.flc.lastgasp = false ∧ t.flc.lg = s.flc.lg ∧
    t.ctxs = [] ∧ t.bnd = {} ∧ t.lkt = {} ∧ t.mgt.sessions = [] ∧ t.ftc = { zone := s.ftc.zone } ∧ (∀ r ix, t.reg r ix = r.resetVal))

/-- XLT_TST_FREE at 0x0400 of the XLT window counts the free frames, XLT_TST_SEQFREE at 0x0408 the free sequence descriptors; after
a die reset they read 507,904 and 131,072 (R73, R75). -/
def Obligations.TableStoreCounters : Prop :=
  regAddr .xltTstFree [] = 0x40000 + 0x400 ∧ regAddr .xltTstSeqfree [] = 0x40000 + 0x408 ∧
  (∀ (s : State) (w : Who), s.regView w .xltTstFree [] = 507904 - s.xlt.frames.length ∧ s.regView w .xltTstFree [] < 2 ^ 19 ∧
    s.regView w .xltTstSeqfree [] = 131072 - s.xlt.seqs.length ∧ s.regView w .xltTstSeqfree [] < 2 ^ 18) ∧
  (∀ (s : State) (src inst : Nat) (cause : Option Nat) (w : Who), let t := s.dieReset src inst cause
    t.regView w .xltTstFree [] = 507904 ∧ t.regView w .xltTstSeqfree [] = 131072) ∧
  (∀ f ∈ (RegName.row .xltTstFree).fields, f.acc = .ro ∨ f.acc = .rsv) ∧
  (∀ f ∈ (RegName.row .xltTstSeqfree).fields, f.acc = .ro ∨ f.acc = .rsv)

/-- The reset state is settled, knows its sources without a target, and holds no waiting command. -/
def Obligations.ResetIsSettled : Prop := Settled State.reset ∧ TargetlessKnown State.reset ∧ State.reset.pending = []

/-- Every step from a settled state that answers a next state answers a settled one: no fault waits for its reaction, and each
interrupt line that FLC drives follows its cause, pending exactly as R505 gives (R505, R557, R568). -/
def Obligations.EveryStepKeepsSettled : Prop :=
  ∀ (s t : State), Settled s → step s = .next t → Settled t

/-- Every step keeps known which enabled pending sources have no eligible core, each with the time since when (R511). -/
def Obligations.EveryStepKeepsTargetlessKnown : Prop :=
  ∀ (s t : State), TargetlessKnown s → step s = .next t → TargetlessKnown t

/-- The end of a command in a state in which no reaction and no lock drop waits changes the interrupt lines alone: which sources are
pending, their causes, and the sources without a target. With it, a completion statement is a frame: every piece of state that its
next state does not name stays. -/
def Obligations.SettlingChangesLinesOnly : Prop :=
  ∀ (s : State), s.flc.todo = [] → s.lkt.dropWait = [] →
    s.settle = { s with icu := { s.icu with pend := s.settle.icu.pend, causes := s.settle.icu.causes,
                                            noTarget := s.settle.icu.noTarget } } ∧
    (∀ n, n < 32 ∨ 46 < n → (n ∈ s.settle.icu.pend ↔ n ∈ s.icu.pend))

/-! ## Memory and isolation (ch. 01, 02, 17) -/

/-- A write of SMS under an owner, on lines that are not poisoned, reads back under that owner, keeps the canonical form of the memory,
and leaves every byte of every other line (R30, R31, R62). -/
def Obligations.SmsWriteReadsBack : Prop :=
  ∀ (s : State) (a : Nat) (bs : List Byte) (o : CtxId) (who : Who), s.mem.bytes.wf = true → (∀ x, (s.line x).poison = false) →
    let t := s.smsWrite a bs (some o) false
    t.mem.bytes.wf = true ∧ t.smsRead a bs.length (some o) who = (bs, false, t) ∧
    (∀ x, x < a / 64 * 64 ∨ (a + bs.length + 63) / 64 * 64 ≤ x → t.mem.bytes.read x = s.mem.bytes.read x)

/-- Owner tags (R62, R521): within a line that is not poisoned, a read under an OWNER that differs from its tag, or of an unowned line,
returns zeros and records TAG_MISMATCH; a partial write under another OWNER sets the tag and leaves zeros in the rest of the line. What
a read under an OWNER returns depends on the bytes of that owner's lines alone. -/
def Obligations.OwnerTags : Prop :=
  (∀ (s : State) (a n : Nat) (o : CtxId) (who : Who), 0 < n → a % 64 + n ≤ 64 → (s.line (a / 64 * 64)).poison = false →
    ((s.line (a / 64 * 64)).owned = false ∨ (s.line (a / 64 * 64)).tag ≠ o) →
    s.smsRead a n (some o) who = (List.replicate n 0, false, s.raise { src := Src.tagMismatch, who := who, acc := .read })) ∧
  (∀ (s : State) (a : Nat) (bs : List Byte) (o : CtxId), 0 < bs.length → bs.length < 64 → a % 64 + bs.length ≤ 64 →
    s.mem.bytes.wf = true → (s.line (a / 64 * 64)).poison = false →
    ((s.line (a / 64 * 64)).owned = false ∨ (s.line (a / 64 * 64)).tag ≠ o) →
    let t := s.smsWrite a bs (some o) false
    (t.line (a / 64 * 64)).tag = o ∧ (t.line (a / 64 * 64)).owned = true ∧
    (∀ x, a / 64 * 64 ≤ x → x < a / 64 * 64 + 64 → (x < a ∨ a + bs.length ≤ x) → t.mem.bytes.read x = 0)) ∧
  (∀ (s t : State) (a n : Nat) (o : CtxId) (w v : Who), s.mem.lines = t.mem.lines →
    (∀ x, (s.line (x / 64 * 64)).owned = true → (s.line (x / 64 * 64)).tag = o → s.mem.bytes.read x = t.mem.bytes.read x) →
    (s.smsRead a n (some o) w).1 = (t.smsRead a n (some o) v).1 ∧
    (s.smsRead a n (some o) w).2.1 = (t.smsRead a n (some o) v).2.1)

/-- Locks (R255, R512, R515, R516): a try that returns 0 found the lock free, one that returns 4 found it abandoned, and either makes
the caller its owner; every other result leaves all as it was; a release by another returns 7 and changes nothing; the owner's release
grants the lock to its first waiter or frees it; no other lock changes. -/
def Obligations.LockOwnership : Prop :=
  (∀ (s : State) (k : Nat) (w : LockOwner), let r := s.lkTry k w
    (r.1 = 0 ↔ s.lock k = none) ∧ (r.1 = 4 ↔ s.lock k = some .abandoned) ∧
    (r.1 = 0 ∨ r.1 = 4 → r.2.lock k = some (.held w)) ∧ (r.1 ≠ 0 → r.1 ≠ 4 → r.2 = s) ∧
    (∀ j, j ≠ k → r.2.lock j = s.lock j)) ∧
  (∀ (s : State) (k : Nat) (w : LockOwner), (∀ o, s.lock k = some (.held o) → o.same w = false) → s.lkRel k w = (7, s)) ∧
  (∀ (s : State) (k : Nat) (w o : LockOwner), s.lock k = some (.held o) → o.same w = true →
    (s.lkRel k w).1 = 0 ∧
    (∀ x, s.lkt.waiters.find? (fun y => y.lk == k) = some x → (s.lkRel k w).2.lock k = some (.held x.who)) ∧
    (s.lkt.waiters.find? (fun y => y.lk == k) = none → (s.lkRel k w).2 = s.setLock k none) ∧
    (∀ j, j ≠ k → (s.lkRel k w).2.lock j = s.lock j))

/-! ## Rules stated whole -/

/-- CP.EOI of a source that is active on the issuing core ends it and returns code 0; RPR comes from the sources that stay active; a
level source whose cause is still present becomes pending again. CP.EOI of a source that is not active returns code 7 and changes
nothing (R509). -/
def Obligations.EndOfInterrupt : Prop :=
  (∀ (s : State) (n : CoreId) (src : Nat) (rest : List CpOp), s.coreRuns n = true → (s.core n.toNat).block = .eoi src :: rest →
    s.storesGranted n = true → src ∈ (s.core n.toNat).active → n.toNat < s.icu.cores.length →
    ∃ t : State, exec (.cpCommit n) s = .next t.settle ∧ src ∉ (t.core n.toNat).active ∧ (t.core n.toNat).result = 0 ∧
      (∀ x, x ≠ src → (x ∈ (t.core n.toNat).active ↔ x ∈ (s.core n.toNat).active)) ∧
      t.corePrio (t.core n.toNat) = ((s.core n.toNat).active.filter (fun x => decide (x ≠ src))).foldl
        (fun m x => min m (s.icuPrio x)) 256 ∧
      (icuPulseKind src = false → src ∈ s.icu.causes → src ∈ t.icu.pend)) ∧
  (∀ (s : State) (n : CoreId) (src : Nat) (rest : List CpOp), s.coreRuns n = true → (s.core n.toNat).block = .eoi src :: rest →
    s.storesGranted n = true → src ∉ (s.core n.toNat).active →
    exec (.cpCommit n) s = .next ((s.updCore n.toNat (fun c => { c with block := rest })).updCore n.toNat (fun c =>
      { c with result := 7 })).settle)

/-- Q.CREATE with RLX = 1 is refused with result 2 when the context's RLXCAP is 0, and with result 3 when the context already has two
relaxed queues (R163). -/
def Obligations.RelaxedQueueLimit : Prop :=
  (∀ s t c q x f y, Issues s c q 0xC8 x t → (t.countIssue c q).ctlFn c = some f →
    let u := t.countIssue c q
    let lsize := fld (J.imm2 x.w) 28 24
    fld (J.md x.w) 3 1 < 4 → 7 ≤ lsize → lsize ≤ 16 → x.aVal.toNat < 2 ^ 57 → x.aVal.toNat % 4096 = 0 →
    u.lifeIn f (lifeCtx x) = some y → (J.md x.w).testBit 0 = true → y.rlxcap = false →
    exec (.qCreate c q) s = .next (u.result c q x.w 2 none).settle) ∧
  (∀ s t c q x f y ps, Issues s c q 0xC8 x t → (t.countIssue c q).ctlFn c = some f →
    let u := t.countIssue c q
    let lsize := fld (J.imm2 x.w) 28 24
    fld (J.md x.w) 3 1 < 4 → 7 ≤ lsize → lsize ≤ 16 → x.aVal.toNat < 2 ^ 57 → x.aVal.toNat % 4096 = 0 →
    u.lifeIn f (lifeCtx x) = some y → y.evset = true → (y.q (lifeQ x)).state = .undefined → (y.q (lifeQ x)).resetting = none →
    u.stagingPages (lifeCtx x) x.aVal.toNat (pagesOf x.aVal.toNat (32 * 2 ^ lsize)) = some ps →
    (J.md x.w).testBit 0 = true → y.rlxcap = true → 2 ≤ (y.queues.filter Queue.rlx).length →
    exec (.qCreate c q) s = .next (u.result c q x.w 3 none).settle)
end

