-- ==== Sys2Proof/Laws/Maps.lean ====
section
/-! SUPPORT. Laws of maps and of byte memory: what is read after a write, and the canonical form. -/

namespace Sys2Proof.Machine

theorem Map.look_put_self {α : Type} (m : Map α) (n : Nat) (v : α) : (m.put n v).look n = some v := by
  induction m with
  | nil => simp [Map.put, Map.look]
  | cons p m ih =>
    obtain ⟨k, w⟩ := p
    simp only [Map.put]
    split
    · simp [Map.look]
    · split
      · simp [Map.look]
      · rename_i h1 h2
        simp [Map.look, h2, ih]

theorem Map.look_put_other {α : Type} (m : Map α) (n k : Nat) (v : α) (h : k ≠ n) : (m.put n v).look k = m.look k := by
  induction m with
  | nil => simp [Map.put, Map.look, h]
  | cons p m ih =>
    obtain ⟨j, w⟩ := p
    simp only [Map.put]
    split
    · simp [Map.look, h]
    · split
      · rename_i h1 h2
        subst h2
        simp [Map.look, h]
      · simp [Map.look, ih]

theorem Map.look_upd_self {α : Type} (m : Map α) (n : Nat) (f : α → α) : (m.upd n f).look n = (m.look n).map f := by
  unfold Map.upd
  cases h : m.look n with
  | none => simp [h]
  | some v => simp [Map.look_put_self]

theorem Map.look_upd_other {α : Type} (m : Map α) (n k : Nat) (f : α → α) (h : k ≠ n) : (m.upd n f).look k = m.look k := by
  unfold Map.upd
  cases m.look n with
  | none => rfl
  | some v => exact Map.look_put_other m n k _ h

theorem Map.upd_absent {α : Type} (m : Map α) (n : Nat) (f : α → α) (h : m.look n = none) : m.upd n f = m := by
  simp [Map.upd, h]

/-- The keys of a map filled from a list. -/
theorem Map.look_fold_put {α : Type} (l : List Nat) (m : Map α) (f : Nat → α) (n : Nat) :
    ((l.foldl (fun m k => m.put k (f k)) m).look n).isSome = (decide (n ∈ l) || (m.look n).isSome) := by
  induction l generalizing m with
  | nil => simp
  | cons k l ih =>
    simp only [List.foldl, ih]
    by_cases h : n = k
    · subst h; simp [Map.look_put_self]
    · simp [Map.look_put_other _ _ _ _ h, h]

/-! ## Byte memory -/

theorem Memory.read_above (m : Memory) (lo a : Nat) (h : Memory.sortedAbove (some lo) m = true) (ha : a ≤ lo) :
    m.read a = 0 := by
  induction m generalizing lo with
  | nil => rfl
  | cons q m ih =>
    obtain ⟨j, d⟩ := q
    simp only [Memory.sortedAbove, Bool.and_eq_true, decide_eq_true_eq] at h
    have hj : a ≠ j := by omega
    simp only [Memory.read, hj, if_false]
    exact ih j h.2 (by omega)

theorem Memory.read_write_above (m : Memory) (lo : Option Nat) (a : Nat) (b : Byte) (h : Memory.sortedAbove lo m = true) :
    (m.write a b).read a = b := by
  induction m generalizing lo with
  | nil =>
    simp only [Memory.write]
    split
    · rename_i hb
      exact hb.symm
    · simp [Memory.read]
  | cons p m ih =>
    obtain ⟨k, c⟩ := p
    simp only [Memory.sortedAbove, Bool.and_eq_true, decide_eq_true_eq] at h
    simp only [Memory.write]
    split
    · rename_i hlt
      split
      · rename_i hb
        have hk : a ≠ k := by omega
        simp only [Memory.read, hk, if_false]
        rw [Memory.read_above m k a h.2 (by omega), hb]
      · simp [Memory.read]
    · split
      · rename_i hk
        split
        · rename_i hb
          rw [Memory.read_above m k a h.2 (by omega), hb]
        · simp [Memory.read]
      · rename_i hk
        simp only [Memory.read, hk, if_false]
        exact ih (some k) h.2

/-- A byte written reads back. -/
theorem Memory.read_write_self (m : Memory) (a : Nat) (b : Byte) (h : m.wf = true) : (m.write a b).read a = b :=
  Memory.read_write_above m none a b h

/-- Every other byte keeps its value. -/
theorem Memory.read_write_other (m : Memory) (a x : Nat) (b : Byte) (h : x ≠ a) : (m.write a b).read x = m.read x := by
  induction m with
  | nil =>
    simp only [Memory.write]
    split <;> simp [Memory.read, h]
  | cons p m ih =>
    obtain ⟨k, c⟩ := p
    simp only [Memory.write]
    split
    · split <;> simp [Memory.read, h]
    · split
      · rename_i hk
        subst hk
        split <;> simp [Memory.read, h]
      · simp [Memory.read, ih]

theorem Memory.sortedAbove_weaken (m : Memory) (lo : Option Nat) (a : Nat) (h : Memory.sortedAbove (some a) m = true)
    (hlo : ∀ l, lo = some l → l < a) : Memory.sortedAbove lo m = true := by
  cases m with
  | nil => rfl
  | cons q m =>
    obtain ⟨j, d⟩ := q
    simp only [Memory.sortedAbove, Bool.and_eq_true, decide_eq_true_eq] at h ⊢
    refine ⟨⟨?_, h.1.2⟩, h.2⟩
    cases lo with
    | none => rfl
    | some l =>
      have := hlo l rfl
      have := h.1.1
      simp only [decide_eq_true_eq]
      omega

theorem Memory.sortedAbove_cons (m : Memory) (lo : Option Nat) (a : Nat) (b : Byte) (hb : b ≠ 0)
    (h : Memory.sortedAbove (some a) m = true) (hlo : ∀ l, lo = some l → l < a) :
    Memory.sortedAbove lo ((a, b) :: m) = true := by
  simp only [Memory.sortedAbove, Bool.and_eq_true, decide_eq_true_eq]
  refine ⟨⟨?_, hb⟩, h⟩
  cases lo with
  | none => rfl
  | some l => simpa using hlo l rfl

theorem Memory.sortedAbove_write (m : Memory) (a : Nat) (b : Byte) (lo : Option Nat) (h : Memory.sortedAbove lo m = true)
    (hlo : ∀ l, lo = some l → l < a) : Memory.sortedAbove lo (m.write a b) = true := by
  induction m generalizing lo with
  | nil =>
    simp only [Memory.write]
    split
    · rfl
    · rename_i hb
      exact Memory.sortedAbove_cons [] lo a b hb rfl hlo
  | cons p m ih =>
    obtain ⟨k, c⟩ := p
    have h' := h
    simp only [Memory.sortedAbove, Bool.and_eq_true, decide_eq_true_eq] at h'
    simp only [Memory.write]
    split
    · rename_i hlt
      split
      · exact h
      · rename_i hb
        refine Memory.sortedAbove_cons _ lo a b hb ?_ hlo
        exact Memory.sortedAbove_cons m (some a) k c h'.1.2 h'.2 (by intro l hl; cases hl; exact hlt)
    · split
      · rename_i hk
        subst hk
        split
        · exact Memory.sortedAbove_weaken m lo a h'.2 hlo
        · rename_i hb
          exact Memory.sortedAbove_cons m lo a b hb h'.2 hlo
      · rename_i h1 h2
        simp only [Memory.sortedAbove, Bool.and_eq_true, decide_eq_true_eq]
        refine ⟨h'.1, ih (some k) h'.2 ?_⟩
        intro l hl
        cases hl
        omega

theorem Memory.wf_write (m : Memory) (a : Nat) (b : Byte) (h : m.wf = true) : (m.write a b).wf = true :=
  Memory.sortedAbove_write m a b none h (by simp)

theorem Memory.wf_writeN (m : Memory) (a : Nat) (bs : List Byte) (h : m.wf = true) : (m.writeN a bs).wf = true := by
  induction bs generalizing m a with
  | nil => exact h
  | cons b bs ih => exact ih (m.write a b) (a + 1) (Memory.wf_write m a b h)

theorem Memory.read_writeN_other (m : Memory) (a x : Nat) (bs : List Byte) (h : x < a ∨ a + bs.length ≤ x) :
    (m.writeN a bs).read x = m.read x := by
  induction bs generalizing m a with
  | nil => rfl
  | cons b bs ih =>
    simp only [List.length_cons] at h
    have h1 : x ≠ a := by omega
    have h2 : x < a + 1 ∨ a + 1 + bs.length ≤ x := by omega
    exact (ih (m.write a b) (a + 1) h2).trans (Memory.read_write_other m a x b h1)

theorem Memory.readN_length (m : Memory) (a n : Nat) : (m.readN a n).length = n := by
  induction n generalizing a with
  | zero => rfl
  | succ n ih => simp [Memory.readN, ih]

end Sys2Proof.Machine
end

