-- ==== Sys2Proof/Laws/State.lean ====
section
/-! SUPPORT. Each named update of State, field by field: what it leaves as it was. -/

namespace Sys2Proof.Machine

/-! `State.putReg` changes `regs`. -/

@[simp] theorem State.putReg_pending (s : State) (r : RegName) (ix : List Nat) (v : Nat) : (s.putReg r ix v).pending = s.pending := rfl
@[simp] theorem State.putReg_now (s : State) (r : RegName) (ix : List Nat) (v : Nat) : (s.putReg r ix v).now = s.now := rfl
@[simp] theorem State.putReg_nextId (s : State) (r : RegName) (ix : List Nat) (v : Nat) : (s.putReg r ix v).nextId = s.nextId := rfl
@[simp] theorem State.putReg_free (s : State) (r : RegName) (ix : List Nat) (v : Nat) : (s.putReg r ix v).free = s.free := rfl
@[simp] theorem State.putReg_force (s : State) (r : RegName) (ix : List Nat) (v : Nat) : (s.putReg r ix v).force = s.force := rfl
@[simp] theorem State.putReg_ceWait (s : State) (r : RegName) (ix : List Nat) (v : Nat) : (s.putReg r ix v).ceWait = s.ceWait := rfl
@[simp] theorem State.putReg_badPar (s : State) (r : RegName) (ix : List Nat) (v : Nat) : (s.putReg r ix v).badPar = s.badPar := rfl
@[simp] theorem State.putReg_shadows (s : State) (r : RegName) (ix : List Nat) (v : Nat) : (s.putReg r ix v).shadows = s.shadows := rfl
@[simp] theorem State.putReg_mem (s : State) (r : RegName) (ix : List Nat) (v : Nat) : (s.putReg r ix v).mem = s.mem := rfl
@[simp] theorem State.putReg_ddl (s : State) (r : RegName) (ix : List Nat) (v : Nat) : (s.putReg r ix v).ddl = s.ddl := rfl
@[simp] theorem State.putReg_ctxs (s : State) (r : RegName) (ix : List Nat) (v : Nat) : (s.putReg r ix v).ctxs = s.ctxs := rfl
@[simp] theorem State.putReg_dqe (s : State) (r : RegName) (ix : List Nat) (v : Nat) : (s.putReg r ix v).dqe = s.dqe := rfl
@[simp] theorem State.putReg_issued (s : State) (r : RegName) (ix : List Nat) (v : Nat) : (s.putReg r ix v).issued = s.issued := rfl
@[simp] theorem State.putReg_pfaults (s : State) (r : RegName) (ix : List Nat) (v : Nat) : (s.putReg r ix v).pfaults = s.pfaults := rfl
@[simp] theorem State.putReg_reqs (s : State) (r : RegName) (ix : List Nat) (v : Nat) : (s.putReg r ix v).reqs = s.reqs := rfl
@[simp] theorem State.putReg_helds (s : State) (r : RegName) (ix : List Nat) (v : Nat) : (s.putReg r ix v).helds = s.helds := rfl
@[simp] theorem State.putReg_xlt (s : State) (r : RegName) (ix : List Nat) (v : Nat) : (s.putReg r ix v).xlt = s.xlt := rfl
@[simp] theorem State.putReg_map (s : State) (r : RegName) (ix : List Nat) (v : Nat) : (s.putReg r ix v).map = s.map := rfl
@[simp] theorem State.putReg_pcr (s : State) (r : RegName) (ix : List Nat) (v : Nat) : (s.putReg r ix v).pcr = s.pcr := rfl
@[simp] theorem State.putReg_ftc (s : State) (r : RegName) (ix : List Nat) (v : Nat) : (s.putReg r ix v).ftc = s.ftc := rfl
@[simp] theorem State.putReg_hpx (s : State) (r : RegName) (ix : List Nat) (v : Nat) : (s.putReg r ix v).hpx = s.hpx := rfl
@[simp] theorem State.putReg_crg (s : State) (r : RegName) (ix : List Nat) (v : Nat) : (s.putReg r ix v).crg = s.crg := rfl
@[simp] theorem State.putReg_ofp (s : State) (r : RegName) (ix : List Nat) (v : Nat) : (s.putReg r ix v).ofp = s.ofp := rfl
@[simp] theorem State.putReg_bnd (s : State) (r : RegName) (ix : List Nat) (v : Nat) : (s.putReg r ix v).bnd = s.bnd := rfl
@[simp] theorem State.putReg_icu (s : State) (r : RegName) (ix : List Nat) (v : Nat) : (s.putReg r ix v).icu = s.icu := rfl
@[simp] theorem State.putReg_lkt (s : State) (r : RegName) (ix : List Nat) (v : Nat) : (s.putReg r ix v).lkt = s.lkt := rfl
@[simp] theorem State.putReg_sec (s : State) (r : RegName) (ix : List Nat) (v : Nat) : (s.putReg r ix v).sec = s.sec := rfl
@[simp] theorem State.putReg_mgt (s : State) (r : RegName) (ix : List Nat) (v : Nat) : (s.putReg r ix v).mgt = s.mgt := rfl
@[simp] theorem State.putReg_flc (s : State) (r : RegName) (ix : List Nat) (v : Nat) : (s.putReg r ix v).flc = s.flc := rfl
@[simp] theorem State.putReg_rpc (s : State) (r : RegName) (ix : List Nat) (v : Nat) : (s.putReg r ix v).rpc = s.rpc := rfl
@[simp] theorem State.putReg_tap (s : State) (r : RegName) (ix : List Nat) (v : Nat) : (s.putReg r ix v).tap = s.tap := rfl
@[simp] theorem State.putReg_out (s : State) (r : RegName) (ix : List Nat) (v : Nat) : (s.putReg r ix v).out = s.out := rfl

/-! `State.rstCause` changes `rpc`. -/

@[simp] theorem State.rstCause_pending (s : State) (a b n : Nat) : (s.rstCause a b n).pending = s.pending := by unfold State.rstCause; rfl
@[simp] theorem State.rstCause_now (s : State) (a b n : Nat) : (s.rstCause a b n).now = s.now := by unfold State.rstCause; rfl
@[simp] theorem State.rstCause_nextId (s : State) (a b n : Nat) : (s.rstCause a b n).nextId = s.nextId := by unfold State.rstCause; rfl
@[simp] theorem State.rstCause_free (s : State) (a b n : Nat) : (s.rstCause a b n).free = s.free := by unfold State.rstCause; rfl
@[simp] theorem State.rstCause_regs (s : State) (a b n : Nat) : (s.rstCause a b n).regs = s.regs := by unfold State.rstCause; rfl
@[simp] theorem State.rstCause_force (s : State) (a b n : Nat) : (s.rstCause a b n).force = s.force := by unfold State.rstCause; rfl
@[simp] theorem State.rstCause_ceWait (s : State) (a b n : Nat) : (s.rstCause a b n).ceWait = s.ceWait := by unfold State.rstCause; rfl
@[simp] theorem State.rstCause_badPar (s : State) (a b n : Nat) : (s.rstCause a b n).badPar = s.badPar := by unfold State.rstCause; rfl
@[simp] theorem State.rstCause_shadows (s : State) (a b n : Nat) : (s.rstCause a b n).shadows = s.shadows := by unfold State.rstCause; rfl
@[simp] theorem State.rstCause_mem (s : State) (a b n : Nat) : (s.rstCause a b n).mem = s.mem := by unfold State.rstCause; rfl
@[simp] theorem State.rstCause_ddl (s : State) (a b n : Nat) : (s.rstCause a b n).ddl = s.ddl := by unfold State.rstCause; rfl
@[simp] theorem State.rstCause_ctxs (s : State) (a b n : Nat) : (s.rstCause a b n).ctxs = s.ctxs := by unfold State.rstCause; rfl
@[simp] theorem State.rstCause_dqe (s : State) (a b n : Nat) : (s.rstCause a b n).dqe = s.dqe := by unfold State.rstCause; rfl
@[simp] theorem State.rstCause_issued (s : State) (a b n : Nat) : (s.rstCause a b n).issued = s.issued := by unfold State.rstCause; rfl
@[simp] theorem State.rstCause_pfaults (s : State) (a b n : Nat) : (s.rstCause a b n).pfaults = s.pfaults := by unfold State.rstCause; rfl
@[simp] theorem State.rstCause_reqs (s : State) (a b n : Nat) : (s.rstCause a b n).reqs = s.reqs := by unfold State.rstCause; rfl
@[simp] theorem State.rstCause_helds (s : State) (a b n : Nat) : (s.rstCause a b n).helds = s.helds := by unfold State.rstCause; rfl
@[simp] theorem State.rstCause_xlt (s : State) (a b n : Nat) : (s.rstCause a b n).xlt = s.xlt := by unfold State.rstCause; rfl
@[simp] theorem State.rstCause_map (s : State) (a b n : Nat) : (s.rstCause a b n).map = s.map := by unfold State.rstCause; rfl
@[simp] theorem State.rstCause_pcr (s : State) (a b n : Nat) : (s.rstCause a b n).pcr = s.pcr := by unfold State.rstCause; rfl
@[simp] theorem State.rstCause_ftc (s : State) (a b n : Nat) : (s.rstCause a b n).ftc = s.ftc := by unfold State.rstCause; rfl
@[simp] theorem State.rstCause_hpx (s : State) (a b n : Nat) : (s.rstCause a b n).hpx = s.hpx := by unfold State.rstCause; rfl
@[simp] theorem State.rstCause_crg (s : State) (a b n : Nat) : (s.rstCause a b n).crg = s.crg := by unfold State.rstCause; rfl
@[simp] theorem State.rstCause_ofp (s : State) (a b n : Nat) : (s.rstCause a b n).ofp = s.ofp := by unfold State.rstCause; rfl
@[simp] theorem State.rstCause_bnd (s : State) (a b n : Nat) : (s.rstCause a b n).bnd = s.bnd := by unfold State.rstCause; rfl
@[simp] theorem State.rstCause_icu (s : State) (a b n : Nat) : (s.rstCause a b n).icu = s.icu := by unfold State.rstCause; rfl
@[simp] theorem State.rstCause_lkt (s : State) (a b n : Nat) : (s.rstCause a b n).lkt = s.lkt := by unfold State.rstCause; rfl
@[simp] theorem State.rstCause_sec (s : State) (a b n : Nat) : (s.rstCause a b n).sec = s.sec := by unfold State.rstCause; rfl
@[simp] theorem State.rstCause_mgt (s : State) (a b n : Nat) : (s.rstCause a b n).mgt = s.mgt := by unfold State.rstCause; rfl
@[simp] theorem State.rstCause_flc (s : State) (a b n : Nat) : (s.rstCause a b n).flc = s.flc := by unfold State.rstCause; rfl
@[simp] theorem State.rstCause_tap (s : State) (a b n : Nat) : (s.rstCause a b n).tap = s.tap := by unfold State.rstCause; rfl
@[simp] theorem State.rstCause_out (s : State) (a b n : Nat) : (s.rstCause a b n).out = s.out := by unfold State.rstCause; rfl

/-! `State.updCtx` changes `ctxs`. -/

@[simp] theorem State.updCtx_pending (s : State) (c : CtxId) (f : Ctx → Ctx) : (s.updCtx c f).pending = s.pending := rfl
@[simp] theorem State.updCtx_now (s : State) (c : CtxId) (f : Ctx → Ctx) : (s.updCtx c f).now = s.now := rfl
@[simp] theorem State.updCtx_nextId (s : State) (c : CtxId) (f : Ctx → Ctx) : (s.updCtx c f).nextId = s.nextId := rfl
@[simp] theorem State.updCtx_free (s : State) (c : CtxId) (f : Ctx → Ctx) : (s.updCtx c f).free = s.free := rfl
@[simp] theorem State.updCtx_regs (s : State) (c : CtxId) (f : Ctx → Ctx) : (s.updCtx c f).regs = s.regs := rfl
@[simp] theorem State.updCtx_force (s : State) (c : CtxId) (f : Ctx → Ctx) : (s.updCtx c f).force = s.force := rfl
@[simp] theorem State.updCtx_ceWait (s : State) (c : CtxId) (f : Ctx → Ctx) : (s.updCtx c f).ceWait = s.ceWait := rfl
@[simp] theorem State.updCtx_badPar (s : State) (c : CtxId) (f : Ctx → Ctx) : (s.updCtx c f).badPar = s.badPar := rfl
@[simp] theorem State.updCtx_shadows (s : State) (c : CtxId) (f : Ctx → Ctx) : (s.updCtx c f).shadows = s.shadows := rfl
@[simp] theorem State.updCtx_mem (s : State) (c : CtxId) (f : Ctx → Ctx) : (s.updCtx c f).mem = s.mem := rfl
@[simp] theorem State.updCtx_ddl (s : State) (c : CtxId) (f : Ctx → Ctx) : (s.updCtx c f).ddl = s.ddl := rfl
@[simp] theorem State.updCtx_dqe (s : State) (c : CtxId) (f : Ctx → Ctx) : (s.updCtx c f).dqe = s.dqe := rfl
@[simp] theorem State.updCtx_issued (s : State) (c : CtxId) (f : Ctx → Ctx) : (s.updCtx c f).issued = s.issued := rfl
@[simp] theorem State.updCtx_pfaults (s : State) (c : CtxId) (f : Ctx → Ctx) : (s.updCtx c f).pfaults = s.pfaults := rfl
@[simp] theorem State.updCtx_reqs (s : State) (c : CtxId) (f : Ctx → Ctx) : (s.updCtx c f).reqs = s.reqs := rfl
@[simp] theorem State.updCtx_helds (s : State) (c : CtxId) (f : Ctx → Ctx) : (s.updCtx c f).helds = s.helds := rfl
@[simp] theorem State.updCtx_xlt (s : State) (c : CtxId) (f : Ctx → Ctx) : (s.updCtx c f).xlt = s.xlt := rfl
@[simp] theorem State.updCtx_map (s : State) (c : CtxId) (f : Ctx → Ctx) : (s.updCtx c f).map = s.map := rfl
@[simp] theorem State.updCtx_pcr (s : State) (c : CtxId) (f : Ctx → Ctx) : (s.updCtx c f).pcr = s.pcr := rfl
@[simp] theorem State.updCtx_ftc (s : State) (c : CtxId) (f : Ctx → Ctx) : (s.updCtx c f).ftc = s.ftc := rfl
@[simp] theorem State.updCtx_hpx (s : State) (c : CtxId) (f : Ctx → Ctx) : (s.updCtx c f).hpx = s.hpx := rfl
@[simp] theorem State.updCtx_crg (s : State) (c : CtxId) (f : Ctx → Ctx) : (s.updCtx c f).crg = s.crg := rfl
@[simp] theorem State.updCtx_ofp (s : State) (c : CtxId) (f : Ctx → Ctx) : (s.updCtx c f).ofp = s.ofp := rfl
@[simp] theorem State.updCtx_bnd (s : State) (c : CtxId) (f : Ctx → Ctx) : (s.updCtx c f).bnd = s.bnd := rfl
@[simp] theorem State.updCtx_icu (s : State) (c : CtxId) (f : Ctx → Ctx) : (s.updCtx c f).icu = s.icu := rfl
@[simp] theorem State.updCtx_lkt (s : State) (c : CtxId) (f : Ctx → Ctx) : (s.updCtx c f).lkt = s.lkt := rfl
@[simp] theorem State.updCtx_sec (s : State) (c : CtxId) (f : Ctx → Ctx) : (s.updCtx c f).sec = s.sec := rfl
@[simp] theorem State.updCtx_mgt (s : State) (c : CtxId) (f : Ctx → Ctx) : (s.updCtx c f).mgt = s.mgt := rfl
@[simp] theorem State.updCtx_flc (s : State) (c : CtxId) (f : Ctx → Ctx) : (s.updCtx c f).flc = s.flc := rfl
@[simp] theorem State.updCtx_rpc (s : State) (c : CtxId) (f : Ctx → Ctx) : (s.updCtx c f).rpc = s.rpc := rfl
@[simp] theorem State.updCtx_tap (s : State) (c : CtxId) (f : Ctx → Ctx) : (s.updCtx c f).tap = s.tap := rfl
@[simp] theorem State.updCtx_out (s : State) (c : CtxId) (f : Ctx → Ctx) : (s.updCtx c f).out = s.out := rfl

/-! `State.updQ` changes `ctxs`. -/

@[simp] theorem State.updQ_pending (s : State) (c : CtxId) (q : QIdx) (f : Queue → Queue) : (s.updQ c q f).pending = s.pending := rfl
@[simp] theorem State.updQ_now (s : State) (c : CtxId) (q : QIdx) (f : Queue → Queue) : (s.updQ c q f).now = s.now := rfl
@[simp] theorem State.updQ_nextId (s : State) (c : CtxId) (q : QIdx) (f : Queue → Queue) : (s.updQ c q f).nextId = s.nextId := rfl
@[simp] theorem State.updQ_free (s : State) (c : CtxId) (q : QIdx) (f : Queue → Queue) : (s.updQ c q f).free = s.free := rfl
@[simp] theorem State.updQ_regs (s : State) (c : CtxId) (q : QIdx) (f : Queue → Queue) : (s.updQ c q f).regs = s.regs := rfl
@[simp] theorem State.updQ_force (s : State) (c : CtxId) (q : QIdx) (f : Queue → Queue) : (s.updQ c q f).force = s.force := rfl
@[simp] theorem State.updQ_ceWait (s : State) (c : CtxId) (q : QIdx) (f : Queue → Queue) : (s.updQ c q f).ceWait = s.ceWait := rfl
@[simp] theorem State.updQ_badPar (s : State) (c : CtxId) (q : QIdx) (f : Queue → Queue) : (s.updQ c q f).badPar = s.badPar := rfl
@[simp] theorem State.updQ_shadows (s : State) (c : CtxId) (q : QIdx) (f : Queue → Queue) : (s.updQ c q f).shadows = s.shadows := rfl
@[simp] theorem State.updQ_mem (s : State) (c : CtxId) (q : QIdx) (f : Queue → Queue) : (s.updQ c q f).mem = s.mem := rfl
@[simp] theorem State.updQ_ddl (s : State) (c : CtxId) (q : QIdx) (f : Queue → Queue) : (s.updQ c q f).ddl = s.ddl := rfl
@[simp] theorem State.updQ_dqe (s : State) (c : CtxId) (q : QIdx) (f : Queue → Queue) : (s.updQ c q f).dqe = s.dqe := rfl
@[simp] theorem State.updQ_issued (s : State) (c : CtxId) (q : QIdx) (f : Queue → Queue) : (s.updQ c q f).issued = s.issued := rfl
@[simp] theorem State.updQ_pfaults (s : State) (c : CtxId) (q : QIdx) (f : Queue → Queue) : (s.updQ c q f).pfaults = s.pfaults := rfl
@[simp] theorem State.updQ_reqs (s : State) (c : CtxId) (q : QIdx) (f : Queue → Queue) : (s.updQ c q f).reqs = s.reqs := rfl
@[simp] theorem State.updQ_helds (s : State) (c : CtxId) (q : QIdx) (f : Queue → Queue) : (s.updQ c q f).helds = s.helds := rfl
@[simp] theorem State.updQ_xlt (s : State) (c : CtxId) (q : QIdx) (f : Queue → Queue) : (s.updQ c q f).xlt = s.xlt := rfl
@[simp] theorem State.updQ_map (s : State) (c : CtxId) (q : QIdx) (f : Queue → Queue) : (s.updQ c q f).map = s.map := rfl
@[simp] theorem State.updQ_pcr (s : State) (c : CtxId) (q : QIdx) (f : Queue → Queue) : (s.updQ c q f).pcr = s.pcr := rfl
@[simp] theorem State.updQ_ftc (s : State) (c : CtxId) (q : QIdx) (f : Queue → Queue) : (s.updQ c q f).ftc = s.ftc := rfl
@[simp] theorem State.updQ_hpx (s : State) (c : CtxId) (q : QIdx) (f : Queue → Queue) : (s.updQ c q f).hpx = s.hpx := rfl
@[simp] theorem State.updQ_crg (s : State) (c : CtxId) (q : QIdx) (f : Queue → Queue) : (s.updQ c q f).crg = s.crg := rfl
@[simp] theorem State.updQ_ofp (s : State) (c : CtxId) (q : QIdx) (f : Queue → Queue) : (s.updQ c q f).ofp = s.ofp := rfl
@[simp] theorem State.updQ_bnd (s : State) (c : CtxId) (q : QIdx) (f : Queue → Queue) : (s.updQ c q f).bnd = s.bnd := rfl
@[simp] theorem State.updQ_icu (s : State) (c : CtxId) (q : QIdx) (f : Queue → Queue) : (s.updQ c q f).icu = s.icu := rfl
@[simp] theorem State.updQ_lkt (s : State) (c : CtxId) (q : QIdx) (f : Queue → Queue) : (s.updQ c q f).lkt = s.lkt := rfl
@[simp] theorem State.updQ_sec (s : State) (c : CtxId) (q : QIdx) (f : Queue → Queue) : (s.updQ c q f).sec = s.sec := rfl
@[simp] theorem State.updQ_mgt (s : State) (c : CtxId) (q : QIdx) (f : Queue → Queue) : (s.updQ c q f).mgt = s.mgt := rfl
@[simp] theorem State.updQ_flc (s : State) (c : CtxId) (q : QIdx) (f : Queue → Queue) : (s.updQ c q f).flc = s.flc := rfl
@[simp] theorem State.updQ_rpc (s : State) (c : CtxId) (q : QIdx) (f : Queue → Queue) : (s.updQ c q f).rpc = s.rpc := rfl
@[simp] theorem State.updQ_tap (s : State) (c : CtxId) (q : QIdx) (f : Queue → Queue) : (s.updQ c q f).tap = s.tap := rfl
@[simp] theorem State.updQ_out (s : State) (c : CtxId) (q : QIdx) (f : Queue → Queue) : (s.updQ c q f).out = s.out := rfl

/-! `State.putFn` changes `hpx`. -/

@[simp] theorem State.putFn_pending (s : State) (f : FnId) (x : Fn) : (s.putFn f x).pending = s.pending := rfl
@[simp] theorem State.putFn_now (s : State) (f : FnId) (x : Fn) : (s.putFn f x).now = s.now := rfl
@[simp] theorem State.putFn_nextId (s : State) (f : FnId) (x : Fn) : (s.putFn f x).nextId = s.nextId := rfl
@[simp] theorem State.putFn_free (s : State) (f : FnId) (x : Fn) : (s.putFn f x).free = s.free := rfl
@[simp] theorem State.putFn_regs (s : State) (f : FnId) (x : Fn) : (s.putFn f x).regs = s.regs := rfl
@[simp] theorem State.putFn_force (s : State) (f : FnId) (x : Fn) : (s.putFn f x).force = s.force := rfl
@[simp] theorem State.putFn_ceWait (s : State) (f : FnId) (x : Fn) : (s.putFn f x).ceWait = s.ceWait := rfl
@[simp] theorem State.putFn_badPar (s : State) (f : FnId) (x : Fn) : (s.putFn f x).badPar = s.badPar := rfl
@[simp] theorem State.putFn_shadows (s : State) (f : FnId) (x : Fn) : (s.putFn f x).shadows = s.shadows := rfl
@[simp] theorem State.putFn_mem (s : State) (f : FnId) (x : Fn) : (s.putFn f x).mem = s.mem := rfl
@[simp] theorem State.putFn_ddl (s : State) (f : FnId) (x : Fn) : (s.putFn f x).ddl = s.ddl := rfl
@[simp] theorem State.putFn_ctxs (s : State) (f : FnId) (x : Fn) : (s.putFn f x).ctxs = s.ctxs := rfl
@[simp] theorem State.putFn_dqe (s : State) (f : FnId) (x : Fn) : (s.putFn f x).dqe = s.dqe := rfl
@[simp] theorem State.putFn_issued (s : State) (f : FnId) (x : Fn) : (s.putFn f x).issued = s.issued := rfl
@[simp] theorem State.putFn_pfaults (s : State) (f : FnId) (x : Fn) : (s.putFn f x).pfaults = s.pfaults := rfl
@[simp] theorem State.putFn_reqs (s : State) (f : FnId) (x : Fn) : (s.putFn f x).reqs = s.reqs := rfl
@[simp] theorem State.putFn_helds (s : State) (f : FnId) (x : Fn) : (s.putFn f x).helds = s.helds := rfl
@[simp] theorem State.putFn_xlt (s : State) (f : FnId) (x : Fn) : (s.putFn f x).xlt = s.xlt := rfl
@[simp] theorem State.putFn_map (s : State) (f : FnId) (x : Fn) : (s.putFn f x).map = s.map := rfl
@[simp] theorem State.putFn_pcr (s : State) (f : FnId) (x : Fn) : (s.putFn f x).pcr = s.pcr := rfl
@[simp] theorem State.putFn_ftc (s : State) (f : FnId) (x : Fn) : (s.putFn f x).ftc = s.ftc := rfl
@[simp] theorem State.putFn_crg (s : State) (f : FnId) (x : Fn) : (s.putFn f x).crg = s.crg := rfl
@[simp] theorem State.putFn_ofp (s : State) (f : FnId) (x : Fn) : (s.putFn f x).ofp = s.ofp := rfl
@[simp] theorem State.putFn_bnd (s : State) (f : FnId) (x : Fn) : (s.putFn f x).bnd = s.bnd := rfl
@[simp] theorem State.putFn_icu (s : State) (f : FnId) (x : Fn) : (s.putFn f x).icu = s.icu := rfl
@[simp] theorem State.putFn_lkt (s : State) (f : FnId) (x : Fn) : (s.putFn f x).lkt = s.lkt := rfl
@[simp] theorem State.putFn_sec (s : State) (f : FnId) (x : Fn) : (s.putFn f x).sec = s.sec := rfl
@[simp] theorem State.putFn_mgt (s : State) (f : FnId) (x : Fn) : (s.putFn f x).mgt = s.mgt := rfl
@[simp] theorem State.putFn_flc (s : State) (f : FnId) (x : Fn) : (s.putFn f x).flc = s.flc := rfl
@[simp] theorem State.putFn_rpc (s : State) (f : FnId) (x : Fn) : (s.putFn f x).rpc = s.rpc := rfl
@[simp] theorem State.putFn_tap (s : State) (f : FnId) (x : Fn) : (s.putFn f x).tap = s.tap := rfl
@[simp] theorem State.putFn_out (s : State) (f : FnId) (x : Fn) : (s.putFn f x).out = s.out := rfl

/-! `State.updFn` changes `hpx`. -/

@[simp] theorem State.updFn_pending (s : State) (f : FnId) (g : Fn → Fn) : (s.updFn f g).pending = s.pending := rfl
@[simp] theorem State.updFn_now (s : State) (f : FnId) (g : Fn → Fn) : (s.updFn f g).now = s.now := rfl
@[simp] theorem State.updFn_nextId (s : State) (f : FnId) (g : Fn → Fn) : (s.updFn f g).nextId = s.nextId := rfl
@[simp] theorem State.updFn_free (s : State) (f : FnId) (g : Fn → Fn) : (s.updFn f g).free = s.free := rfl
@[simp] theorem State.updFn_regs (s : State) (f : FnId) (g : Fn → Fn) : (s.updFn f g).regs = s.regs := rfl
@[simp] theorem State.updFn_force (s : State) (f : FnId) (g : Fn → Fn) : (s.updFn f g).force = s.force := rfl
@[simp] theorem State.updFn_ceWait (s : State) (f : FnId) (g : Fn → Fn) : (s.updFn f g).ceWait = s.ceWait := rfl
@[simp] theorem State.updFn_badPar (s : State) (f : FnId) (g : Fn → Fn) : (s.updFn f g).badPar = s.badPar := rfl
@[simp] theorem State.updFn_shadows (s : State) (f : FnId) (g : Fn → Fn) : (s.updFn f g).shadows = s.shadows := rfl
@[simp] theorem State.updFn_mem (s : State) (f : FnId) (g : Fn → Fn) : (s.updFn f g).mem = s.mem := rfl
@[simp] theorem State.updFn_ddl (s : State) (f : FnId) (g : Fn → Fn) : (s.updFn f g).ddl = s.ddl := rfl
@[simp] theorem State.updFn_ctxs (s : State) (f : FnId) (g : Fn → Fn) : (s.updFn f g).ctxs = s.ctxs := rfl
@[simp] theorem State.updFn_dqe (s : State) (f : FnId) (g : Fn → Fn) : (s.updFn f g).dqe = s.dqe := rfl
@[simp] theorem State.updFn_issued (s : State) (f : FnId) (g : Fn → Fn) : (s.updFn f g).issued = s.issued := rfl
@[simp] theorem State.updFn_pfaults (s : State) (f : FnId) (g : Fn → Fn) : (s.updFn f g).pfaults = s.pfaults := rfl
@[simp] theorem State.updFn_reqs (s : State) (f : FnId) (g : Fn → Fn) : (s.updFn f g).reqs = s.reqs := rfl
@[simp] theorem State.updFn_helds (s : State) (f : FnId) (g : Fn → Fn) : (s.updFn f g).helds = s.helds := rfl
@[simp] theorem State.updFn_xlt (s : State) (f : FnId) (g : Fn → Fn) : (s.updFn f g).xlt = s.xlt := rfl
@[simp] theorem State.updFn_map (s : State) (f : FnId) (g : Fn → Fn) : (s.updFn f g).map = s.map := rfl
@[simp] theorem State.updFn_pcr (s : State) (f : FnId) (g : Fn → Fn) : (s.updFn f g).pcr = s.pcr := rfl
@[simp] theorem State.updFn_ftc (s : State) (f : FnId) (g : Fn → Fn) : (s.updFn f g).ftc = s.ftc := rfl
@[simp] theorem State.updFn_crg (s : State) (f : FnId) (g : Fn → Fn) : (s.updFn f g).crg = s.crg := rfl
@[simp] theorem State.updFn_ofp (s : State) (f : FnId) (g : Fn → Fn) : (s.updFn f g).ofp = s.ofp := rfl
@[simp] theorem State.updFn_bnd (s : State) (f : FnId) (g : Fn → Fn) : (s.updFn f g).bnd = s.bnd := rfl
@[simp] theorem State.updFn_icu (s : State) (f : FnId) (g : Fn → Fn) : (s.updFn f g).icu = s.icu := rfl
@[simp] theorem State.updFn_lkt (s : State) (f : FnId) (g : Fn → Fn) : (s.updFn f g).lkt = s.lkt := rfl
@[simp] theorem State.updFn_sec (s : State) (f : FnId) (g : Fn → Fn) : (s.updFn f g).sec = s.sec := rfl
@[simp] theorem State.updFn_mgt (s : State) (f : FnId) (g : Fn → Fn) : (s.updFn f g).mgt = s.mgt := rfl
@[simp] theorem State.updFn_flc (s : State) (f : FnId) (g : Fn → Fn) : (s.updFn f g).flc = s.flc := rfl
@[simp] theorem State.updFn_rpc (s : State) (f : FnId) (g : Fn → Fn) : (s.updFn f g).rpc = s.rpc := rfl
@[simp] theorem State.updFn_tap (s : State) (f : FnId) (g : Fn → Fn) : (s.updFn f g).tap = s.tap := rfl
@[simp] theorem State.updFn_out (s : State) (f : FnId) (g : Fn → Fn) : (s.updFn f g).out = s.out := rfl

/-! `State.updLink` changes `hpx`. -/

@[simp] theorem State.updLink_pending (s : State) (l : Nat) (g : Link → Link) : (s.updLink l g).pending = s.pending := rfl
@[simp] theorem State.updLink_now (s : State) (l : Nat) (g : Link → Link) : (s.updLink l g).now = s.now := rfl
@[simp] theorem State.updLink_nextId (s : State) (l : Nat) (g : Link → Link) : (s.updLink l g).nextId = s.nextId := rfl
@[simp] theorem State.updLink_free (s : State) (l : Nat) (g : Link → Link) : (s.updLink l g).free = s.free := rfl
@[simp] theorem State.updLink_regs (s : State) (l : Nat) (g : Link → Link) : (s.updLink l g).regs = s.regs := rfl
@[simp] theorem State.updLink_force (s : State) (l : Nat) (g : Link → Link) : (s.updLink l g).force = s.force := rfl
@[simp] theorem State.updLink_ceWait (s : State) (l : Nat) (g : Link → Link) : (s.updLink l g).ceWait = s.ceWait := rfl
@[simp] theorem State.updLink_badPar (s : State) (l : Nat) (g : Link → Link) : (s.updLink l g).badPar = s.badPar := rfl
@[simp] theorem State.updLink_shadows (s : State) (l : Nat) (g : Link → Link) : (s.updLink l g).shadows = s.shadows := rfl
@[simp] theorem State.updLink_mem (s : State) (l : Nat) (g : Link → Link) : (s.updLink l g).mem = s.mem := rfl
@[simp] theorem State.updLink_ddl (s : State) (l : Nat) (g : Link → Link) : (s.updLink l g).ddl = s.ddl := rfl
@[simp] theorem State.updLink_ctxs (s : State) (l : Nat) (g : Link → Link) : (s.updLink l g).ctxs = s.ctxs := rfl
@[simp] theorem State.updLink_dqe (s : State) (l : Nat) (g : Link → Link) : (s.updLink l g).dqe = s.dqe := rfl
@[simp] theorem State.updLink_issued (s : State) (l : Nat) (g : Link → Link) : (s.updLink l g).issued = s.issued := rfl
@[simp] theorem State.updLink_pfaults (s : State) (l : Nat) (g : Link → Link) : (s.updLink l g).pfaults = s.pfaults := rfl
@[simp] theorem State.updLink_reqs (s : State) (l : Nat) (g : Link → Link) : (s.updLink l g).reqs = s.reqs := rfl
@[simp] theorem State.updLink_helds (s : State) (l : Nat) (g : Link → Link) : (s.updLink l g).helds = s.helds := rfl
@[simp] theorem State.updLink_xlt (s : State) (l : Nat) (g : Link → Link) : (s.updLink l g).xlt = s.xlt := rfl
@[simp] theorem State.updLink_map (s : State) (l : Nat) (g : Link → Link) : (s.updLink l g).map = s.map := rfl
@[simp] theorem State.updLink_pcr (s : State) (l : Nat) (g : Link → Link) : (s.updLink l g).pcr = s.pcr := rfl
@[simp] theorem State.updLink_ftc (s : State) (l : Nat) (g : Link → Link) : (s.updLink l g).ftc = s.ftc := rfl
@[simp] theorem State.updLink_crg (s : State) (l : Nat) (g : Link → Link) : (s.updLink l g).crg = s.crg := rfl
@[simp] theorem State.updLink_ofp (s : State) (l : Nat) (g : Link → Link) : (s.updLink l g).ofp = s.ofp := rfl
@[simp] theorem State.updLink_bnd (s : State) (l : Nat) (g : Link → Link) : (s.updLink l g).bnd = s.bnd := rfl
@[simp] theorem State.updLink_icu (s : State) (l : Nat) (g : Link → Link) : (s.updLink l g).icu = s.icu := rfl
@[simp] theorem State.updLink_lkt (s : State) (l : Nat) (g : Link → Link) : (s.updLink l g).lkt = s.lkt := rfl
@[simp] theorem State.updLink_sec (s : State) (l : Nat) (g : Link → Link) : (s.updLink l g).sec = s.sec := rfl
@[simp] theorem State.updLink_mgt (s : State) (l : Nat) (g : Link → Link) : (s.updLink l g).mgt = s.mgt := rfl
@[simp] theorem State.updLink_flc (s : State) (l : Nat) (g : Link → Link) : (s.updLink l g).flc = s.flc := rfl
@[simp] theorem State.updLink_rpc (s : State) (l : Nat) (g : Link → Link) : (s.updLink l g).rpc = s.rpc := rfl
@[simp] theorem State.updLink_tap (s : State) (l : Nat) (g : Link → Link) : (s.updLink l g).tap = s.tap := rfl
@[simp] theorem State.updLink_out (s : State) (l : Nat) (g : Link → Link) : (s.updLink l g).out = s.out := rfl

/-! `State.updVdev` changes `bnd`. -/

@[simp] theorem State.updVdev_pending (s : State) (v : Vdix) (g : VDev → VDev) : (s.updVdev v g).pending = s.pending := rfl
@[simp] theorem State.updVdev_now (s : State) (v : Vdix) (g : VDev → VDev) : (s.updVdev v g).now = s.now := rfl
@[simp] theorem State.updVdev_nextId (s : State) (v : Vdix) (g : VDev → VDev) : (s.updVdev v g).nextId = s.nextId := rfl
@[simp] theorem State.updVdev_free (s : State) (v : Vdix) (g : VDev → VDev) : (s.updVdev v g).free = s.free := rfl
@[simp] theorem State.updVdev_regs (s : State) (v : Vdix) (g : VDev → VDev) : (s.updVdev v g).regs = s.regs := rfl
@[simp] theorem State.updVdev_force (s : State) (v : Vdix) (g : VDev → VDev) : (s.updVdev v g).force = s.force := rfl
@[simp] theorem State.updVdev_ceWait (s : State) (v : Vdix) (g : VDev → VDev) : (s.updVdev v g).ceWait = s.ceWait := rfl
@[simp] theorem State.updVdev_badPar (s : State) (v : Vdix) (g : VDev → VDev) : (s.updVdev v g).badPar = s.badPar := rfl
@[simp] theorem State.updVdev_shadows (s : State) (v : Vdix) (g : VDev → VDev) : (s.updVdev v g).shadows = s.shadows := rfl
@[simp] theorem State.updVdev_mem (s : State) (v : Vdix) (g : VDev → VDev) : (s.updVdev v g).mem = s.mem := rfl
@[simp] theorem State.updVdev_ddl (s : State) (v : Vdix) (g : VDev → VDev) : (s.updVdev v g).ddl = s.ddl := rfl
@[simp] theorem State.updVdev_ctxs (s : State) (v : Vdix) (g : VDev → VDev) : (s.updVdev v g).ctxs = s.ctxs := rfl
@[simp] theorem State.updVdev_dqe (s : State) (v : Vdix) (g : VDev → VDev) : (s.updVdev v g).dqe = s.dqe := rfl
@[simp] theorem State.updVdev_issued (s : State) (v : Vdix) (g : VDev → VDev) : (s.updVdev v g).issued = s.issued := rfl
@[simp] theorem State.updVdev_pfaults (s : State) (v : Vdix) (g : VDev → VDev) : (s.updVdev v g).pfaults = s.pfaults := rfl
@[simp] theorem State.updVdev_reqs (s : State) (v : Vdix) (g : VDev → VDev) : (s.updVdev v g).reqs = s.reqs := rfl
@[simp] theorem State.updVdev_helds (s : State) (v : Vdix) (g : VDev → VDev) : (s.updVdev v g).helds = s.helds := rfl
@[simp] theorem State.updVdev_xlt (s : State) (v : Vdix) (g : VDev → VDev) : (s.updVdev v g).xlt = s.xlt := rfl
@[simp] theorem State.updVdev_map (s : State) (v : Vdix) (g : VDev → VDev) : (s.updVdev v g).map = s.map := rfl
@[simp] theorem State.updVdev_pcr (s : State) (v : Vdix) (g : VDev → VDev) : (s.updVdev v g).pcr = s.pcr := rfl
@[simp] theorem State.updVdev_ftc (s : State) (v : Vdix) (g : VDev → VDev) : (s.updVdev v g).ftc = s.ftc := rfl
@[simp] theorem State.updVdev_hpx (s : State) (v : Vdix) (g : VDev → VDev) : (s.updVdev v g).hpx = s.hpx := rfl
@[simp] theorem State.updVdev_crg (s : State) (v : Vdix) (g : VDev → VDev) : (s.updVdev v g).crg = s.crg := rfl
@[simp] theorem State.updVdev_ofp (s : State) (v : Vdix) (g : VDev → VDev) : (s.updVdev v g).ofp = s.ofp := rfl
@[simp] theorem State.updVdev_icu (s : State) (v : Vdix) (g : VDev → VDev) : (s.updVdev v g).icu = s.icu := rfl
@[simp] theorem State.updVdev_lkt (s : State) (v : Vdix) (g : VDev → VDev) : (s.updVdev v g).lkt = s.lkt := rfl
@[simp] theorem State.updVdev_sec (s : State) (v : Vdix) (g : VDev → VDev) : (s.updVdev v g).sec = s.sec := rfl
@[simp] theorem State.updVdev_mgt (s : State) (v : Vdix) (g : VDev → VDev) : (s.updVdev v g).mgt = s.mgt := rfl
@[simp] theorem State.updVdev_flc (s : State) (v : Vdix) (g : VDev → VDev) : (s.updVdev v g).flc = s.flc := rfl
@[simp] theorem State.updVdev_rpc (s : State) (v : Vdix) (g : VDev → VDev) : (s.updVdev v g).rpc = s.rpc := rfl
@[simp] theorem State.updVdev_tap (s : State) (v : Vdix) (g : VDev → VDev) : (s.updVdev v g).tap = s.tap := rfl
@[simp] theorem State.updVdev_out (s : State) (v : Vdix) (g : VDev → VDev) : (s.updVdev v g).out = s.out := rfl

/-! `State.updCore` changes `icu`. -/

@[simp] theorem State.updCore_pending (s : State) (n : Nat) (g : Core → Core) : (s.updCore n g).pending = s.pending := rfl
@[simp] theorem State.updCore_now (s : State) (n : Nat) (g : Core → Core) : (s.updCore n g).now = s.now := rfl
@[simp] theorem State.updCore_nextId (s : State) (n : Nat) (g : Core → Core) : (s.updCore n g).nextId = s.nextId := rfl
@[simp] theorem State.updCore_free (s : State) (n : Nat) (g : Core → Core) : (s.updCore n g).free = s.free := rfl
@[simp] theorem State.updCore_regs (s : State) (n : Nat) (g : Core → Core) : (s.updCore n g).regs = s.regs := rfl
@[simp] theorem State.updCore_force (s : State) (n : Nat) (g : Core → Core) : (s.updCore n g).force = s.force := rfl
@[simp] theorem State.updCore_ceWait (s : State) (n : Nat) (g : Core → Core) : (s.updCore n g).ceWait = s.ceWait := rfl
@[simp] theorem State.updCore_badPar (s : State) (n : Nat) (g : Core → Core) : (s.updCore n g).badPar = s.badPar := rfl
@[simp] theorem State.updCore_shadows (s : State) (n : Nat) (g : Core → Core) : (s.updCore n g).shadows = s.shadows := rfl
@[simp] theorem State.updCore_mem (s : State) (n : Nat) (g : Core → Core) : (s.updCore n g).mem = s.mem := rfl
@[simp] theorem State.updCore_ddl (s : State) (n : Nat) (g : Core → Core) : (s.updCore n g).ddl = s.ddl := rfl
@[simp] theorem State.updCore_ctxs (s : State) (n : Nat) (g : Core → Core) : (s.updCore n g).ctxs = s.ctxs := rfl
@[simp] theorem State.updCore_dqe (s : State) (n : Nat) (g : Core → Core) : (s.updCore n g).dqe = s.dqe := rfl
@[simp] theorem State.updCore_issued (s : State) (n : Nat) (g : Core → Core) : (s.updCore n g).issued = s.issued := rfl
@[simp] theorem State.updCore_pfaults (s : State) (n : Nat) (g : Core → Core) : (s.updCore n g).pfaults = s.pfaults := rfl
@[simp] theorem State.updCore_reqs (s : State) (n : Nat) (g : Core → Core) : (s.updCore n g).reqs = s.reqs := rfl
@[simp] theorem State.updCore_helds (s : State) (n : Nat) (g : Core → Core) : (s.updCore n g).helds = s.helds := rfl
@[simp] theorem State.updCore_xlt (s : State) (n : Nat) (g : Core → Core) : (s.updCore n g).xlt = s.xlt := rfl
@[simp] theorem State.updCore_map (s : State) (n : Nat) (g : Core → Core) : (s.updCore n g).map = s.map := rfl
@[simp] theorem State.updCore_pcr (s : State) (n : Nat) (g : Core → Core) : (s.updCore n g).pcr = s.pcr := rfl
@[simp] theorem State.updCore_ftc (s : State) (n : Nat) (g : Core → Core) : (s.updCore n g).ftc = s.ftc := rfl
@[simp] theorem State.updCore_hpx (s : State) (n : Nat) (g : Core → Core) : (s.updCore n g).hpx = s.hpx := rfl
@[simp] theorem State.updCore_crg (s : State) (n : Nat) (g : Core → Core) : (s.updCore n g).crg = s.crg := rfl
@[simp] theorem State.updCore_ofp (s : State) (n : Nat) (g : Core → Core) : (s.updCore n g).ofp = s.ofp := rfl
@[simp] theorem State.updCore_bnd (s : State) (n : Nat) (g : Core → Core) : (s.updCore n g).bnd = s.bnd := rfl
@[simp] theorem State.updCore_lkt (s : State) (n : Nat) (g : Core → Core) : (s.updCore n g).lkt = s.lkt := rfl
@[simp] theorem State.updCore_sec (s : State) (n : Nat) (g : Core → Core) : (s.updCore n g).sec = s.sec := rfl
@[simp] theorem State.updCore_mgt (s : State) (n : Nat) (g : Core → Core) : (s.updCore n g).mgt = s.mgt := rfl
@[simp] theorem State.updCore_flc (s : State) (n : Nat) (g : Core → Core) : (s.updCore n g).flc = s.flc := rfl
@[simp] theorem State.updCore_rpc (s : State) (n : Nat) (g : Core → Core) : (s.updCore n g).rpc = s.rpc := rfl
@[simp] theorem State.updCore_tap (s : State) (n : Nat) (g : Core → Core) : (s.updCore n g).tap = s.tap := rfl
@[simp] theorem State.updCore_out (s : State) (n : Nat) (g : Core → Core) : (s.updCore n g).out = s.out := rfl

/-! `State.updReq` changes `reqs`. -/

@[simp] theorem State.updReq_pending (s : State) (n : Nat) (f : Req → Req) : (s.updReq n f).pending = s.pending := rfl
@[simp] theorem State.updReq_now (s : State) (n : Nat) (f : Req → Req) : (s.updReq n f).now = s.now := rfl
@[simp] theorem State.updReq_nextId (s : State) (n : Nat) (f : Req → Req) : (s.updReq n f).nextId = s.nextId := rfl
@[simp] theorem State.updReq_free (s : State) (n : Nat) (f : Req → Req) : (s.updReq n f).free = s.free := rfl
@[simp] theorem State.updReq_regs (s : State) (n : Nat) (f : Req → Req) : (s.updReq n f).regs = s.regs := rfl
@[simp] theorem State.updReq_force (s : State) (n : Nat) (f : Req → Req) : (s.updReq n f).force = s.force := rfl
@[simp] theorem State.updReq_ceWait (s : State) (n : Nat) (f : Req → Req) : (s.updReq n f).ceWait = s.ceWait := rfl
@[simp] theorem State.updReq_badPar (s : State) (n : Nat) (f : Req → Req) : (s.updReq n f).badPar = s.badPar := rfl
@[simp] theorem State.updReq_shadows (s : State) (n : Nat) (f : Req → Req) : (s.updReq n f).shadows = s.shadows := rfl
@[simp] theorem State.updReq_mem (s : State) (n : Nat) (f : Req → Req) : (s.updReq n f).mem = s.mem := rfl
@[simp] theorem State.updReq_ddl (s : State) (n : Nat) (f : Req → Req) : (s.updReq n f).ddl = s.ddl := rfl
@[simp] theorem State.updReq_ctxs (s : State) (n : Nat) (f : Req → Req) : (s.updReq n f).ctxs = s.ctxs := rfl
@[simp] theorem State.updReq_dqe (s : State) (n : Nat) (f : Req → Req) : (s.updReq n f).dqe = s.dqe := rfl
@[simp] theorem State.updReq_issued (s : State) (n : Nat) (f : Req → Req) : (s.updReq n f).issued = s.issued := rfl
@[simp] theorem State.updReq_pfaults (s : State) (n : Nat) (f : Req → Req) : (s.updReq n f).pfaults = s.pfaults := rfl
@[simp] theorem State.updReq_helds (s : State) (n : Nat) (f : Req → Req) : (s.updReq n f).helds = s.helds := rfl
@[simp] theorem State.updReq_xlt (s : State) (n : Nat) (f : Req → Req) : (s.updReq n f).xlt = s.xlt := rfl
@[simp] theorem State.updReq_map (s : State) (n : Nat) (f : Req → Req) : (s.updReq n f).map = s.map := rfl
@[simp] theorem State.updReq_pcr (s : State) (n : Nat) (f : Req → Req) : (s.updReq n f).pcr = s.pcr := rfl
@[simp] theorem State.updReq_ftc (s : State) (n : Nat) (f : Req → Req) : (s.updReq n f).ftc = s.ftc := rfl
@[simp] theorem State.updReq_hpx (s : State) (n : Nat) (f : Req → Req) : (s.updReq n f).hpx = s.hpx := rfl
@[simp] theorem State.updReq_crg (s : State) (n : Nat) (f : Req → Req) : (s.updReq n f).crg = s.crg := rfl
@[simp] theorem State.updReq_ofp (s : State) (n : Nat) (f : Req → Req) : (s.updReq n f).ofp = s.ofp := rfl
@[simp] theorem State.updReq_bnd (s : State) (n : Nat) (f : Req → Req) : (s.updReq n f).bnd = s.bnd := rfl
@[simp] theorem State.updReq_icu (s : State) (n : Nat) (f : Req → Req) : (s.updReq n f).icu = s.icu := rfl
@[simp] theorem State.updReq_lkt (s : State) (n : Nat) (f : Req → Req) : (s.updReq n f).lkt = s.lkt := rfl
@[simp] theorem State.updReq_sec (s : State) (n : Nat) (f : Req → Req) : (s.updReq n f).sec = s.sec := rfl
@[simp] theorem State.updReq_mgt (s : State) (n : Nat) (f : Req → Req) : (s.updReq n f).mgt = s.mgt := rfl
@[simp] theorem State.updReq_flc (s : State) (n : Nat) (f : Req → Req) : (s.updReq n f).flc = s.flc := rfl
@[simp] theorem State.updReq_rpc (s : State) (n : Nat) (f : Req → Req) : (s.updReq n f).rpc = s.rpc := rfl
@[simp] theorem State.updReq_tap (s : State) (n : Nat) (f : Req → Req) : (s.updReq n f).tap = s.tap := rfl
@[simp] theorem State.updReq_out (s : State) (n : Nat) (f : Req → Req) : (s.updReq n f).out = s.out := rfl

/-! `State.delReq` changes `reqs`. -/

@[simp] theorem State.delReq_pending (s : State) (n : Nat) : (s.delReq n).pending = s.pending := rfl
@[simp] theorem State.delReq_now (s : State) (n : Nat) : (s.delReq n).now = s.now := rfl
@[simp] theorem State.delReq_nextId (s : State) (n : Nat) : (s.delReq n).nextId = s.nextId := rfl
@[simp] theorem State.delReq_free (s : State) (n : Nat) : (s.delReq n).free = s.free := rfl
@[simp] theorem State.delReq_regs (s : State) (n : Nat) : (s.delReq n).regs = s.regs := rfl
@[simp] theorem State.delReq_force (s : State) (n : Nat) : (s.delReq n).force = s.force := rfl
@[simp] theorem State.delReq_ceWait (s : State) (n : Nat) : (s.delReq n).ceWait = s.ceWait := rfl
@[simp] theorem State.delReq_badPar (s : State) (n : Nat) : (s.delReq n).badPar = s.badPar := rfl
@[simp] theorem State.delReq_shadows (s : State) (n : Nat) : (s.delReq n).shadows = s.shadows := rfl
@[simp] theorem State.delReq_mem (s : State) (n : Nat) : (s.delReq n).mem = s.mem := rfl
@[simp] theorem State.delReq_ddl (s : State) (n : Nat) : (s.delReq n).ddl = s.ddl := rfl
@[simp] theorem State.delReq_ctxs (s : State) (n : Nat) : (s.delReq n).ctxs = s.ctxs := rfl
@[simp] theorem State.delReq_dqe (s : State) (n : Nat) : (s.delReq n).dqe = s.dqe := rfl
@[simp] theorem State.delReq_issued (s : State) (n : Nat) : (s.delReq n).issued = s.issued := rfl
@[simp] theorem State.delReq_pfaults (s : State) (n : Nat) : (s.delReq n).pfaults = s.pfaults := rfl
@[simp] theorem State.delReq_helds (s : State) (n : Nat) : (s.delReq n).helds = s.helds := rfl
@[simp] theorem State.delReq_xlt (s : State) (n : Nat) : (s.delReq n).xlt = s.xlt := rfl
@[simp] theorem State.delReq_map (s : State) (n : Nat) : (s.delReq n).map = s.map := rfl
@[simp] theorem State.delReq_pcr (s : State) (n : Nat) : (s.delReq n).pcr = s.pcr := rfl
@[simp] theorem State.delReq_ftc (s : State) (n : Nat) : (s.delReq n).ftc = s.ftc := rfl
@[simp] theorem State.delReq_hpx (s : State) (n : Nat) : (s.delReq n).hpx = s.hpx := rfl
@[simp] theorem State.delReq_crg (s : State) (n : Nat) : (s.delReq n).crg = s.crg := rfl
@[simp] theorem State.delReq_ofp (s : State) (n : Nat) : (s.delReq n).ofp = s.ofp := rfl
@[simp] theorem State.delReq_bnd (s : State) (n : Nat) : (s.delReq n).bnd = s.bnd := rfl
@[simp] theorem State.delReq_icu (s : State) (n : Nat) : (s.delReq n).icu = s.icu := rfl
@[simp] theorem State.delReq_lkt (s : State) (n : Nat) : (s.delReq n).lkt = s.lkt := rfl
@[simp] theorem State.delReq_sec (s : State) (n : Nat) : (s.delReq n).sec = s.sec := rfl
@[simp] theorem State.delReq_mgt (s : State) (n : Nat) : (s.delReq n).mgt = s.mgt := rfl
@[simp] theorem State.delReq_flc (s : State) (n : Nat) : (s.delReq n).flc = s.flc := rfl
@[simp] theorem State.delReq_rpc (s : State) (n : Nat) : (s.delReq n).rpc = s.rpc := rfl
@[simp] theorem State.delReq_tap (s : State) (n : Nat) : (s.delReq n).tap = s.tap := rfl
@[simp] theorem State.delReq_out (s : State) (n : Nat) : (s.delReq n).out = s.out := rfl

/-! `State.addReq` changes `reqs`. -/

@[simp] theorem State.addReq_pending (s : State) (r : Req) : (s.addReq r).pending = s.pending := rfl
@[simp] theorem State.addReq_now (s : State) (r : Req) : (s.addReq r).now = s.now := rfl
@[simp] theorem State.addReq_nextId (s : State) (r : Req) : (s.addReq r).nextId = s.nextId := rfl
@[simp] theorem State.addReq_free (s : State) (r : Req) : (s.addReq r).free = s.free := rfl
@[simp] theorem State.addReq_regs (s : State) (r : Req) : (s.addReq r).regs = s.regs := rfl
@[simp] theorem State.addReq_force (s : State) (r : Req) : (s.addReq r).force = s.force := rfl
@[simp] theorem State.addReq_ceWait (s : State) (r : Req) : (s.addReq r).ceWait = s.ceWait := rfl
@[simp] theorem State.addReq_badPar (s : State) (r : Req) : (s.addReq r).badPar = s.badPar := rfl
@[simp] theorem State.addReq_shadows (s : State) (r : Req) : (s.addReq r).shadows = s.shadows := rfl
@[simp] theorem State.addReq_mem (s : State) (r : Req) : (s.addReq r).mem = s.mem := rfl
@[simp] theorem State.addReq_ddl (s : State) (r : Req) : (s.addReq r).ddl = s.ddl := rfl
@[simp] theorem State.addReq_ctxs (s : State) (r : Req) : (s.addReq r).ctxs = s.ctxs := rfl
@[simp] theorem State.addReq_dqe (s : State) (r : Req) : (s.addReq r).dqe = s.dqe := rfl
@[simp] theorem State.addReq_issued (s : State) (r : Req) : (s.addReq r).issued = s.issued := rfl
@[simp] theorem State.addReq_pfaults (s : State) (r : Req) : (s.addReq r).pfaults = s.pfaults := rfl
@[simp] theorem State.addReq_helds (s : State) (r : Req) : (s.addReq r).helds = s.helds := rfl
@[simp] theorem State.addReq_xlt (s : State) (r : Req) : (s.addReq r).xlt = s.xlt := rfl
@[simp] theorem State.addReq_map (s : State) (r : Req) : (s.addReq r).map = s.map := rfl
@[simp] theorem State.addReq_pcr (s : State) (r : Req) : (s.addReq r).pcr = s.pcr := rfl
@[simp] theorem State.addReq_ftc (s : State) (r : Req) : (s.addReq r).ftc = s.ftc := rfl
@[simp] theorem State.addReq_hpx (s : State) (r : Req) : (s.addReq r).hpx = s.hpx := rfl
@[simp] theorem State.addReq_crg (s : State) (r : Req) : (s.addReq r).crg = s.crg := rfl
@[simp] theorem State.addReq_ofp (s : State) (r : Req) : (s.addReq r).ofp = s.ofp := rfl
@[simp] theorem State.addReq_bnd (s : State) (r : Req) : (s.addReq r).bnd = s.bnd := rfl
@[simp] theorem State.addReq_icu (s : State) (r : Req) : (s.addReq r).icu = s.icu := rfl
@[simp] theorem State.addReq_lkt (s : State) (r : Req) : (s.addReq r).lkt = s.lkt := rfl
@[simp] theorem State.addReq_sec (s : State) (r : Req) : (s.addReq r).sec = s.sec := rfl
@[simp] theorem State.addReq_mgt (s : State) (r : Req) : (s.addReq r).mgt = s.mgt := rfl
@[simp] theorem State.addReq_flc (s : State) (r : Req) : (s.addReq r).flc = s.flc := rfl
@[simp] theorem State.addReq_rpc (s : State) (r : Req) : (s.addReq r).rpc = s.rpc := rfl
@[simp] theorem State.addReq_tap (s : State) (r : Req) : (s.addReq r).tap = s.tap := rfl
@[simp] theorem State.addReq_out (s : State) (r : Req) : (s.addReq r).out = s.out := rfl

/-! `State.updDesc` changes `map`. -/

@[simp] theorem State.updDesc_pending (s : State) (n : Nat) (f : Desc → Desc) : (s.updDesc n f).pending = s.pending := rfl
@[simp] theorem State.updDesc_now (s : State) (n : Nat) (f : Desc → Desc) : (s.updDesc n f).now = s.now := rfl
@[simp] theorem State.updDesc_nextId (s : State) (n : Nat) (f : Desc → Desc) : (s.updDesc n f).nextId = s.nextId := rfl
@[simp] theorem State.updDesc_free (s : State) (n : Nat) (f : Desc → Desc) : (s.updDesc n f).free = s.free := rfl
@[simp] theorem State.updDesc_regs (s : State) (n : Nat) (f : Desc → Desc) : (s.updDesc n f).regs = s.regs := rfl
@[simp] theorem State.updDesc_force (s : State) (n : Nat) (f : Desc → Desc) : (s.updDesc n f).force = s.force := rfl
@[simp] theorem State.updDesc_ceWait (s : State) (n : Nat) (f : Desc → Desc) : (s.updDesc n f).ceWait = s.ceWait := rfl
@[simp] theorem State.updDesc_badPar (s : State) (n : Nat) (f : Desc → Desc) : (s.updDesc n f).badPar = s.badPar := rfl
@[simp] theorem State.updDesc_shadows (s : State) (n : Nat) (f : Desc → Desc) : (s.updDesc n f).shadows = s.shadows := rfl
@[simp] theorem State.updDesc_mem (s : State) (n : Nat) (f : Desc → Desc) : (s.updDesc n f).mem = s.mem := rfl
@[simp] theorem State.updDesc_ddl (s : State) (n : Nat) (f : Desc → Desc) : (s.updDesc n f).ddl = s.ddl := rfl
@[simp] theorem State.updDesc_ctxs (s : State) (n : Nat) (f : Desc → Desc) : (s.updDesc n f).ctxs = s.ctxs := rfl
@[simp] theorem State.updDesc_dqe (s : State) (n : Nat) (f : Desc → Desc) : (s.updDesc n f).dqe = s.dqe := rfl
@[simp] theorem State.updDesc_issued (s : State) (n : Nat) (f : Desc → Desc) : (s.updDesc n f).issued = s.issued := rfl
@[simp] theorem State.updDesc_pfaults (s : State) (n : Nat) (f : Desc → Desc) : (s.updDesc n f).pfaults = s.pfaults := rfl
@[simp] theorem State.updDesc_reqs (s : State) (n : Nat) (f : Desc → Desc) : (s.updDesc n f).reqs = s.reqs := rfl
@[simp] theorem State.updDesc_helds (s : State) (n : Nat) (f : Desc → Desc) : (s.updDesc n f).helds = s.helds := rfl
@[simp] theorem State.updDesc_xlt (s : State) (n : Nat) (f : Desc → Desc) : (s.updDesc n f).xlt = s.xlt := rfl
@[simp] theorem State.updDesc_pcr (s : State) (n : Nat) (f : Desc → Desc) : (s.updDesc n f).pcr = s.pcr := rfl
@[simp] theorem State.updDesc_ftc (s : State) (n : Nat) (f : Desc → Desc) : (s.updDesc n f).ftc = s.ftc := rfl
@[simp] theorem State.updDesc_hpx (s : State) (n : Nat) (f : Desc → Desc) : (s.updDesc n f).hpx = s.hpx := rfl
@[simp] theorem State.updDesc_crg (s : State) (n : Nat) (f : Desc → Desc) : (s.updDesc n f).crg = s.crg := rfl
@[simp] theorem State.updDesc_ofp (s : State) (n : Nat) (f : Desc → Desc) : (s.updDesc n f).ofp = s.ofp := rfl
@[simp] theorem State.updDesc_bnd (s : State) (n : Nat) (f : Desc → Desc) : (s.updDesc n f).bnd = s.bnd := rfl
@[simp] theorem State.updDesc_icu (s : State) (n : Nat) (f : Desc → Desc) : (s.updDesc n f).icu = s.icu := rfl
@[simp] theorem State.updDesc_lkt (s : State) (n : Nat) (f : Desc → Desc) : (s.updDesc n f).lkt = s.lkt := rfl
@[simp] theorem State.updDesc_sec (s : State) (n : Nat) (f : Desc → Desc) : (s.updDesc n f).sec = s.sec := rfl
@[simp] theorem State.updDesc_mgt (s : State) (n : Nat) (f : Desc → Desc) : (s.updDesc n f).mgt = s.mgt := rfl
@[simp] theorem State.updDesc_flc (s : State) (n : Nat) (f : Desc → Desc) : (s.updDesc n f).flc = s.flc := rfl
@[simp] theorem State.updDesc_rpc (s : State) (n : Nat) (f : Desc → Desc) : (s.updDesc n f).rpc = s.rpc := rfl
@[simp] theorem State.updDesc_tap (s : State) (n : Nat) (f : Desc → Desc) : (s.updDesc n f).tap = s.tap := rfl
@[simp] theorem State.updDesc_out (s : State) (n : Nat) (f : Desc → Desc) : (s.updDesc n f).out = s.out := rfl

/-! `State.delDesc` changes `map`. -/

@[simp] theorem State.delDesc_pending (s : State) (n : Nat) : (s.delDesc n).pending = s.pending := rfl
@[simp] theorem State.delDesc_now (s : State) (n : Nat) : (s.delDesc n).now = s.now := rfl
@[simp] theorem State.delDesc_nextId (s : State) (n : Nat) : (s.delDesc n).nextId = s.nextId := rfl
@[simp] theorem State.delDesc_free (s : State) (n : Nat) : (s.delDesc n).free = s.free := rfl
@[simp] theorem State.delDesc_regs (s : State) (n : Nat) : (s.delDesc n).regs = s.regs := rfl
@[simp] theorem State.delDesc_force (s : State) (n : Nat) : (s.delDesc n).force = s.force := rfl
@[simp] theorem State.delDesc_ceWait (s : State) (n : Nat) : (s.delDesc n).ceWait = s.ceWait := rfl
@[simp] theorem State.delDesc_badPar (s : State) (n : Nat) : (s.delDesc n).badPar = s.badPar := rfl
@[simp] theorem State.delDesc_shadows (s : State) (n : Nat) : (s.delDesc n).shadows = s.shadows := rfl
@[simp] theorem State.delDesc_mem (s : State) (n : Nat) : (s.delDesc n).mem = s.mem := rfl
@[simp] theorem State.delDesc_ddl (s : State) (n : Nat) : (s.delDesc n).ddl = s.ddl := rfl
@[simp] theorem State.delDesc_ctxs (s : State) (n : Nat) : (s.delDesc n).ctxs = s.ctxs := rfl
@[simp] theorem State.delDesc_dqe (s : State) (n : Nat) : (s.delDesc n).dqe = s.dqe := rfl
@[simp] theorem State.delDesc_issued (s : State) (n : Nat) : (s.delDesc n).issued = s.issued := rfl
@[simp] theorem State.delDesc_pfaults (s : State) (n : Nat) : (s.delDesc n).pfaults = s.pfaults := rfl
@[simp] theorem State.delDesc_reqs (s : State) (n : Nat) : (s.delDesc n).reqs = s.reqs := rfl
@[simp] theorem State.delDesc_helds (s : State) (n : Nat) : (s.delDesc n).helds = s.helds := rfl
@[simp] theorem State.delDesc_xlt (s : State) (n : Nat) : (s.delDesc n).xlt = s.xlt := rfl
@[simp] theorem State.delDesc_pcr (s : State) (n : Nat) : (s.delDesc n).pcr = s.pcr := rfl
@[simp] theorem State.delDesc_ftc (s : State) (n : Nat) : (s.delDesc n).ftc = s.ftc := rfl
@[simp] theorem State.delDesc_hpx (s : State) (n : Nat) : (s.delDesc n).hpx = s.hpx := rfl
@[simp] theorem State.delDesc_crg (s : State) (n : Nat) : (s.delDesc n).crg = s.crg := rfl
@[simp] theorem State.delDesc_ofp (s : State) (n : Nat) : (s.delDesc n).ofp = s.ofp := rfl
@[simp] theorem State.delDesc_bnd (s : State) (n : Nat) : (s.delDesc n).bnd = s.bnd := rfl
@[simp] theorem State.delDesc_icu (s : State) (n : Nat) : (s.delDesc n).icu = s.icu := rfl
@[simp] theorem State.delDesc_lkt (s : State) (n : Nat) : (s.delDesc n).lkt = s.lkt := rfl
@[simp] theorem State.delDesc_sec (s : State) (n : Nat) : (s.delDesc n).sec = s.sec := rfl
@[simp] theorem State.delDesc_mgt (s : State) (n : Nat) : (s.delDesc n).mgt = s.mgt := rfl
@[simp] theorem State.delDesc_flc (s : State) (n : Nat) : (s.delDesc n).flc = s.flc := rfl
@[simp] theorem State.delDesc_rpc (s : State) (n : Nat) : (s.delDesc n).rpc = s.rpc := rfl
@[simp] theorem State.delDesc_tap (s : State) (n : Nat) : (s.delDesc n).tap = s.tap := rfl
@[simp] theorem State.delDesc_out (s : State) (n : Nat) : (s.delDesc n).out = s.out := rfl

/-! `State.emit` changes `out`. -/

@[simp] theorem State.emit_pending (s : State) (o : Out) : (s.emit o).pending = s.pending := rfl
@[simp] theorem State.emit_now (s : State) (o : Out) : (s.emit o).now = s.now := rfl
@[simp] theorem State.emit_nextId (s : State) (o : Out) : (s.emit o).nextId = s.nextId := rfl
@[simp] theorem State.emit_free (s : State) (o : Out) : (s.emit o).free = s.free := rfl
@[simp] theorem State.emit_regs (s : State) (o : Out) : (s.emit o).regs = s.regs := rfl
@[simp] theorem State.emit_force (s : State) (o : Out) : (s.emit o).force = s.force := rfl
@[simp] theorem State.emit_ceWait (s : State) (o : Out) : (s.emit o).ceWait = s.ceWait := rfl
@[simp] theorem State.emit_badPar (s : State) (o : Out) : (s.emit o).badPar = s.badPar := rfl
@[simp] theorem State.emit_shadows (s : State) (o : Out) : (s.emit o).shadows = s.shadows := rfl
@[simp] theorem State.emit_mem (s : State) (o : Out) : (s.emit o).mem = s.mem := rfl
@[simp] theorem State.emit_ddl (s : State) (o : Out) : (s.emit o).ddl = s.ddl := rfl
@[simp] theorem State.emit_ctxs (s : State) (o : Out) : (s.emit o).ctxs = s.ctxs := rfl
@[simp] theorem State.emit_dqe (s : State) (o : Out) : (s.emit o).dqe = s.dqe := rfl
@[simp] theorem State.emit_issued (s : State) (o : Out) : (s.emit o).issued = s.issued := rfl
@[simp] theorem State.emit_pfaults (s : State) (o : Out) : (s.emit o).pfaults = s.pfaults := rfl
@[simp] theorem State.emit_reqs (s : State) (o : Out) : (s.emit o).reqs = s.reqs := rfl
@[simp] theorem State.emit_helds (s : State) (o : Out) : (s.emit o).helds = s.helds := rfl
@[simp] theorem State.emit_xlt (s : State) (o : Out) : (s.emit o).xlt = s.xlt := rfl
@[simp] theorem State.emit_map (s : State) (o : Out) : (s.emit o).map = s.map := rfl
@[simp] theorem State.emit_pcr (s : State) (o : Out) : (s.emit o).pcr = s.pcr := rfl
@[simp] theorem State.emit_ftc (s : State) (o : Out) : (s.emit o).ftc = s.ftc := rfl
@[simp] theorem State.emit_hpx (s : State) (o : Out) : (s.emit o).hpx = s.hpx := rfl
@[simp] theorem State.emit_crg (s : State) (o : Out) : (s.emit o).crg = s.crg := rfl
@[simp] theorem State.emit_ofp (s : State) (o : Out) : (s.emit o).ofp = s.ofp := rfl
@[simp] theorem State.emit_bnd (s : State) (o : Out) : (s.emit o).bnd = s.bnd := rfl
@[simp] theorem State.emit_icu (s : State) (o : Out) : (s.emit o).icu = s.icu := rfl
@[simp] theorem State.emit_lkt (s : State) (o : Out) : (s.emit o).lkt = s.lkt := rfl
@[simp] theorem State.emit_sec (s : State) (o : Out) : (s.emit o).sec = s.sec := rfl
@[simp] theorem State.emit_mgt (s : State) (o : Out) : (s.emit o).mgt = s.mgt := rfl
@[simp] theorem State.emit_flc (s : State) (o : Out) : (s.emit o).flc = s.flc := rfl
@[simp] theorem State.emit_rpc (s : State) (o : Out) : (s.emit o).rpc = s.rpc := rfl
@[simp] theorem State.emit_tap (s : State) (o : Out) : (s.emit o).tap = s.tap := rfl

/-! `State.putLine` changes `mem`. -/

@[simp] theorem State.putLine_pending (s : State) (a : Nat) (m : LineMeta) : (s.putLine a m).pending = s.pending := rfl
@[simp] theorem State.putLine_now (s : State) (a : Nat) (m : LineMeta) : (s.putLine a m).now = s.now := rfl
@[simp] theorem State.putLine_nextId (s : State) (a : Nat) (m : LineMeta) : (s.putLine a m).nextId = s.nextId := rfl
@[simp] theorem State.putLine_free (s : State) (a : Nat) (m : LineMeta) : (s.putLine a m).free = s.free := rfl
@[simp] theorem State.putLine_regs (s : State) (a : Nat) (m : LineMeta) : (s.putLine a m).regs = s.regs := rfl
@[simp] theorem State.putLine_force (s : State) (a : Nat) (m : LineMeta) : (s.putLine a m).force = s.force := rfl
@[simp] theorem State.putLine_ceWait (s : State) (a : Nat) (m : LineMeta) : (s.putLine a m).ceWait = s.ceWait := rfl
@[simp] theorem State.putLine_badPar (s : State) (a : Nat) (m : LineMeta) : (s.putLine a m).badPar = s.badPar := rfl
@[simp] theorem State.putLine_shadows (s : State) (a : Nat) (m : LineMeta) : (s.putLine a m).shadows = s.shadows := rfl
@[simp] theorem State.putLine_ddl (s : State) (a : Nat) (m : LineMeta) : (s.putLine a m).ddl = s.ddl := rfl
@[simp] theorem State.putLine_ctxs (s : State) (a : Nat) (m : LineMeta) : (s.putLine a m).ctxs = s.ctxs := rfl
@[simp] theorem State.putLine_dqe (s : State) (a : Nat) (m : LineMeta) : (s.putLine a m).dqe = s.dqe := rfl
@[simp] theorem State.putLine_issued (s : State) (a : Nat) (m : LineMeta) : (s.putLine a m).issued = s.issued := rfl
@[simp] theorem State.putLine_pfaults (s : State) (a : Nat) (m : LineMeta) : (s.putLine a m).pfaults = s.pfaults := rfl
@[simp] theorem State.putLine_reqs (s : State) (a : Nat) (m : LineMeta) : (s.putLine a m).reqs = s.reqs := rfl
@[simp] theorem State.putLine_helds (s : State) (a : Nat) (m : LineMeta) : (s.putLine a m).helds = s.helds := rfl
@[simp] theorem State.putLine_xlt (s : State) (a : Nat) (m : LineMeta) : (s.putLine a m).xlt = s.xlt := rfl
@[simp] theorem State.putLine_map (s : State) (a : Nat) (m : LineMeta) : (s.putLine a m).map = s.map := rfl
@[simp] theorem State.putLine_pcr (s : State) (a : Nat) (m : LineMeta) : (s.putLine a m).pcr = s.pcr := rfl
@[simp] theorem State.putLine_ftc (s : State) (a : Nat) (m : LineMeta) : (s.putLine a m).ftc = s.ftc := rfl
@[simp] theorem State.putLine_hpx (s : State) (a : Nat) (m : LineMeta) : (s.putLine a m).hpx = s.hpx := rfl
@[simp] theorem State.putLine_crg (s : State) (a : Nat) (m : LineMeta) : (s.putLine a m).crg = s.crg := rfl
@[simp] theorem State.putLine_ofp (s : State) (a : Nat) (m : LineMeta) : (s.putLine a m).ofp = s.ofp := rfl
@[simp] theorem State.putLine_bnd (s : State) (a : Nat) (m : LineMeta) : (s.putLine a m).bnd = s.bnd := rfl
@[simp] theorem State.putLine_icu (s : State) (a : Nat) (m : LineMeta) : (s.putLine a m).icu = s.icu := rfl
@[simp] theorem State.putLine_lkt (s : State) (a : Nat) (m : LineMeta) : (s.putLine a m).lkt = s.lkt := rfl
@[simp] theorem State.putLine_sec (s : State) (a : Nat) (m : LineMeta) : (s.putLine a m).sec = s.sec := rfl
@[simp] theorem State.putLine_mgt (s : State) (a : Nat) (m : LineMeta) : (s.putLine a m).mgt = s.mgt := rfl
@[simp] theorem State.putLine_flc (s : State) (a : Nat) (m : LineMeta) : (s.putLine a m).flc = s.flc := rfl
@[simp] theorem State.putLine_rpc (s : State) (a : Nat) (m : LineMeta) : (s.putLine a m).rpc = s.rpc := rfl
@[simp] theorem State.putLine_tap (s : State) (a : Nat) (m : LineMeta) : (s.putLine a m).tap = s.tap := rfl
@[simp] theorem State.putLine_out (s : State) (a : Nat) (m : LineMeta) : (s.putLine a m).out = s.out := rfl

/-! `State.putBytes` changes `mem`. -/

@[simp] theorem State.putBytes_pending (s : State) (a : Nat) (bs : List Byte) : (s.putBytes a bs).pending = s.pending := rfl
@[simp] theorem State.putBytes_now (s : State) (a : Nat) (bs : List Byte) : (s.putBytes a bs).now = s.now := rfl
@[simp] theorem State.putBytes_nextId (s : State) (a : Nat) (bs : List Byte) : (s.putBytes a bs).nextId = s.nextId := rfl
@[simp] theorem State.putBytes_free (s : State) (a : Nat) (bs : List Byte) : (s.putBytes a bs).free = s.free := rfl
@[simp] theorem State.putBytes_regs (s : State) (a : Nat) (bs : List Byte) : (s.putBytes a bs).regs = s.regs := rfl
@[simp] theorem State.putBytes_force (s : State) (a : Nat) (bs : List Byte) : (s.putBytes a bs).force = s.force := rfl
@[simp] theorem State.putBytes_ceWait (s : State) (a : Nat) (bs : List Byte) : (s.putBytes a bs).ceWait = s.ceWait := rfl
@[simp] theorem State.putBytes_badPar (s : State) (a : Nat) (bs : List Byte) : (s.putBytes a bs).badPar = s.badPar := rfl
@[simp] theorem State.putBytes_shadows (s : State) (a : Nat) (bs : List Byte) : (s.putBytes a bs).shadows = s.shadows := rfl
@[simp] theorem State.putBytes_ddl (s : State) (a : Nat) (bs : List Byte) : (s.putBytes a bs).ddl = s.ddl := rfl
@[simp] theorem State.putBytes_ctxs (s : State) (a : Nat) (bs : List Byte) : (s.putBytes a bs).ctxs = s.ctxs := rfl
@[simp] theorem State.putBytes_dqe (s : State) (a : Nat) (bs : List Byte) : (s.putBytes a bs).dqe = s.dqe := rfl
@[simp] theorem State.putBytes_issued (s : State) (a : Nat) (bs : List Byte) : (s.putBytes a bs).issued = s.issued := rfl
@[simp] theorem State.putBytes_pfaults (s : State) (a : Nat) (bs : List Byte) : (s.putBytes a bs).pfaults = s.pfaults := rfl
@[simp] theorem State.putBytes_reqs (s : State) (a : Nat) (bs : List Byte) : (s.putBytes a bs).reqs = s.reqs := rfl
@[simp] theorem State.putBytes_helds (s : State) (a : Nat) (bs : List Byte) : (s.putBytes a bs).helds = s.helds := rfl
@[simp] theorem State.putBytes_xlt (s : State) (a : Nat) (bs : List Byte) : (s.putBytes a bs).xlt = s.xlt := rfl
@[simp] theorem State.putBytes_map (s : State) (a : Nat) (bs : List Byte) : (s.putBytes a bs).map = s.map := rfl
@[simp] theorem State.putBytes_pcr (s : State) (a : Nat) (bs : List Byte) : (s.putBytes a bs).pcr = s.pcr := rfl
@[simp] theorem State.putBytes_ftc (s : State) (a : Nat) (bs : List Byte) : (s.putBytes a bs).ftc = s.ftc := rfl
@[simp] theorem State.putBytes_hpx (s : State) (a : Nat) (bs : List Byte) : (s.putBytes a bs).hpx = s.hpx := rfl
@[simp] theorem State.putBytes_crg (s : State) (a : Nat) (bs : List Byte) : (s.putBytes a bs).crg = s.crg := rfl
@[simp] theorem State.putBytes_ofp (s : State) (a : Nat) (bs : List Byte) : (s.putBytes a bs).ofp = s.ofp := rfl
@[simp] theorem State.putBytes_bnd (s : State) (a : Nat) (bs : List Byte) : (s.putBytes a bs).bnd = s.bnd := rfl
@[simp] theorem State.putBytes_icu (s : State) (a : Nat) (bs : List Byte) : (s.putBytes a bs).icu = s.icu := rfl
@[simp] theorem State.putBytes_lkt (s : State) (a : Nat) (bs : List Byte) : (s.putBytes a bs).lkt = s.lkt := rfl
@[simp] theorem State.putBytes_sec (s : State) (a : Nat) (bs : List Byte) : (s.putBytes a bs).sec = s.sec := rfl
@[simp] theorem State.putBytes_mgt (s : State) (a : Nat) (bs : List Byte) : (s.putBytes a bs).mgt = s.mgt := rfl
@[simp] theorem State.putBytes_flc (s : State) (a : Nat) (bs : List Byte) : (s.putBytes a bs).flc = s.flc := rfl
@[simp] theorem State.putBytes_rpc (s : State) (a : Nat) (bs : List Byte) : (s.putBytes a bs).rpc = s.rpc := rfl
@[simp] theorem State.putBytes_tap (s : State) (a : Nat) (bs : List Byte) : (s.putBytes a bs).tap = s.tap := rfl
@[simp] theorem State.putBytes_out (s : State) (a : Nat) (bs : List Byte) : (s.putBytes a bs).out = s.out := rfl

/-! `State.setLock` changes `lkt`. -/

@[simp] theorem State.setLock_pending (s : State) (k : Nat) (v : Option LockSt) : (s.setLock k v).pending = s.pending := rfl
@[simp] theorem State.setLock_now (s : State) (k : Nat) (v : Option LockSt) : (s.setLock k v).now = s.now := rfl
@[simp] theorem State.setLock_nextId (s : State) (k : Nat) (v : Option LockSt) : (s.setLock k v).nextId = s.nextId := rfl
@[simp] theorem State.setLock_free (s : State) (k : Nat) (v : Option LockSt) : (s.setLock k v).free = s.free := rfl
@[simp] theorem State.setLock_regs (s : State) (k : Nat) (v : Option LockSt) : (s.setLock k v).regs = s.regs := rfl
@[simp] theorem State.setLock_force (s : State) (k : Nat) (v : Option LockSt) : (s.setLock k v).force = s.force := rfl
@[simp] theorem State.setLock_ceWait (s : State) (k : Nat) (v : Option LockSt) : (s.setLock k v).ceWait = s.ceWait := rfl
@[simp] theorem State.setLock_badPar (s : State) (k : Nat) (v : Option LockSt) : (s.setLock k v).badPar = s.badPar := rfl
@[simp] theorem State.setLock_shadows (s : State) (k : Nat) (v : Option LockSt) : (s.setLock k v).shadows = s.shadows := rfl
@[simp] theorem State.setLock_mem (s : State) (k : Nat) (v : Option LockSt) : (s.setLock k v).mem = s.mem := rfl
@[simp] theorem State.setLock_ddl (s : State) (k : Nat) (v : Option LockSt) : (s.setLock k v).ddl = s.ddl := rfl
@[simp] theorem State.setLock_ctxs (s : State) (k : Nat) (v : Option LockSt) : (s.setLock k v).ctxs = s.ctxs := rfl
@[simp] theorem State.setLock_dqe (s : State) (k : Nat) (v : Option LockSt) : (s.setLock k v).dqe = s.dqe := rfl
@[simp] theorem State.setLock_issued (s : State) (k : Nat) (v : Option LockSt) : (s.setLock k v).issued = s.issued := rfl
@[simp] theorem State.setLock_pfaults (s : State) (k : Nat) (v : Option LockSt) : (s.setLock k v).pfaults = s.pfaults := rfl
@[simp] theorem State.setLock_reqs (s : State) (k : Nat) (v : Option LockSt) : (s.setLock k v).reqs = s.reqs := rfl
@[simp] theorem State.setLock_helds (s : State) (k : Nat) (v : Option LockSt) : (s.setLock k v).helds = s.helds := rfl
@[simp] theorem State.setLock_xlt (s : State) (k : Nat) (v : Option LockSt) : (s.setLock k v).xlt = s.xlt := rfl
@[simp] theorem State.setLock_map (s : State) (k : Nat) (v : Option LockSt) : (s.setLock k v).map = s.map := rfl
@[simp] theorem State.setLock_pcr (s : State) (k : Nat) (v : Option LockSt) : (s.setLock k v).pcr = s.pcr := rfl
@[simp] theorem State.setLock_ftc (s : State) (k : Nat) (v : Option LockSt) : (s.setLock k v).ftc = s.ftc := rfl
@[simp] theorem State.setLock_hpx (s : State) (k : Nat) (v : Option LockSt) : (s.setLock k v).hpx = s.hpx := rfl
@[simp] theorem State.setLock_crg (s : State) (k : Nat) (v : Option LockSt) : (s.setLock k v).crg = s.crg := rfl
@[simp] theorem State.setLock_ofp (s : State) (k : Nat) (v : Option LockSt) : (s.setLock k v).ofp = s.ofp := rfl
@[simp] theorem State.setLock_bnd (s : State) (k : Nat) (v : Option LockSt) : (s.setLock k v).bnd = s.bnd := rfl
@[simp] theorem State.setLock_icu (s : State) (k : Nat) (v : Option LockSt) : (s.setLock k v).icu = s.icu := rfl
@[simp] theorem State.setLock_sec (s : State) (k : Nat) (v : Option LockSt) : (s.setLock k v).sec = s.sec := rfl
@[simp] theorem State.setLock_mgt (s : State) (k : Nat) (v : Option LockSt) : (s.setLock k v).mgt = s.mgt := rfl
@[simp] theorem State.setLock_flc (s : State) (k : Nat) (v : Option LockSt) : (s.setLock k v).flc = s.flc := rfl
@[simp] theorem State.setLock_rpc (s : State) (k : Nat) (v : Option LockSt) : (s.setLock k v).rpc = s.rpc := rfl
@[simp] theorem State.setLock_tap (s : State) (k : Nat) (v : Option LockSt) : (s.setLock k v).tap = s.tap := rfl
@[simp] theorem State.setLock_out (s : State) (k : Nat) (v : Option LockSt) : (s.setLock k v).out = s.out := rfl

/-! `State.retireWait` changes `ctxs`. -/

@[simp] theorem State.retireWait_pending (s : State) (c : CtxId) (q : QIdx) (rd : BitVec 5) (v : DWord) : (s.retireWait c q rd v).pending = s.pending := rfl
@[simp] theorem State.retireWait_now (s : State) (c : CtxId) (q : QIdx) (rd : BitVec 5) (v : DWord) : (s.retireWait c q rd v).now = s.now := rfl
@[simp] theorem State.retireWait_nextId (s : State) (c : CtxId) (q : QIdx) (rd : BitVec 5) (v : DWord) : (s.retireWait c q rd v).nextId = s.nextId := rfl
@[simp] theorem State.retireWait_free (s : State) (c : CtxId) (q : QIdx) (rd : BitVec 5) (v : DWord) : (s.retireWait c q rd v).free = s.free := rfl
@[simp] theorem State.retireWait_regs (s : State) (c : CtxId) (q : QIdx) (rd : BitVec 5) (v : DWord) : (s.retireWait c q rd v).regs = s.regs := rfl
@[simp] theorem State.retireWait_force (s : State) (c : CtxId) (q : QIdx) (rd : BitVec 5) (v : DWord) : (s.retireWait c q rd v).force = s.force := rfl
@[simp] theorem State.retireWait_ceWait (s : State) (c : CtxId) (q : QIdx) (rd : BitVec 5) (v : DWord) : (s.retireWait c q rd v).ceWait = s.ceWait := rfl
@[simp] theorem State.retireWait_badPar (s : State) (c : CtxId) (q : QIdx) (rd : BitVec 5) (v : DWord) : (s.retireWait c q rd v).badPar = s.badPar := rfl
@[simp] theorem State.retireWait_shadows (s : State) (c : CtxId) (q : QIdx) (rd : BitVec 5) (v : DWord) : (s.retireWait c q rd v).shadows = s.shadows := rfl
@[simp] theorem State.retireWait_mem (s : State) (c : CtxId) (q : QIdx) (rd : BitVec 5) (v : DWord) : (s.retireWait c q rd v).mem = s.mem := rfl
@[simp] theorem State.retireWait_ddl (s : State) (c : CtxId) (q : QIdx) (rd : BitVec 5) (v : DWord) : (s.retireWait c q rd v).ddl = s.ddl := rfl
@[simp] theorem State.retireWait_dqe (s : State) (c : CtxId) (q : QIdx) (rd : BitVec 5) (v : DWord) : (s.retireWait c q rd v).dqe = s.dqe := rfl
@[simp] theorem State.retireWait_issued (s : State) (c : CtxId) (q : QIdx) (rd : BitVec 5) (v : DWord) : (s.retireWait c q rd v).issued = s.issued := rfl
@[simp] theorem State.retireWait_pfaults (s : State) (c : CtxId) (q : QIdx) (rd : BitVec 5) (v : DWord) : (s.retireWait c q rd v).pfaults = s.pfaults := rfl
@[simp] theorem State.retireWait_reqs (s : State) (c : CtxId) (q : QIdx) (rd : BitVec 5) (v : DWord) : (s.retireWait c q rd v).reqs = s.reqs := rfl
@[simp] theorem State.retireWait_helds (s : State) (c : CtxId) (q : QIdx) (rd : BitVec 5) (v : DWord) : (s.retireWait c q rd v).helds = s.helds := rfl
@[simp] theorem State.retireWait_xlt (s : State) (c : CtxId) (q : QIdx) (rd : BitVec 5) (v : DWord) : (s.retireWait c q rd v).xlt = s.xlt := rfl
@[simp] theorem State.retireWait_map (s : State) (c : CtxId) (q : QIdx) (rd : BitVec 5) (v : DWord) : (s.retireWait c q rd v).map = s.map := rfl
@[simp] theorem State.retireWait_pcr (s : State) (c : CtxId) (q : QIdx) (rd : BitVec 5) (v : DWord) : (s.retireWait c q rd v).pcr = s.pcr := rfl
@[simp] theorem State.retireWait_ftc (s : State) (c : CtxId) (q : QIdx) (rd : BitVec 5) (v : DWord) : (s.retireWait c q rd v).ftc = s.ftc := rfl
@[simp] theorem State.retireWait_hpx (s : State) (c : CtxId) (q : QIdx) (rd : BitVec 5) (v : DWord) : (s.retireWait c q rd v).hpx = s.hpx := rfl
@[simp] theorem State.retireWait_crg (s : State) (c : CtxId) (q : QIdx) (rd : BitVec 5) (v : DWord) : (s.retireWait c q rd v).crg = s.crg := rfl
@[simp] theorem State.retireWait_ofp (s : State) (c : CtxId) (q : QIdx) (rd : BitVec 5) (v : DWord) : (s.retireWait c q rd v).ofp = s.ofp := rfl
@[simp] theorem State.retireWait_bnd (s : State) (c : CtxId) (q : QIdx) (rd : BitVec 5) (v : DWord) : (s.retireWait c q rd v).bnd = s.bnd := rfl
@[simp] theorem State.retireWait_icu (s : State) (c : CtxId) (q : QIdx) (rd : BitVec 5) (v : DWord) : (s.retireWait c q rd v).icu = s.icu := rfl
@[simp] theorem State.retireWait_lkt (s : State) (c : CtxId) (q : QIdx) (rd : BitVec 5) (v : DWord) : (s.retireWait c q rd v).lkt = s.lkt := rfl
@[simp] theorem State.retireWait_sec (s : State) (c : CtxId) (q : QIdx) (rd : BitVec 5) (v : DWord) : (s.retireWait c q rd v).sec = s.sec := rfl
@[simp] theorem State.retireWait_mgt (s : State) (c : CtxId) (q : QIdx) (rd : BitVec 5) (v : DWord) : (s.retireWait c q rd v).mgt = s.mgt := rfl
@[simp] theorem State.retireWait_flc (s : State) (c : CtxId) (q : QIdx) (rd : BitVec 5) (v : DWord) : (s.retireWait c q rd v).flc = s.flc := rfl
@[simp] theorem State.retireWait_rpc (s : State) (c : CtxId) (q : QIdx) (rd : BitVec 5) (v : DWord) : (s.retireWait c q rd v).rpc = s.rpc := rfl
@[simp] theorem State.retireWait_tap (s : State) (c : CtxId) (q : QIdx) (rd : BitVec 5) (v : DWord) : (s.retireWait c q rd v).tap = s.tap := rfl
@[simp] theorem State.retireWait_out (s : State) (c : CtxId) (q : QIdx) (rd : BitVec 5) (v : DWord) : (s.retireWait c q rd v).out = s.out := rfl

/-! `State.icuFollow` changes `icu`. -/

@[simp] theorem State.icuFollow_pending (s : State) : (s.icuFollow).pending = s.pending := rfl
@[simp] theorem State.icuFollow_now (s : State) : (s.icuFollow).now = s.now := rfl
@[simp] theorem State.icuFollow_nextId (s : State) : (s.icuFollow).nextId = s.nextId := rfl
@[simp] theorem State.icuFollow_free (s : State) : (s.icuFollow).free = s.free := rfl
@[simp] theorem State.icuFollow_regs (s : State) : (s.icuFollow).regs = s.regs := rfl
@[simp] theorem State.icuFollow_force (s : State) : (s.icuFollow).force = s.force := rfl
@[simp] theorem State.icuFollow_ceWait (s : State) : (s.icuFollow).ceWait = s.ceWait := rfl
@[simp] theorem State.icuFollow_badPar (s : State) : (s.icuFollow).badPar = s.badPar := rfl
@[simp] theorem State.icuFollow_shadows (s : State) : (s.icuFollow).shadows = s.shadows := rfl
@[simp] theorem State.icuFollow_mem (s : State) : (s.icuFollow).mem = s.mem := rfl
@[simp] theorem State.icuFollow_ddl (s : State) : (s.icuFollow).ddl = s.ddl := rfl
@[simp] theorem State.icuFollow_ctxs (s : State) : (s.icuFollow).ctxs = s.ctxs := rfl
@[simp] theorem State.icuFollow_dqe (s : State) : (s.icuFollow).dqe = s.dqe := rfl
@[simp] theorem State.icuFollow_issued (s : State) : (s.icuFollow).issued = s.issued := rfl
@[simp] theorem State.icuFollow_pfaults (s : State) : (s.icuFollow).pfaults = s.pfaults := rfl
@[simp] theorem State.icuFollow_reqs (s : State) : (s.icuFollow).reqs = s.reqs := rfl
@[simp] theorem State.icuFollow_helds (s : State) : (s.icuFollow).helds = s.helds := rfl
@[simp] theorem State.icuFollow_xlt (s : State) : (s.icuFollow).xlt = s.xlt := rfl
@[simp] theorem State.icuFollow_map (s : State) : (s.icuFollow).map = s.map := rfl
@[simp] theorem State.icuFollow_pcr (s : State) : (s.icuFollow).pcr = s.pcr := rfl
@[simp] theorem State.icuFollow_ftc (s : State) : (s.icuFollow).ftc = s.ftc := rfl
@[simp] theorem State.icuFollow_hpx (s : State) : (s.icuFollow).hpx = s.hpx := rfl
@[simp] theorem State.icuFollow_crg (s : State) : (s.icuFollow).crg = s.crg := rfl
@[simp] theorem State.icuFollow_ofp (s : State) : (s.icuFollow).ofp = s.ofp := rfl
@[simp] theorem State.icuFollow_bnd (s : State) : (s.icuFollow).bnd = s.bnd := rfl
@[simp] theorem State.icuFollow_lkt (s : State) : (s.icuFollow).lkt = s.lkt := rfl
@[simp] theorem State.icuFollow_sec (s : State) : (s.icuFollow).sec = s.sec := rfl
@[simp] theorem State.icuFollow_mgt (s : State) : (s.icuFollow).mgt = s.mgt := rfl
@[simp] theorem State.icuFollow_flc (s : State) : (s.icuFollow).flc = s.flc := rfl
@[simp] theorem State.icuFollow_rpc (s : State) : (s.icuFollow).rpc = s.rpc := rfl
@[simp] theorem State.icuFollow_tap (s : State) : (s.icuFollow).tap = s.tap := rfl
@[simp] theorem State.icuFollow_out (s : State) : (s.icuFollow).out = s.out := rfl

/-! `State.before` changes `pending`. -/

@[simp] theorem State.before_now (s : State) (c : Instr) : (s.before c).now = s.now := rfl
@[simp] theorem State.before_nextId (s : State) (c : Instr) : (s.before c).nextId = s.nextId := rfl
@[simp] theorem State.before_free (s : State) (c : Instr) : (s.before c).free = s.free := rfl
@[simp] theorem State.before_regs (s : State) (c : Instr) : (s.before c).regs = s.regs := rfl
@[simp] theorem State.before_force (s : State) (c : Instr) : (s.before c).force = s.force := rfl
@[simp] theorem State.before_ceWait (s : State) (c : Instr) : (s.before c).ceWait = s.ceWait := rfl
@[simp] theorem State.before_badPar (s : State) (c : Instr) : (s.before c).badPar = s.badPar := rfl
@[simp] theorem State.before_shadows (s : State) (c : Instr) : (s.before c).shadows = s.shadows := rfl
@[simp] theorem State.before_mem (s : State) (c : Instr) : (s.before c).mem = s.mem := rfl
@[simp] theorem State.before_ddl (s : State) (c : Instr) : (s.before c).ddl = s.ddl := rfl
@[simp] theorem State.before_ctxs (s : State) (c : Instr) : (s.before c).ctxs = s.ctxs := rfl
@[simp] theorem State.before_dqe (s : State) (c : Instr) : (s.before c).dqe = s.dqe := rfl
@[simp] theorem State.before_issued (s : State) (c : Instr) : (s.before c).issued = s.issued := rfl
@[simp] theorem State.before_pfaults (s : State) (c : Instr) : (s.before c).pfaults = s.pfaults := rfl
@[simp] theorem State.before_reqs (s : State) (c : Instr) : (s.before c).reqs = s.reqs := rfl
@[simp] theorem State.before_helds (s : State) (c : Instr) : (s.before c).helds = s.helds := rfl
@[simp] theorem State.before_xlt (s : State) (c : Instr) : (s.before c).xlt = s.xlt := rfl
@[simp] theorem State.before_map (s : State) (c : Instr) : (s.before c).map = s.map := rfl
@[simp] theorem State.before_pcr (s : State) (c : Instr) : (s.before c).pcr = s.pcr := rfl
@[simp] theorem State.before_ftc (s : State) (c : Instr) : (s.before c).ftc = s.ftc := rfl
@[simp] theorem State.before_hpx (s : State) (c : Instr) : (s.before c).hpx = s.hpx := rfl
@[simp] theorem State.before_crg (s : State) (c : Instr) : (s.before c).crg = s.crg := rfl
@[simp] theorem State.before_ofp (s : State) (c : Instr) : (s.before c).ofp = s.ofp := rfl
@[simp] theorem State.before_bnd (s : State) (c : Instr) : (s.before c).bnd = s.bnd := rfl
@[simp] theorem State.before_icu (s : State) (c : Instr) : (s.before c).icu = s.icu := rfl
@[simp] theorem State.before_lkt (s : State) (c : Instr) : (s.before c).lkt = s.lkt := rfl
@[simp] theorem State.before_sec (s : State) (c : Instr) : (s.before c).sec = s.sec := rfl
@[simp] theorem State.before_mgt (s : State) (c : Instr) : (s.before c).mgt = s.mgt := rfl
@[simp] theorem State.before_flc (s : State) (c : Instr) : (s.before c).flc = s.flc := rfl
@[simp] theorem State.before_rpc (s : State) (c : Instr) : (s.before c).rpc = s.rpc := rfl
@[simp] theorem State.before_tap (s : State) (c : Instr) : (s.before c).tap = s.tap := rfl
@[simp] theorem State.before_out (s : State) (c : Instr) : (s.before c).out = s.out := rfl

end Sys2Proof.Machine
end

