-- ==== Sys2Proof/Laws/Settle.lean ====
section
/-! SUPPORT. The end of a command: what settling leaves as it was, and that no reaction waits afterwards. -/

namespace Sys2Proof.Machine

/-- With nothing to react to, the reactions change nothing. -/
theorem State.reactions_none (s : State) (n : Nat) (h : s.flc.todo = []) : s.reactions n = s := by
  cases n with
  | zero => rfl
  | succ n => simp [State.reactions, h]

theorem State.lockDrops_none (s : State) (h : s.lkt.dropWait = []) : s.lockDrops = s := by
  simp [State.lockDrops, forAll, h]

/-- Settling a state in which no reaction and no lock drop waits only brings the interrupt lines up to date. -/
theorem State.settle_calm (s : State) (h : s.flc.todo = []) (hl : s.lkt.dropWait = []) : s.settle = s.icuFollow := by
  unfold State.settle
  simp only [State.reactions_none s _ h]
  have e : ({ s with flc := { s.flc with todo := [] } } : State) = s := by
    cases s; rename_i f _ _ _; cases f; simp_all
  rw [e, State.lockDrops_none s hl]

/-! What locks that are granted on leave as it was: everything but LKT, the queues that waited, and the cores. -/

/-- A property of states that is kept by each step of a fold is kept by the fold. -/
theorem forAll_keeps {α : Type} (P : State → Prop) (l : List α) (s : State) (f : State → α → State) (h : P s)
    (hf : ∀ t x, P t → P (f t x)) : P (forAll l s f) := by
  unfold forAll
  induction l generalizing s with
  | nil => exact h
  | cons x l ih => exact ih (f s x) (hf s x h)

theorem State.lkReply_flc (s : State) (w : LockOwner) (v : DWord) : (s.lkReply w v).flc = s.flc := by
  unfold State.lkReply
  split
  · split <;> simp
  · simp
  · rfl

theorem State.lkGrant_flc (s : State) (k : Nat) : (s.lkGrant k).flc = s.flc := by
  unfold State.lkGrant
  split
  · rfl
  · simp [State.lkReply_flc]

theorem State.lkAbandon_flc (s : State) (m : LockOwner → Bool) : (s.lkAbandon m).flc = s.flc := by
  unfold State.lkAbandon
  refine forAll_keeps (fun t => t.flc = s.flc) _ _ _ rfl ?_
  intro t k h
  simp [State.lkGrant_flc, h]

theorem State.lockDrops_flc (s : State) : s.lockDrops.flc = s.flc := by
  unfold State.lockDrops
  refine forAll_keeps (fun t => t.flc = s.flc) _ _ _ rfl ?_
  intro t e h
  simp only
  split
  · exact h
  · simp [State.lkAbandon_flc, h]

/-- After every command no fault waits for its reaction. -/
theorem State.settle_todo (s : State) : s.settle.flc.todo = [] := by
  unfold State.settle
  simp [State.lockDrops_flc]

/-! The interrupt lines that FLC drives, and the sources without a target, after every command. -/

theorem mem_addTo {α : Type} [DecidableEq α] (l : List α) (x y : α) : y ∈ addTo l x ↔ y ∈ l ∨ y = x := by
  unfold addTo
  split
  · constructor
    · exact Or.inl
    · rintro (h | h)
      · exact h
      · rwa [h]
  · simp

theorem mem_dropFrom {α : Type} [DecidableEq α] (l : List α) (x y : α) : y ∈ dropFrom l x ↔ y ∈ l ∧ y ≠ x := by
  simp [dropFrom]

theorem Icu.level_cores (x : Icu) (n : Nat) (b : Bool) : (x.level n b).cores = x.cores := by
  unfold Icu.level
  split <;> rfl

theorem Icu.level_isActive (x : Icu) (n k : Nat) (b : Bool) : (x.level n b).isActive k = x.isActive k := by
  simp [Icu.isActive, Icu.level_cores]

/-- What a level source shows: its cause, and pending where no core serves it. -/
def Icu.shows (x : Icu) (n : Nat) (b : Bool) : Prop :=
  (n ∈ x.causes ↔ b = true) ∧ (b = true → x.isActive n = false → n ∈ x.pend) ∧ (b = false → n ∉ x.pend)

/-- A level source that takes a level shows it. -/
theorem Icu.level_shows (x : Icu) (n : Nat) (b : Bool) : (x.level n b).shows n b := by
  refine ⟨?_, ?_, ?_⟩
  · cases b <;> simp [Icu.level, mem_addTo, mem_dropFrom]
  · intro h h2
    rw [Icu.level_isActive] at h2
    simp [Icu.level, h, h2, mem_addTo]
  · intro h
    simp [Icu.level, h, mem_dropFrom]

theorem Icu.level_shows_other (x : Icu) (n k : Nat) (b c : Bool) (hk : k ≠ n) (h : x.shows k c) : (x.level n b).shows k c := by
  obtain ⟨h1, h2, h3⟩ := h
  refine ⟨?_, ?_, ?_⟩
  · rw [← h1]; cases b <;> simp [Icu.level, mem_addTo, mem_dropFrom, hk]
  · intro hc ha
    rw [Icu.level_isActive] at ha
    have := h2 hc ha
    cases b <;> simp only [Icu.level, if_true, Bool.false_eq_true, if_false, mem_dropFrom]
    · exact ⟨this, hk⟩
    · split
      · exact this
      · rw [mem_addTo]; exact Or.inl this
  · intro hc
    have := h3 hc
    cases b <;> simp only [Icu.level, if_true, Bool.false_eq_true, if_false, mem_dropFrom]
    · exact fun h => this h.1
    · split
      · exact this
      · rw [mem_addTo]; rintro (h | h); exact this h; exact hk h

theorem Icu.levels_keep (l : List (Nat × Bool)) (x : Icu) (k : Nat) (c : Bool) (hk : k ∉ l.map Prod.fst) (h : x.shows k c) :
    (l.foldl (fun x e => x.level e.1 e.2) x).shows k c := by
  induction l generalizing x with
  | nil => exact h
  | cons e l ih =>
    simp only [List.map, List.mem_cons, not_or] at hk
    exact ih (x.level e.1 e.2) hk.2 (Icu.level_shows_other x e.1 k e.2 c hk.1 h)

theorem Icu.levels_show (l : List (Nat × Bool)) (x : Icu) (hd : (l.map Prod.fst).Nodup) :
    ∀ e ∈ l, (l.foldl (fun x e => x.level e.1 e.2) x).shows e.1 e.2 := by
  induction l generalizing x with
  | nil => intro e h; cases h
  | cons a l ih =>
    intro e h
    simp only [List.map, List.nodup_cons] at hd
    rcases List.mem_cons.mp h with h | h
    · subst h
      exact Icu.levels_keep l _ _ _ hd.1 (Icu.level_shows x e.1 e.2)
    · exact ih (x.level a.1 a.2) hd.2 e h

theorem State.icuFollow_lines (s : State) : LinesFollow s.icuFollow := by
  intro e he
  exact Icu.levels_show s.flcSources s.icu (by simp [State.flcSources]) e he

/-- Every command leaves a settled state. -/
theorem State.settle_settled (s : State) : Settled s.settle := ⟨State.settle_todo s, State.icuFollow_lines _⟩

theorem State.icuFollow_targetless (s : State) : TargetlessKnown s.icuFollow := by
  intro n
  let t : State := { s with icu := s.flcSources.foldl (fun x e => x.level e.1 e.2) s.icu }
  show (Map.look (State.icuWaits t) n).isSome = true ↔ (n ∈ t.icuReady ∧ ∀ c ∈ allCores, t.eligible n c = false)
  unfold State.icuWaits
  rw [Map.look_fold_put]
  simp [Map.look]

/-- Every command leaves the sources without a target known. -/
theorem State.settle_targetless (s : State) : TargetlessKnown s.settle := State.icuFollow_targetless _

end Sys2Proof.Machine
end

