-- ==== Sys2Proof/Laws/Issue.lean ====
section
/-! SUPPORT. The issue of a Jarud instruction: an instruction that issues does what its body says, and nothing else. -/

namespace Sys2Proof

open Machine

theorem Issues.issue {s t : State} {c : CtxId} {q : QIdx} {op : Nat} {x : JIn} (h : Issues s c q op x t)
    (mine : Nat → Bool) (hm : mine x.w = true) (body : JBody) :
    s.issue c q mine body = (body c q x (t.countIssue c q)).getD s := by
  obtain ⟨bs, u, h1, h2, h3⟩ := h.words
  obtain ⟨e, he, hf, hd⟩ := h.legal
  have hx : (⟨x.w, x.pay, t.queue c q, t.xlt.seqs⟩ : JIn) = x := by
    rw [← h.source, ← h.tables]
  have hw : 1 ≤ J.words x.w := by unfold J.words; omega
  have ha : ¬ (s.queue c q).ahead < 1 := by have := h.whole; omega
  have hb : ¬ (s.queue c q).ahead < J.words x.w := by have := h.whole; omega
  have hg : (!guardPasses x.w (t.queue c q).pred) = false := by rw [h.guard]; rfl
  unfold State.issue
  simp only [h.ready, ha, h1, h2, hb, he, hm, h3, decide_false, Bool.not_true, Bool.or_false, Bool.false_eq_true, if_false]
  unfold State.issueWord
  simp only [hf, hd, hg, h.oneIndex, Bool.false_eq_true, if_false, hx]

/-- An instruction whose guard fails only passes. -/
theorem GuardedOff.issue {s t : State} {c : CtxId} {q : QIdx} {op : Nat} {x : JIn} (h : GuardedOff s c q op x t)
    (mine : Nat → Bool) (hm : mine x.w = true) (body : JBody) :
    s.issue c q mine body = (t.countIssue c q).advance c q x.w := by
  obtain ⟨bs, u, h1, h2, h3⟩ := h.words
  obtain ⟨e, he, hf⟩ := h.legal
  have hw : 1 ≤ J.words x.w := by unfold J.words; omega
  have ha : ¬ (s.queue c q).ahead < 1 := by have := h.whole; omega
  have hb : ¬ (s.queue c q).ahead < J.words x.w := by have := h.whole; omega
  have hg : (!guardPasses x.w (t.queue c q).pred) = true := by rw [h.guard]; rfl
  unfold State.issue
  simp only [h.ready, ha, h1, h2, hb, he, hm, h3, decide_false, Bool.not_true, Bool.or_false, Bool.false_eq_true, if_false]
  unfold State.issueWord
  simp only [hf, hg, Bool.false_eq_true, if_false, if_true, Option.getD_some]

/-- The opcode test of an instruction whose guard fails. -/
theorem GuardedOff.mine {s t : State} {c : CtxId} {q : QIdx} {op : Nat} {x : JIn} (h : GuardedOff s c q op x t) :
    opcIs op x.w = true := by
  simp [opcIs, h.opcode]

/-- The opcode test of a row. -/
theorem Issues.mine {s t : State} {c : CtxId} {q : QIdx} {op : Nat} {x : JIn} (h : Issues s c q op x t) :
    opcIs op x.w = true := by
  simp [opcIs, h.opcode]

/-- An access that reaches its register is served. -/
theorem Arrives.serve {s : State} {w : Who} {addr : Nat} (h : Arrives s w addr) (f : State → State) :
    s.regArrive w addr f = f s := by
  have hr := h.runs
  have hn := h.notHost
  unfold State.regArrive
  rw [h.island]
  cases w with
  | host g => exact absurd rfl (hn g)
  | core n => simp [hr n rfl]
  | _ => rfl

/-- A write that its initiator may make is made. -/
theorem Arrives.write {s : State} {w : Who} {r : RegName} {ix : List Nat} (h : Arrives s w (regAddr r ix)) (f : State → State) :
    s.writeBy true w r ix f = f s := by
  unfold State.writeBy
  rw [h.serve]
  rfl

/-- A command of the operator is carried out. -/
theorem Authority.operator {s : State} (h : Authority s) (f : State → State) : s.byOperator f = f s := by
  unfold State.byOperator State.bySession
  rw [h.session, if_pos rfl]
  exact if_neg h.image

/-- A command of binding authority is carried out. -/
theorem Authority.run {s : State} (h : Authority s) (f : State → State) : s.byAuthority f = f s := by
  unfold State.byAuthority
  rw [h.operator, h.free]
  rfl

end Sys2Proof
end

