-- ==== Sys2Proof/Tests/Slice0.lean ====
section
/-! SUPPORT. The model's own tests: ill-formed commands, witnesses that the hypotheses of every statement can be met together,
and the spec's worked examples. -/

namespace Sys2Proof.Tests
open Machine

/-- A base word from its fields (R195). -/
def word (op : Nat) (md rd ama ra imm0 amb rb imm1 imm2 : Nat := 0) (rc xc guard : Nat := 0) : Nat :=
  op + xc * 2 ^ 8 + guard * 2 ^ 11 + md * 2 ^ 16 + rd * 2 ^ 24 + ra * 2 ^ 32 + rb * 2 ^ 37 + rc * 2 ^ 42 + ama * 2 ^ 48 +
    amb * 2 ^ 52 + imm0 * 2 ^ 64 + imm1 * 2 ^ 128 + imm2 * 2 ^ 192

/-- Bytes of ring words as a memory. -/
def listed (a : Nat) (bs : List Byte) : Memory := Memory.writeN [] a bs

/-- The ring page of the tests. -/
def ringAt : Nat := 0x100000000

/-- A queue whose ring holds words. -/
def queueOf (ws : List Nat) (q : Queue := {}) : Queue :=
  { q with state := .active, ring := [ringAt], tail := BitVec.ofNat 32 ws.length }

/-- A resident context 0 whose queue 0 holds words, in the machine after reset. -/
def ring (ws : List Nat) (q : Queue := {}) (c : Ctx := {}) (s : State := State.reset) : State :=
  { s with
    ctxs := [(0, { c with slot := some 0, queues := queueOf ws q :: List.replicate 7 ({} : Queue) })]
    mem := { s.mem with
      bytes := listed ringAt (ws.flatMap (fun w => leBytes 32 w))
      lines := (rangeFrom 0 ws.length).map (fun i => (ringAt / 64 + i, { tag := 0, owned := true })) } }

/-- What queue 0 of context 0 fetches at HEAD. -/
def fetchAt (s : State) (c : CtxId) (q : QIdx) : Option (JIn × State) :=
  let r := s.queue c q
  let f := s.fetchWords c r 1 r.head
  let y := f.2.2.fetchWords c r (J.xc (leVal f.1)) (r.head + 1)
  if f.2.1 || y.2.1 then none
  else some ({ w := leVal f.1, pay := y.1, q := y.2.2.queue c q, seqs := y.2.2.xlt.seqs }, y.2.2)

/-- Whether it issues. -/
def issuesB (s : State) (c : CtxId) (q : QIdx) (op : Nat) (x : JIn) (t : State) : Bool :=
  s.issueReady c q && decide (J.words x.w ≤ (s.queue c q).ahead) && J.opc x.w == op &&
  (match encOf x.w with
    | some e => encFault x.w e == none && !(regDeps x.w e).any (fun k => (t.pendingRegs c q).contains k)
    | none => false) &&
  guardPasses x.w (t.queue c q).pred && !(J.ama x.w == amIndex && J.amb x.w == amIndex)

theorem issues_of {s t : State} {c : CtxId} {q : QIdx} {op : Nat} {x : JIn} (h : fetchAt s c q = some (x, t))
    (h2 : issuesB s c q op x t = true) : Issues s c q op x t := by
  unfold fetchAt at h
  simp only at h
  split at h
  · cases h
  rename_i hp
  simp only [Bool.or_eq_true, not_or, Bool.not_eq_true] at hp
  simp only [Option.some.injEq, Prod.mk.injEq] at h
  obtain ⟨hx, ht⟩ := h
  simp only [issuesB, Bool.and_eq_true, beq_iff_eq, decide_eq_true_eq, Bool.not_eq_true'] at h2
  obtain ⟨⟨⟨⟨⟨h1, h3⟩, h4⟩, h5⟩, h6⟩, h7⟩ := h2
  have hw : leVal (s.fetchWords c (s.queue c q) 1 (s.queue c q).head).1 = x.w := by rw [← hx]
  refine ⟨h1, h3, ⟨_, (s.fetchWords c (s.queue c q) 1 (s.queue c q).head).2.2, ?_, hw, ?_⟩, h4, ?_, h6, ?_, ?_, ?_⟩
  · rw [← hp.1]
  · rw [← hw, ← ht, ← hp.2, ← hx]
  · split at h5
    · rename_i e he
      simp only [Bool.and_eq_true, beq_iff_eq, Bool.not_eq_true'] at h5
      exact ⟨e, he, h5.1, h5.2⟩
    · cases h5
  · intro hh; rw [hh.1, hh.2] at h7; cases h7
  · rw [← hx, ← ht]
  · rw [← hx, ← ht]

/-- Queue 0 of context 0 issues a word of an opcode, and the instruction and the state after its fetch have a property. -/
def Meets (s : State) (op : Nat) (P : JIn → State → Prop) : Prop := ∃ x t, Issues s 0 0 op x t ∧ P x t

theorem meets {s : State} {op : Nat} {P : JIn → State → Prop} {x : JIn} {t : State} (h : fetchAt s 0 0 = some (x, t))
    (h2 : issuesB s 0 0 op x t = true) (h3 : P x t) : Meets s op P := ⟨x, t, issues_of h h2, h3⟩

def meetsB (s : State) (op : Nat) (p : JIn → State → Bool) : Bool :=
  match fetchAt s 0 0 with
  | some (x, t) => issuesB s 0 0 op x t && p x t
  | none => false

theorem meets_of {s : State} {op : Nat} {P : JIn → State → Prop} [∀ x t, Decidable (P x t)]
    (h : meetsB s op (fun x t => decide (P x t)) = true) : Meets s op P := by
  unfold meetsB at h
  split at h
  · rename_i x t hx
    simp only [Bool.and_eq_true, decide_eq_true_eq] at h
    exact meets hx h.1 h.2
  · cases h

theorem meets_all {l : List Nat} {s : Nat → State} {op : Nat → Nat} {P : Nat → JIn → State → Prop}
    [∀ k x t, Decidable (P k x t)] (h : l.all (fun k => meetsB (s k) (op k) (fun x t => decide (P k x t))) = true) :
    ∀ k ∈ l, Meets (s k) (op k) (P k) := by
  intro k hk
  exact meets_of (List.all_eq_true.mp h k hk)

/-- Whether the instruction at HEAD is guarded off. -/
def skipsB (s : State) (c : CtxId) (q : QIdx) (op : Nat) (x : JIn) (t : State) : Bool :=
  s.issueReady c q && decide (J.words x.w ≤ (s.queue c q).ahead) && J.opc x.w == op &&
  (match encOf x.w with
    | some e => encFault x.w e == none
    | none => false) && !guardPasses x.w (t.queue c q).pred

theorem skips_of {s : State} {op : Nat} (h : (match fetchAt s 0 0 with
    | some (x, t) => skipsB s 0 0 op x t
    | none => false) = true) : ∃ x t, GuardedOff s 0 0 op x t := by
  split at h
  · rename_i x t hx
    refine ⟨x, t, ?_⟩
    unfold fetchAt at hx
    simp only at hx
    split at hx
    · cases hx
    rename_i hp
    simp only [Bool.or_eq_true, not_or, Bool.not_eq_true] at hp
    simp only [Option.some.injEq, Prod.mk.injEq] at hx
    obtain ⟨hx, ht⟩ := hx
    simp only [skipsB, Bool.and_eq_true, beq_iff_eq, decide_eq_true_eq, Bool.not_eq_true'] at h
    obtain ⟨⟨⟨⟨h1, h3⟩, h4⟩, h5⟩, h6⟩ := h
    have hw : leVal (s.fetchWords 0 (s.queue 0 0) 1 (s.queue 0 0).head).1 = x.w := by rw [← hx]
    refine ⟨h1, h3, ⟨_, (s.fetchWords 0 (s.queue 0 0) 1 (s.queue 0 0).head).2.2, ?_, hw, ?_⟩, h4, ?_, h6⟩
    · rw [← hp.1]
    · rw [← hw, ← ht, ← hp.2, ← hx]
    · split at h5
      · rename_i e he
        simp only [beq_iff_eq] at h5
        exact ⟨e, he, h5⟩
      · cases h5
  · cases h

/-- The machine with every island powered. -/
def on : State := { State.reset with rpc := { islands := rangeFrom 0 96 } }

/-- It, with host link 0 up and function 0 open. -/
def linked (x : Fn := {}) : State :=
  { on with hpx := { links := { dlup := true, st := .l0, width := 16, full := 16 } :: List.replicate 7 ({} : Link)
                     fns := [(0, { x with present := true, ready := true, mse := true })] } }

/-- Whether a register access by a core reaches its register. -/
def arrivesB (s : State) (n : CoreId) (a : Nat) : Bool := s.islandOn (regIsland a) && s.coreRuns n

theorem arrives_of {s : State} {n : CoreId} {a : Nat} (h : arrivesB s n a = true) : Arrives s (.core n) a := by
  simp only [arrivesB, Bool.and_eq_true] at h
  exact ⟨h.1, fun m hm => by injection hm with hm; exact hm ▸ h.2, fun _ hm => by cases hm⟩

/-- Whether a request of a host function reaches the HTU. -/
def reachesB (s : State) (f : FnId) : Bool :=
  (s.link (s.fnLink f)).dlup && !(s.link (s.fnLink f)).frozen && s.barOpen f

theorem reaches_of {s : State} {f : FnId} (h : reachesB s f = true) : Reaches s f := by
  simp only [reachesB, Bool.and_eq_true, Bool.not_eq_true'] at h
  exact ⟨h.1.1, h.1.2, h.2⟩


/-! ## Ill-formed commands, which the checks refuse -/

theorem test_wf_module :
    Instr.wf (.ddlCrcRetry 24) = false ∧ Instr.wf (.ddlLaneDegrade 31) = false ∧ Instr.wf (.ddlModuleLinkDown 24) = false ∧
    Instr.wf (.ddlModuleRetrain 24) = false ∧ Instr.wf (.ddlTrainComplete 24 0 [] 0 0) = false ∧
    Instr.wf (.ddlLinkwaitExpire 24) = false ∧ Instr.wf (.ddlCrcRetry 23) = true := by decide

theorem test_wf_island :
    Instr.wf (.islandPllTimeout 96) = false ∧ Instr.wf (.islandAccessTimeout .hw 96 .none 0) = false ∧
    Instr.wf (.islandPllTimeout 95) = true := by decide

theorem test_wf_line :
    Instr.wf (.wrline 0 0 []) = false ∧ Instr.wf (.wbm 0 0 []) = false ∧ Instr.wf (.memwr 0 0 0 [] false) = false ∧
    Instr.wf (.hcaHostResponse 0 0 [] true false) = false ∧ Instr.wf (.bisnpResponse 0 0 (some []) .i) = false ∧
    Instr.wf (.wrline 0 0 (List.replicate 64 0)) = true := by decide

theorem test_wf_block : Instr.wf (.blkCtrlWrite .hw 19 0) = false ∧ Instr.wf (.blkCtrlWrite .hw 18 0) = true := by decide

theorem test_wf_settings :
    Instr.wf (.settingsCommand { schema := 0, seq := 0, body := 0 }) = false ∧
    Instr.wf (.settingsCommand { schema := 1, seq := 0, body := 0 }) = true := by decide

/-! ## Witnesses: Jarud instructions -/

/-- A context with events, and the fields that control contexts have. -/
def eventful : Ctx := { evset := true, lev := 4, lcq := 4, ldcq := 4 }

theorem witness_ControlAndPredicates :
    Meets (ring [word 0x01]) 0x01 (fun _ _ => True) ∧
    Meets (ring [word 0x02]) 0x02 (fun x _ =>
      (x.q.tail - (x.q.head + BitVec.ofNat 32 (fld (J.imm2 x.w) 31 0))).toNat ≤ 2 ^ x.q.lsize) ∧
    Meets (ring [word 0x03]) 0x03 (fun x _ => (x.q.tail - BitVec.ofNat 32 x.aVal.toNat).toNat ≤ 2 ^ x.q.lsize) ∧
    Meets (ring [word 0x04 (rd := 7)]) 0x04 (fun x _ =>
      (x.q.tail - (x.q.head + BitVec.ofNat 32 (fld (J.imm2 x.w) 31 0))).toNat ≤ 2 ^ x.q.lsize) ∧
    Meets (ring [word 0x08 (md := 8) (rd := 2) (ra := 1) (rb := 3)]) 0x08 (fun _ _ => True) ∧
    Meets (ring [word 0x09 (rd := 2) (ra := 1)]) 0x09 (fun _ _ => True) ∧
    Meets (ring [word 0x0A (rd := 2)]) 0x0A (fun _ _ => True) ∧
    Meets (ring [word 0x0B (ama := 1) (imm0 := 255)]) 0x0B (fun _ _ => True) :=
  ⟨meets_of (by decide), meets_of (by decide), meets_of (by decide), meets_of (by decide), meets_of (by decide),
   meets_of (by decide), meets_of (by decide), meets_of (by decide)⟩

theorem witness_IntegerWithFlags :
    (∀ op ∈ [0x20, 0x21, 0x22, 0x23, 0x25], Meets (ring [word op (md := 0xD) (rd := 5) (ra := 6) (amb := 1) (imm1 := 3)]) op
      (fun _ _ => True)) ∧
    Meets (ring [word 0x24 (md := 0xD) (rd := 5) (ra := 6)]) 0x24 (fun _ _ => True) ∧
    (∀ op ∈ [0x27, 0x28], Meets (ring [word op (md := 0xD) (rd := 5) (ra := 6) (amb := 1) (imm1 := 3)]) op
      (fun x _ => srcNat (J.wid x.w) x.bVal ≠ 0 ∨ flagBit x.q.flags Fl.trapdz = false)) ∧
    (∀ op ∈ [0x27, 0x28], Meets (ring [word op (md := 0xD) (rd := 5) (ra := 6)]) op
      (fun x _ => srcNat (J.wid x.w) x.bVal = 0 ∧ flagBit x.q.flags Fl.trapdz = false)) := by
  exact ⟨meets_all (by decide), meets_of (by decide), meets_all (by decide), meets_all (by decide)⟩

theorem witness_IntegerWithoutFlags :
    (∀ op ∈ [0x26, 0x29, 0x2A, 0x2B, 0x2C, 0x2D, 0x2E, 0x2F, 0x30, 0x31, 0x32],
      Meets (ring [word op (md := 0xE) (rd := 31) (ra := 6) (amb := 1) (imm1 := 64)]) op (fun _ _ => True)) ∧
    Meets (ring [word 0x33 (md := 0xE) (rd := 7) (ra := 6) (imm2 := 5)]) 0x33 (fun _ _ => True) ∧
    Meets (ring [word 0x34 (md := 0xE) (rd := 7) (ra := 6)]) 0x34 (fun x _ => J.ama x.w ≠ amInline) ∧
    Meets (ring [word 0x34 (md := 0xE) (rd := 7) (ama := 5) (imm0 := 24) (xc := 1), 9]) 0x34 (fun x _ =>
      J.ama x.w = amInline ∧ fld (J.imm0 x.w) 7 0 + J.wid x.w / 8 ≤ 32 * J.xc x.w) ∧
    Meets (ring [word 0x35 (rd := 7) (ama := 2) (imm0 := 64)]) 0x35 (fun _ _ => True) ∧
    Meets (ring [word 0x36 (md := 6) (rd := 7)]) 0x36 (fun _ _ => True) ∧
    Meets (ring [word 0x37 (md := 6) (rd := 7)]) 0x37 (fun _ _ => True) := by
  exact ⟨meets_all (by decide), meets_of (by decide), meets_of (by decide), meets_of (by decide), meets_of (by decide),
    meets_of (by decide), meets_of (by decide)⟩

theorem witness_FlagsConvertPacing :
    Meets (ring [word 0x38 (rd := 1)]) 0x38 (fun _ _ => True) ∧
    Meets (ring [word 0x39 (imm2 := 255)]) 0x39 (fun _ _ => True) ∧
    Meets (ring [word 0x3A (rd := 1)]) 0x3A (fun x _ => (cvOf (fld (J.imm2 x.w) 55 40)).rnd ≠ 4) ∧
    Meets (ring [word 0x3A (rd := 1) (imm2 := 4 * 2 ^ 52)]) 0x3A (fun x _ => (cvOf (fld (J.imm2 x.w) 55 40)).rnd = 4) ∧
    Meets (ring [word 0xA0 (rd := 1)]) 0xA0 (fun _ _ => True) ∧
    Meets (ring [word 0xA1 (md := 1)]) 0xA1 (fun _ _ => True) ∧
    Meets (ring [word 0xA3 (rd := 1)]) 0xA3 (fun _ _ => True) ∧
    Meets (ring [word 0xA2 (md := 1) (rd := 1) (imm2 := 15)] {} eventful) 0xA2 (fun x t =>
      (J.md x.w).testBit 0 = true → fld (J.imm2 x.w) 15 0 < (t.countIssue 0 0).eventsOf 0) :=
  ⟨meets_of (by decide), meets_of (by decide), meets_of (by decide), meets_of (by decide), meets_of (by decide),
   meets_of (by decide), meets_of (by decide), meets_of (by decide)⟩

/-- The conditions of a scalar access of `n` bytes. -/
abbrev scalarReady (n : JIn → Nat) (x : JIn) (t : State) : Prop :=
  x.aTokenFault 0 = none ∧ x.aDva.toNat % n x = 0 ∧ (t.countIssue 0 0).overlaps 0 0 x.aDva.toNat (n x) = false ∧
  (t.countIssue 0 0).stallFor 0 x.aDva.toNat = false

theorem witness_ScalarAccesses :
    Meets (ring [word 0x40 (md := 6) (rd := 1) (ama := 2) (imm0 := 8)]) 0x40 (scalarReady (fun x => J.wid x.w / 8)) ∧
    Meets (ring [word 0x41 (md := 0x16) (ama := 2) (imm0 := 8) (rb := 3)]) 0x41 (fun x t =>
      scalarReady (fun x => J.wid x.w / 8) x t ∧ J.amb x.w ≠ amInline) ∧
    Meets (ring [word 0x41 (md := 6) (ama := 2) (amb := 5) (imm1 := 24) (xc := 1), 7]) 0x41 (fun x t =>
      scalarReady (fun x => J.wid x.w / 8) x t ∧ J.amb x.w = amInline ∧ fld (J.imm1 x.w) 7 0 + J.wid x.w / 8 ≤ 32 * J.xc x.w) ∧
    (∀ op ∈ [0, 1, 2, 3, 4, 5, 6, 7], Meets (ring [word 0x42 (md := 6) (rd := 1) (ama := 2) (imm0 := 8) (rb := 3) (imm2 := op)])
      0x42 (fun x t => scalarReady (fun x => J.wid x.w / 8) x t ∧ fld (J.imm2 x.w) 2 0 = op)) ∧
    Meets (ring [word 0x69 (ama := 2) (imm0 := 8) (rb := 3)]) 0x69 (scalarReady (fun _ => 8)) := by
  exact ⟨meets_of (by decide), meets_of (by decide), meets_of (by decide), meets_all (by decide), meets_of (by decide)⟩

/-- The conditions of a MOVE or CONVERT. -/
abbrev moveGoes (x : JIn) (t : State) : Prop :=
  (moveLen x ≠ 0 ∧ ((J.md x.w).testBit 1 = true → x.cVal.toNat < 2 ^ 40)) ∧
  (J.ama x.w = amInline →
    inlineOver x.w (J.imm0 x.w) ((moveDesc (t.countIssue 0 0).nextId 0 0 x).srcBytes (moveLen x)) = false) ∧
  x.aTokenFault 0 = none ∧ x.bTokenFault 0 = none ∧ (t.countIssue 0 0).descsFull 0 = false ∧
  (J.ama x.w = amInline ∨ (t.countIssue 0 0).stallFor 0 x.aDva.toNat = false) ∧ (t.countIssue 0 0).stallFor 0 x.bDva.toNat = false

theorem witness_ProbesAndMoves :
    (∀ op ∈ [0x44, 0x45], Meets (ring [word op (md := 1) (rd := 1) (ama := 2) (imm0 := 8)]) op
      (fun x _ => x.aTokenFault 0 = none)) ∧
    Meets (ring [word 0x48 (ama := 2) (amb := 2) (imm1 := 4096) (imm2 := 100)]) 0x48 moveGoes ∧
    Meets (ring [word 0x48 (ama := 5) (amb := 2) (imm1 := 4096) (imm2 := 32) (xc := 1), 7]) 0x48 moveGoes ∧
    Meets (ring [word 0x49 (md := 4) (ama := 2) (amb := 2) (imm1 := 4096) (imm2 := 100) (xc := 1), 16]) 0x49 (fun x t =>
      moveGoes x t ∧ leVal (x.pay.take 8) % 16 = 0) ∧
    Meets (ring [word 0x48 (ama := 2) (amb := 2)]) 0x48 (fun x _ =>
      J.ama x.w ≠ amInline ∧ (J.md x.w).testBit 1 = false ∧ fld (J.imm2 x.w) 39 0 = 0) := by
  exact ⟨meets_all (by decide), meets_of (by decide), meets_of (by decide), meets_of (by decide), meets_of (by decide)⟩

/-- The state in which queue 0 of context 0 waits at its instruction. -/
def waits (w : Wait) (c : Ctx := eventful) : State := ring [word 0x01] { wait := some w } c

theorem witness_Hurdles :
    Meets (ring [word 0x60 (md := 7)]) 0x60 (fun _ _ => True) ∧
    (let s := waits (.hurdle 7 .nothing 1)
     (s.queue 0 0).wait = some (.hurdle 7 .nothing 1) ∧ (s.queue 0 0).state = .active ∧ s.resident 0 = true ∧
     s.hurdleClear 0 0 7 1 = true) ∧
    (let s := waits (.hurdle 0 (.eventReset 3) 1)
     (s.queue 0 0).wait = some (.hurdle 0 (.eventReset 3) 1) ∧ (s.queue 0 0).state = .active ∧ s.resident 0 = true ∧
     s.hurdleClear 0 0 0 1 = true) :=
  ⟨meets_of (by decide), by decide, by decide⟩

theorem witness_Signals :
    Meets (ring [word 0x61 (imm2 := 15)] {} eventful) 0x61 (fun x t =>
      (if (J.md x.w).testBit 0 then fld x.cVal.toNat 15 0 else fld (J.imm2 x.w) 15 0) < (t.countIssue 0 0).eventsOf 0) ∧
    (let h : Held := { id := 1, ctx := 0, queue := 0, seq := 0, event := 3, value := 5, deadline := 0 }
     let s : State := { ring [] {} eventful with helds := [h] }
     (s.heldOf 0 0).head? = some h ∧ s.ctx? 0 = some ((s.ctx? 0).getD {}) ∧ ((s.ctx? 0).getD {}).recWait = [] ∧
     s.cqSpace 0 = true ∧ s.signalReady h = true ∧
     Ev.state (({ s with helds := s.helds.filter (fun k => decide (k.id ≠ h.id)) } : State).evRead h.ctx h.event).1 ≠ 2) :=
  ⟨meets_of (by decide), by decide⟩

theorem witness_Waits :
    (∀ op ∈ [0x62, 0x64], Meets (ring [word op (imm2 := 15)] {} eventful) op (fun x t =>
      fld (J.imm2 x.w) 15 0 < (t.countIssue 0 0).eventsOf 0)) ∧
    (∀ op ∈ [0x63, 0x68], Meets (ring [word op (rd := 1) (ama := 2) (imm0 := 8)]) op (scalarReady (fun _ => 8))) ∧
    (let s := waits (.mem 8 0 false 1 2 (some 0) 0)
     (s.queue 0 0).wait = some (.mem 8 0 false 1 2 (some 0) 0) ∧ (s.queue 0 0).state = .active ∧ s.resident 0 = true ∧
     s.stallFor 0 8 = false ∧ s.reqs.any (fun r => r.ctx == 0 && r.queue == some 0 && r.purpose == .wait) = false ∧
     (0 : DWord).toNat ≤ s.now.toNat) ∧
    (let s := waits (.event 3 1 2 (some 0))
     (s.queue 0 0).wait = some (.event 3 1 2 (some 0)) ∧ (s.queue 0 0).state = .active ∧ s.resident 0 = true ∧
     (0 : DWord).toNat ≤ s.now.toNat) := by
  exact ⟨meets_all (by decide), meets_all (by decide), by decide, by decide⟩

/-- A virtual device that holds the first 16 locks. -/
def locking (s : State) (l : Map LockSt := []) : State :=
  ({ s with lkt := { s.lkt with locks := l } } : State).updVdev 0 (fun d => { d with vv := true, st := .bound, grant := { d.grant with
    lkBase := 0, lkCount := 16, slots := 2, stgSize := 1 } })

theorem witness_QueueLocks :
    (∀ op ∈ [0x6C, 0x6D, 0x6E], Meets (locking (ring [word op (rd := 1) (ama := 1) (imm0 := 15)])) op (fun x t =>
      (t.countIssue 0 0).lockIn 0 (fld x.aVal.toNat 11 0) = true ∧ (t.countIssue 0 0).runs Blk.lkt = true ∧
      (t.countIssue 0 0).lkt.locks.look (fld x.aVal.toNat 11 0) = none)) ∧
    Meets (locking (ring [word 0x6C (rd := 1) (ama := 1) (imm0 := 15)]) [(15, .held (.core 3))]) 0x6C (fun x t =>
      (t.countIssue 0 0).lockIn 0 (fld x.aVal.toNat 11 0) = true ∧ (t.countIssue 0 0).runs Blk.lkt = true ∧
      (t.countIssue 0 0).lkt.locks.look (fld x.aVal.toNat 11 0) = some (.held (.core 3)) ∧
      LockOwner.same (.core 3) (.queue 0 0 (initId ((t.countIssue 0 0).threadOf 0))) = false ∧
      (t.countIssue 0 0).lkt.waiters.length < 8192) ∧
    Meets (locking (ring [word 0x6D (rd := 1) (ama := 1) (imm0 := 16)])) 0x6D (fun x t =>
      (t.countIssue 0 0).lockIn 0 (fld x.aVal.toNat 11 0) = false) := by
  exact ⟨meets_all (by decide), meets_of (by decide), meets_of (by decide)⟩

/-- A control context of function 0. -/
def controlling : Ctx := { ctl := true }

/-- A second context of function 0. -/
def withCtx (s : State) (n : Nat) (x : Ctx) : State := { s with ctxs := s.ctxs ++ [(n, x)] }

/-- Virtual device 0, bound to function 0. -/
def bound (s : State) : State := s.updVdev 0 (fun d => { d with vv := true, st := .bound, grant := { d.grant with slots := 8 } })

/-- A sequence descriptor of context 0. -/
def seq0 : SeqDesc := { ctx := 0, obj := 0, base := 0, lstride := 3, lblock := 12, limit := 4, head := 0, hot := 0 }

theorem witness_TableInstructions :
    Meets (ring [word 0x80 (rd := 1) (rb := 4)] {} controlling) 0x80 (fun x t =>
      (t.countIssue 0 0).runs Blk.xlt = true ∧ J.amb x.w ≠ amInline) ∧
    Meets (ring [word 0x80 (rd := 1) (amb := 5) (imm1 := 16) (xc := 1), 7] {} controlling) 0x80 (fun x t =>
      (t.countIssue 0 0).runs Blk.xlt = true ∧ J.amb x.w = amInline ∧ fld (J.imm1 x.w) 7 0 + 16 ≤ 32 * J.xc x.w) ∧
    Meets (ring [word 0x81 (md := 2) (rd := 29) (imm2 := 0)] {} controlling) 0x81 (fun x t =>
      (t.countIssue 0 0).runs Blk.xlt = true ∧ (t.countIssue 0 0).ctlFn 0 = some 0 ∧
      ((t.countIssue 0 0).tblReadRes 0 (fld (J.md x.w) 2 0) (fld (J.imm2 x.w) 13 0) (fld (J.imm2 x.w) 23 16) x.aVal).toOption.isSome) ∧
    Meets (ring [word 0x82 (rd := 1) (imm2 := 9)] {} controlling) 0x82 (fun _ t =>
      (t.countIssue 0 0).runs Blk.xlt = true ∧ (t.countIssue 0 0).ctlFn 0 = some 0) ∧
    Meets (ring [word 0x83 (rd := 1) (ama := 5) (xc := 2), 7, 8] {} controlling) 0x83 (fun x t =>
      (J.md x.w).testBit 0 = false ∧ (t.countIssue 0 0).runs Blk.xlt = true ∧ (t.countIssue 0 0).ctlFn 0 = some 0 ∧
      fld (J.imm0 x.w) 7 0 + 64 ≤ 32 * J.xc x.w) ∧
    Meets ({ ring [word 0x83 (md := 1) (rd := 1)] {} controlling with xlt := { seqs := [(0, seq0)] } }) 0x83 (fun x t =>
      (J.md x.w).testBit 0 = true ∧ (t.countIssue 0 0).runs Blk.xlt = true ∧ (t.countIssue 0 0).ctlFn 0 = some 0 ∧
      (t.countIssue 0 0).xlt.seqs.look (fld x.aVal.toNat 16 0) = some seq0 ∧ (t.countIssue 0 0).ctxIn 0 seq0.ctx = true) ∧
    (let k : Unlink := { frame := 5, stage2 := false, owner := 0, addr := 0, lsize := 12, invDone := true, cleared := false }
     let x : Frame := { level := 1, stage2 := false, parent := some (4, 0), vcount := 0 }
     let s : State := { State.reset with xlt := { unlinks := [k], frames := [(5, x)] } }
     s.xlt.unlinks.find? (fun v => v.frame == (5 : BitVec 19).toNat) = some k ∧ s.xlt.frames.look (5 : BitVec 19).toNat = some x ∧
     x.parent = some (4, 0) ∧ k.invDone = true ∧ k.cleared = false ∧ x.vcount = 0) ∧
    (let s : State := { State.reset with xlt := { unlinks := [{ frame := 5, stage2 := false, owner := 0, addr := 0, lsize := 12, invDone := true, cleared := true }] } }
     s.xlt.unlinks.any (fun v => v.frame == (5 : BitVec 19).toNat && v.cleared) = true) :=
  ⟨meets_of (by decide), meets_of (by decide), meets_of (by decide), meets_of (by decide), meets_of (by decide),
   meets_of (by decide), by decide, by decide⟩

/-- The conditions of an INV instruction. -/
abbrev invGoes (op : InvOp) (x : JIn) (t : State) (n : Nat) : Prop :=
  (t.countIssue 0 0).invRefused 0 (some op) n = none ∧ (t.countIssue 0 0).runs Blk.xlt = true ∧ (t.countIssue 0 0).invRoom = true ∧
  ((op = .range ∨ op = .s2range) → fld x.bVal.toNat 31 0 ≠ 0)

theorem witness_InvalidationInstructions :
    (∀ m ∈ [0, 1, 2], Meets (ring [word 0x88 (md := m) (rd := 1) (amb := 1) (imm1 := 4096)] {} controlling) 0x88 (fun x t =>
      J.md x.w = m ∧ invGoes (if m = 0 then .page else if m = 1 then .range else .ctx) x t (fld (J.imm2 x.w) 13 0))) ∧
    (∀ m ∈ [3, 4, 5], Meets (bound (ring [word 0x88 (md := m) (rd := 1) (amb := 1) (imm1 := 4096)] {} controlling)) 0x88 (fun x t =>
      J.md x.w = m ∧ invGoes (if m = 3 then .s2page else if m = 4 then .s2range else .vdev) x t (fld (J.imm2 x.w) 7 0))) ∧
    Meets (ring [word 0x88 (md := 7) (rd := 1)] {} controlling) 0x88 (fun x t =>
      J.md x.w = 7 ∧ invGoes .l0fn x t (fld (J.imm2 x.w) 9 0)) ∧
    Meets (ring [word 0x88 (md := 6) (rd := 1)]) 0x88 (fun x _ => J.md x.w = 6) :=
  ⟨meets_all (by decide), meets_all (by decide), meets_of (by decide), meets_of (by decide)⟩

/-- A context that lifecycle instructions of context 0 may name, as context 1. -/
def other : Ctx := { evset := true, slot := some 1, queues := List.replicate 8 { state := .stalled } }

theorem witness_LifecycleInstructions :
    Meets (bound (ring [word 0xC0 (rd := 1) (imm2 := 1)] {} controlling)) 0xC0 (fun x t =>
      (t.countIssue 0 0).ctlFn 0 = some 0 ∧ (t.countIssue 0 0).ctx? (lifeCtx x) = none ∧
      (t.countIssue 0 0).vdevIn 0 (BitVec.ofNat 8 (fld (J.imm2 x.w) 31 24)) = true ∧ (t.countIssue 0 0).tstFree ≠ 0) ∧
    Meets (ring [word 0xC1 (rd := 1) (ama := 5) (xc := 1) (imm2 := 0), 7] {} controlling) 0xC1 (fun x t =>
      (t.countIssue 0 0).ctlFn 0 = some 0 ∧ fld (J.imm0 x.w) 7 0 + 32 ≤ 32 * J.xc x.w) ∧
    (∀ op ∈ [0xC9, 0xCA, 0xCB], Meets (withCtx (ring [word op (rd := 1) (imm2 := 1)] {} controlling) 1 other) op (fun x t =>
      (t.countIssue 0 0).ctlFn 0 = some 0 ∧ (t.countIssue 0 0).lifeIn 0 (lifeCtx x) = some other ∧ lifeCtx x ≠ 0 ∧
      (other.q (lifeQ x)).state = .stalled ∧ (other.q (lifeQ x)).resetting = none)) ∧
    Meets (bound (withCtx (ring [word 0xC2 (rd := 1) (imm2 := 1)] {} controlling) 1 other)) 0xC2 (fun x t =>
      (t.countIssue 0 0).ctlFn 0 = some 0 ∧ (t.countIssue 0 0).lifeIn 0 (lifeCtx x) = some other ∧ other.pin = false ∧
      other.pinWait = false ∧ (t.countIssue 0 0).pinned + 1 ≤ (t.countIssue 0 0).pinLimit ∧
      ((t.countIssue 0 0).ctxs.filter (fun e => e.2.vdix == other.vdix && (e.2.pin || e.2.pinWait))).length + 1 <
        ((t.countIssue 0 0).vdev other.vdix).grant.slots.toNat ∧ other.slot.isSome = true ∧ other.evict = false) ∧
    Meets (withCtx (ring [word 0xC3 (rd := 1) (imm2 := 1)] {} controlling) 1 other) 0xC3 (fun x t =>
      (t.countIssue 0 0).ctlFn 0 = some 0 ∧ (t.countIssue 0 0).lifeIn 0 (lifeCtx x) = some other) ∧
    Meets (withCtx (ring [word 0xC4 (rd := 1) (imm2 := 1)] {} controlling) 1 other) 0xC4 (fun x t =>
      (t.countIssue 0 0).ctlFn 0 = some 0 ∧ (t.countIssue 0 0).ctx? (lifeCtx x) = some other ∧ fnPort other.func = fnPort 0 ∧
      other.defunct = false ∧ other.teardown = .none ∧ (t.countIssue 0 0).attachBanned (lifeCtx x) = false ∧
      x.aVal = other.cookie) ∧
    Meets (withCtx (ring [word 0xC5 (rd := 1) (imm2 := 1)] {} controlling) 1 other) 0xC5 (fun x t =>
      (t.countIssue 0 0).ctlFn 0 = some 0 ∧ (t.countIssue 0 0).ctx? (lifeCtx x) = some other ∧ other.func = 0 ∧
      other.ctl = false ∧ other.defunct = false ∧ other.teardown = .none) ∧
    Meets (withCtx (ring [word 0xCC (rd := 1) (imm2 := 1)] {} controlling) 1 other) 0xCC (fun x t =>
      (t.countIssue 0 0).ctlFn 0 = some 0 ∧ (t.countIssue 0 0).lifeIn 0 (lifeCtx x) = some other ∧
      firstGap (t.countIssue 0 0).xlt.counters 0 < 1048576) ∧
    (∀ m ∈ [0, 1], Meets ({ ring [word 0x43 (md := m) (rd := 1)] with xlt := { counters := [(0, { ctx := 0, obj := 0, st := 1, href := 1, dref := 5 })] } })
      0x43 (fun x t => (t.countIssue 0 0).xlt.counters.look (fld x.aVal.toNat 19 0) =
          some { ctx := 0, obj := 0, st := 1, href := 1, dref := 5 } ∧
        fld ((t.countIssue 0 0).counterWord (fld x.aVal.toNat 19 0)).toNat 63 50 = 0)) :=
  ⟨meets_of (by decide), meets_of (by decide), meets_all (by decide), meets_of (by decide), meets_of (by decide),
   meets_of (by decide), meets_of (by decide), meets_of (by decide), meets_all (by decide)⟩

/-- The tables of context 1 and of virtual device 0, each of two levels, that map the first GiB of DVAs to the resource that the
stage-2 leaf names (R55 to R58). -/
def paged (leaf2 : Nat) (s : State) (leaf1 : Nat := 0x373) : State :=
  { bound s with
    xlt := { s.xlt with entries := [(512, BitVec.ofNat 128 33), (1024, BitVec.ofNat 128 leaf1), (1536, BitVec.ofNat 128 65),
                                    (2048, BitVec.ofNat 128 leaf2)] }
    bnd := { s.bnd with vdevs := [(0, { vv := true, st := .bound, s2root := 3, grant := { s2d := true, slots := 8 } })] } }

/-- A stage-2 leaf of 1 GiB: read and write, its class, owner and further bits. -/
def leafOf (cls owner : Nat) (more : Nat := 0) : Nat := 0x73 + owner * 2 ^ 16 + cls * 2 ^ 32 + more

/-- A context that uses those tables. -/
def tabled : Ctx := { evset := true, slot := some 1, s1d := true, s1root := 1, rlxcap := true }

theorem witness_QCreate :
    Meets (paged (leafOf 1 1) (withCtx (ring [word 0xC8 (rd := 1) (imm2 := 1 + 7 * 2 ^ 24)] {} controlling) 1 tabled)) 0xC8 (fun x t =>
      (t.countIssue 0 0).ctlFn 0 = some 0 ∧ (t.countIssue 0 0).lifeIn 0 (lifeCtx x) = some tabled ∧
      fld (J.md x.w) 3 1 < 4 ∧ 7 ≤ fld (J.imm2 x.w) 28 24 ∧ fld (J.imm2 x.w) 28 24 ≤ 16 ∧ x.aVal.toNat < 2 ^ 57 ∧
      x.aVal.toNat % 4096 = 0 ∧ tabled.evset = true ∧ (tabled.q (lifeQ x)).state = .undefined ∧
      (tabled.q (lifeQ x)).resetting = none ∧
      (t.countIssue 0 0).stagingPages (lifeCtx x) x.aVal.toNat (pagesOf x.aVal.toNat (32 * 2 ^ fld (J.imm2 x.w) 28 24)) =
        some [0x100000000]) :=
  meets_of (by decide)

/-- The context of `tabled` with two relaxed queues. -/
def relaxed : Ctx :=
  { tabled with queues := [{}, { state := .active, rlx := true }, { state := .active, rlx := true }, {}, {}, {}, {}, {}] }

theorem witness_RelaxedQueueLimit :
    Meets (withCtx (ring [word 0xC8 (md := 1) (rd := 1) (imm2 := 1 + 7 * 2 ^ 24)] {} controlling) 1 other) 0xC8 (fun x t =>
      (t.countIssue 0 0).ctlFn 0 = some 0 ∧ (t.countIssue 0 0).lifeIn 0 (lifeCtx x) = some other ∧
      fld (J.md x.w) 3 1 < 4 ∧ 7 ≤ fld (J.imm2 x.w) 28 24 ∧ fld (J.imm2 x.w) 28 24 ≤ 16 ∧ x.aVal.toNat < 2 ^ 57 ∧
      x.aVal.toNat % 4096 = 0 ∧ (J.md x.w).testBit 0 = true ∧ other.rlxcap = false) ∧
    Meets (paged (leafOf 1 1) (withCtx (ring [word 0xC8 (md := 1) (rd := 1) (imm2 := 1 + 7 * 2 ^ 24)] {} controlling) 1 relaxed)) 0xC8 (fun x t =>
      (t.countIssue 0 0).ctlFn 0 = some 0 ∧ (t.countIssue 0 0).lifeIn 0 (lifeCtx x) = some relaxed ∧
      fld (J.md x.w) 3 1 < 4 ∧ 7 ≤ fld (J.imm2 x.w) 28 24 ∧ fld (J.imm2 x.w) 28 24 ≤ 16 ∧ x.aVal.toNat < 2 ^ 57 ∧
      x.aVal.toNat % 4096 = 0 ∧ relaxed.evset = true ∧ (relaxed.q (lifeQ x)).state = .undefined ∧
      (relaxed.q (lifeQ x)).resetting = none ∧
      (t.countIssue 0 0).stagingPages (lifeCtx x) x.aVal.toNat (pagesOf x.aVal.toNat (32 * 2 ^ fld (J.imm2 x.w) 28 24)) =
        some [0x100000000] ∧ (J.md x.w).testBit 0 = true ∧ relaxed.rlxcap = true ∧ 2 ≤ (relaxed.queues.filter Queue.rlx).length) :=
  ⟨meets_of (by decide), meets_of (by decide)⟩

theorem witness_ProgramFaults :
    Meets (ring [word 0x02 (imm2 := 2)]) 0x02 (fun x _ =>
      2 ^ x.q.lsize < (x.q.tail - (x.q.head + BitVec.ofNat 32 (fld (J.imm2 x.w) 31 0))).toNat) ∧
    Meets (ring [word 0x03 (ra := 1)] { g := 0 :: List.replicate 31 200 }) 0x03 (fun x _ =>
      2 ^ x.q.lsize < (x.q.tail - BitVec.ofNat 32 x.aVal.toNat).toNat) ∧
    Meets (ring [word 0x27 (md := 6) (rd := 5)] { flags := 0xFF }) 0x27 (fun x _ =>
      srcNat (J.wid x.w) x.bVal = 0 ∧ flagBit x.q.flags Fl.trapdz = true) ∧
    Meets (ring [word 0x40 (md := 6) (rd := 1) (ama := 2) (imm0 := 7)]) 0x40 (fun x _ =>
      x.aTokenFault 0 = none ∧ x.aDva.toNat % (J.wid x.w / 8) ≠ 0) ∧
    Meets (ring [word 0x63 (rd := 1) (ama := 2) (imm0 := 7)]) 0x63 (fun x _ =>
      x.aTokenFault 0 = none ∧ x.aDva.toNat % 8 ≠ 0) ∧
    (∀ op ∈ [0xC0, 0xC5], Meets (ring [word op (rd := 1)]) op (fun _ t => (t.countIssue 0 0).ctlFn 0 = none)) ∧
    Meets ({ ring [word 0x43 (rd := 1)] with xlt := { counters := [(0, { ctx := 7, obj := 0, st := 1, href := 1, dref := 5 })] } })
      0x43 (fun x t => fld ((t.countIssue 0 0).counterWord (fld x.aVal.toNat 19 0)).toNat 63 50 ≠ (0 : CtxId).toNat) ∧
    (∃ x t, GuardedOff (ring [word 0x20 (rd := 5) (guard := 1)]) 0 0 0x20 x t) ∧
    (∃ x t, GuardedOff (ring [word 0x40 (rd := 5) (ama := 2) (imm0 := 7) (guard := 1)]) 0 0 0x40 x t) ∧
    (∃ x t, GuardedOff (ring [word 0x41 (ama := 2) (imm0 := 7) (guard := 1)]) 0 0 0x41 x t) ∧
    (∃ x t, GuardedOff (ring [word 0x61 (imm2 := 65535) (guard := 1)]) 0 0 0x61 x t) ∧
    (∃ x t, GuardedOff (ring [word 0xC5 (rd := 5) (guard := 1)]) 0 0 0xC5 x t) :=
  ⟨meets_of (by decide), meets_of (by decide), meets_of (by decide), meets_of (by decide), meets_of (by decide),
   meets_all (by decide), meets_of (by decide), skips_of (by decide), skips_of (by decide), skips_of (by decide),
   skips_of (by decide), skips_of (by decide)⟩

/-! ## Witnesses: doorbells, residency, counters and ends of contexts -/

/-- Context 1 of function 0 beside its link. -/
def hosted (c : Ctx) : State := { linked with ctxs := [(1, c)] }

/-- A context of function 0 with an active queue 0. -/
def ringing : Ctx := { queues := { state := .active } :: List.replicate 7 ({} : Queue) }

theorem witness_Doorbells :
    (let s := hosted ringing
     Reaches s 0 ∧ s.ctx? 1 = some ringing ∧ ringing.func = 0 ∧ ringing.defunct = false ∧ ringing.teardown = .none ∧
     (ringing.q 0).state ≠ .undefined ∧ (ringing.q 0).resetting = none ∧
     ((128 : Word) - (ringing.q 0).head).toNat ≤ 2 ^ (ringing.q 0).lsize ∧
     (((s.updCtx 1 (fun y => y.updQ 0 (fun r => { r with tail := 128 }))).updCtx 1 (fun y => { y with lastdb := s.now })).queue
       1 0).pendErr = none ∧
     2 ^ (ringing.q 0).lsize < ((129 : Word) - (ringing.q 0).head).toNat) ∧
    (let s := hosted ringing
     Reaches s 0 ∧ (s.queue 1 1).state = .undefined ∧ (4 : BitVec 12) ≠ 0 ∧ s.ctx? 2 = none) :=
  ⟨⟨reaches_of (by decide), by decide⟩, ⟨reaches_of (by decide), by decide⟩⟩

/-- Virtual device 0 with 8 slots. -/
def roomy (c : Ctx) (room : List Nat := [1]) (more : Map Ctx := []) : State :=
  bound { on with ctxs := [(1, c)] ++ more, dqe := { room := room } }

/-- As many contexts as there are slots. -/
def full : Map Ctx := (rangeFrom 2 64).map (fun i => (i, { vdix := 1, slot := some (i - 2) }))

theorem witness_Residency :
    (let s := roomy ringing
     s.runs Blk.dqe = true ∧ s.dqe.room = [1] ∧ s.ctx? 1 = some ringing ∧
     s.residents ringing.vdix < (s.vdev ringing.vdix).grant.slots.toNat ∧ s.freeSlots = rangeFrom 0 64) ∧
    (let s := roomy ringing [1] full
     s.runs Blk.dqe = true ∧ s.dqe.room = [1] ∧ s.ctx? 1 = some ringing ∧
     s.residents ringing.vdix < (s.vdev ringing.vdix).grant.slots.toNat ∧ s.freeSlots = [] ∧ s.dqe.victim = none ∧
     s.victimFor none = some 2) ∧
    (let x : Ctx := { slot := some 3 }
     let s : State := { on with ctxs := [(1, x)], dqe := { victim := some 1 } }
     s.dqe.victim = some (1 : CtxId).toNat ∧ s.ctx? 1 = some x ∧ x.evict = false ∧ x.pin = false ∧ x.slot = some 3 ∧
     x.restoring = false) ∧
    (let x : Ctx := { slot := some 3, evict := true }
     let s : State := { on with ctxs := [(1, x)] }
     s.ctx? 1 = some x ∧ x.evict = true ∧ x.pinWait = false) ∧
    (let x : Ctx := { slot := some 3, restoring := true }
     let s : State := { on with ctxs := [(1, x)] }
     s.ctx? 1 = some x ∧ x.restoring = true) :=
  ⟨by decide, by decide, by decide, by decide, by decide⟩

/-- A live counter of context 1. -/
def live : Counter := { ctx := 1, obj := 0, st := 1, href := 1, dref := 0 }

theorem witness_HostCounters :
    let rest (w : DWord) : Nat := w.toNat - fld w.toNat 27 14 * 2 ^ 14
    (let s : State := { hosted {} with xlt := { counters := [(0, live)] } }
     Reaches s 0 ∧ s.xlt.counters.look (0 : BitVec 20).toNat = some live ∧ live.st = 1 ∧ s.ctxFn live.ctx = some 0 ∧
     rest (s.counterWord 0 + 0x4000) = rest (s.counterWord 0) ∧ rest (s.counterWord 0 + 1) ≠ rest (s.counterWord 0) ∧
     rest (s.counterWord 0) = rest (s.counterWord 0)) ∧
    (let k : Counter := { live with st := 2 }
     let s : State := { hosted {} with xlt := { counters := [(0, k)] } }
     s.xlt.counters.look (0 : BitVec 20).toNat = some k ∧ k.st = 2 ∧ s.xlt.reclaim.look (0 : BitVec 20).toNat = none ∧
     s.sec.scrub.any (fun x => x.counter == some (0 : BitVec 20).toNat) = false) :=
  ⟨⟨reaches_of (by decide), by decide⟩, by decide⟩

theorem witness_ContextsEnd :
    (let x : Resetting := { code := 9 }
     let y : Ctx := { queues := { state := .broken, resetting := some x } :: List.replicate 7 ({} : Queue) }
     let s : State := { on with ctxs := [(1, y)] }
     s.ctx? 1 = some y ∧ y.teardown = .none ∧ (y.q 0).resetting = some x ∧ s.queueDrained 1 0 = true ∧ s.unreset 1 0 = [] ∧
     s.resetsOut 1 0 = false ∧ s.discardedEvent 1 0 = none ∧ x.destroy = false ∧ x.replyTo = none ∧ (y.q 0).heldTail = none) ∧
    (let x : Ctx := { teardown := .sweep }
     let s : State := { on with ctxs := [(1, x)] }
     s.ctx? 1 = some x ∧ x.teardown = .sweep ∧ x.recWait = []) ∧
    (let x : Ctx := { teardown := .abort [3] 0 }
     let s : State := { on with ctxs := [(1, x)], now := 20000000 }
     s.ctx? 1 = some x ∧ x.teardown = .abort [3] 0 ∧ 20000000 ≤ s.since 0) ∧
    (let x : Ctx := { teardown := .abort [] 0 }
     let s : State := { on with ctxs := [(1, x)] }
     s.ctx? 1 = some x ∧ x.teardown = .abort [] 0) ∧
    (let x : Ctx := { orph := true, orphend := 5 }
     let s : State := { on with ctxs := [(1, x)], now := 5 }
     s.ctx? 1 = some x ∧ x.orph = true ∧ x.orphend.toNat ≤ s.now.toNat ∧ (s.vdev x.vdix).grant.multi = false ∧
     x.teardown = .none) ∧
    (let s : State := { on with dqe := { attachBan := [(1, 5)] }, now := 5 }
     s.dqe.attachBan.look (1 : CtxId).toNat = some 5 ∧ (5 : DWord).toNat ≤ s.now.toNat) :=
  ⟨by decide, by decide, by decide, by decide, by decide, by decide⟩

/-! ## Witnesses: translation, host translation and the ends of accesses -/

/-- A read of 8 bytes of context 1 that waits for its lookup. -/
def req1 : Req :=
  { id := 1, who := .mover 0, ctx := 1, addr := 0x1000, len := 8, rd := true, wr := false, purpose := .wait }

/-- The translation of its page: staging memory, read and write. -/
def trans1 (cls : Byte := 1) : Trans :=
  { ctx := 1, page := 1, ca := 0x1000, cls := cls, off := 0x1000, owner := 1, r := true, w := true, qok := true, cok := true
    own := true, dirty := true }

/-- Context 1 with its tables, and a request. -/
def asking (r : Req) (s : State := on) (cls : Nat := 1) : State :=
  paged (leafOf cls 1) { s with ctxs := [(1, tabled)], reqs := [r] }

/-- The two leaves of the tables. -/
def leaf1 : PTE := BitVec.ofNat 128 0x373
def leaf2 : PTE := BitVec.ofNat 128 (leafOf 1 1)

theorem witness_TranslationCommands :
    (let r : Req := req1
     let e : CacheEntry := { l1 := none, set := 0, way := 0, t := trans1 }
     let s : State := { asking r with xlt := { (asking r).xlt with cache := [e] } }
     s.req? 1 = some r ∧ r.phase = .lookup ∧ s.runs Blk.xlt = true ∧ (r.s2only = none → r.addr.toNat < 2 ^ 57) ∧ r.cluster = none ∧
     s.cacheHit none r.s2only.isSome r.ctx (r.s2only.getD (s.ctxVdix r.ctx)) r.addr.toNat = some e ∧ e.t.allows r = true) ∧
    (let r : Req := req1
     let s := asking r
     s.req? 1 = some r ∧ r.phase = .lookup ∧ s.runs Blk.xlt = true ∧ (r.s2only = none → r.addr.toNat < 2 ^ 57) ∧ r.cluster = none ∧
     s.cacheHit none r.s2only.isSome r.ctx (r.s2only.getD (s.ctxVdix r.ctx)) r.addr.toNat = none ∧
     s.reqs.all (fun o => !sameWalk o r || o.phase == .lookup) = true ∧ s.walksFull r = false ∧ s.xlt.walkQ = [] ∧
     s.pickWalker r.homeRegion = some 0) ∧
    (let r : Req := { req1 with phase := .walker 0 }
     let s := asking r
     s.reqs.find? (fun o => o.phase == .walker (0 : BitVec 7).toNat) = some r ∧ s.req? r.id = some r ∧
     s.regionFrozen (walkerRegion (0 : BitVec 7).toNat) = false ∧ s.joinedTo r.id = [] ∧
     (s.walkOf (walkerRegion (0 : BitVec 7).toNat) r).1 = .leaves (some (1024, leaf1)) 2048 leaf2 0x1000 0 ∧
     r.permitted (some leaf1) leaf2 = true ∧ Pte.ts leaf2 = Ts.mapped) ∧
    (let s := asking req1
     s.reqs.find? (fun o => o.phase == .walker (0 : BitVec 7).toNat) = none ∧ s.walkerBusy (0 : BitVec 7).toNat = false) ∧
    (let r : Req := { req1 with phase := .dirty 0, tr := some trans1 }
     let s : State := { on with ctxs := [(1, { tabled with tv := false })], reqs := [r] }
     s.req? 1 = some r ∧ r.phase = .dirty 0 ∧ r.tr = some trans1 ∧ (s.walkOf (walkerRegion 0) r).1 = .fail 0 0) ∧
    (let r : Req := { req1 with phase := .dirty 0, tr := some trans1, wr := true }
     let s := asking r
     s.req? 1 = some r ∧ r.phase = .dirty 0 ∧ r.tr = some trans1 ∧
     (s.walkOf (walkerRegion 0) r).1 = .leaves (some (1024, leaf1)) 2048 leaf2 0x1000 0 ∧ Pte.ts leaf2 = Ts.mapped ∧
     Pte.cls leaf2 = (trans1).cls ∧ Pte.index leaf2 = (trans1).idx ∧
     Pte.offpn leaf2 * 4096 + 0x1000 % 2 ^ Pte.lsize leaf2 = (trans1).off + r.addr.toNat % 2 ^ (trans1).lsize) ∧
    (let x : Inv := { id := 1, src := .internal 0, op := .page, scope := 1 }
     let s : State := { on with xlt := { invs := [x] } }
     s.xlt.invs.find? (fun j => j.id == 1) = some x ∧ x.purged = false ∧ (s.invEpoch x = false ∨ s.epochUsable x.epochScope = true)) ∧
    (let x : Inv := { id := 1, src := .internal 0, op := .page, scope := 1, purged := true }
     let s : State := { on with xlt := { invs := [x] } }
     s.xlt.invs.find? (fun j => j.id == 1) = some x ∧ s.invDrained x = true ∧ x.places = [] ∧ x.after = .nothing ∧ x.src ≠ .regs) ∧
    (let b : DWord := 0x3FFFF000
     let x : Desc := { id := 1, owner := .queue 1 0 0, src := .dva b, dst := .inline [], len := 8192, chan := some (0, 0) }
     let t := paged (leafOf 1 1) { on with ctxs := [(1, tabled)] }
     let s : State := { t with map := { descs := [x] }, force := t.force.put (regAddr .xltCtrl []) 8 }
     let at_ := x.streamAt false
     let l := min (Pte.lsize leaf1) (Pte.lsize leaf2)
     let next := pageBase at_.1 l + 2 ^ l
     s.desc? 1 = some x ∧ x.owner = .queue 1 0 0 ∧ x.chan = some (0, 0) ∧ x.src = .dva b ∧
     s.peekWalk 1 at_.1 = .leaves (some (1024, leaf1)) 2048 leaf2 0x3FFFF000 0 ∧ s.ce .xltCtrl 3 3 = 1 ∧
     3 * 2 ^ l ≤ 4 * (at_.1 % 2 ^ l) ∧ next < at_.1 + at_.2 ∧ next < 2 ^ 57 ∧ s.runs Blk.xlt = true ∧
     s.cacheHit none false 1 (s.ctxVdix 1) next = none) :=
  ⟨by decide, by decide, by decide, by decide, by decide, by decide, by decide, by decide, by decide⟩

/-- A context of function 0 in a machine whose host link is up. -/
def portly (c : Ctx) (x : Fn := {}) (rs : List Req := []) : State := { linked x with ctxs := [(1, c)], reqs := rs }

theorem witness_HostTranslationCommands :
    (let t : Trans := trans1 5
     let r : Req := { req1 with phase := .ats, tr := some t }
     let s := portly tabled {} [r]
     s.req? 1 = some r ∧ s.reqFn r = some 0 ∧ r.phase = .ats ∧ r.tr = some t ∧ 12 ≤ (12 : BitVec 6).toNat ∧
     (r.wr = true → false = true) ∧ (r.rd = true → true = true)) ∧
    (let t : Trans := trans1 5
     let r : Req := { req1 with phase := .ats, tr := some t }
     let s := portly tabled {} [r]
     s.req? 1 = some r ∧ s.reqFn r = some 0 ∧ r.phase = .ats ∧ r.tr = some t) ∧
    (let s : State := { linked with xlt := { l0 := [{ func := 0, pasid := 0, page := 0, lsize := 12, pa := 0, r := true, w := true }] } }
     s.atsInvCount 0 < 32 ∧ s.reqs = []) ∧
    (let s : State := { linked with xlt := { atsInv := [(0, 3, [])] } }
     s.xlt.atsInv.find? (fun e => e.1 == 0 && e.2.1 == 3) = some (0, 3, []) ∧
     ([] : List Nat).any (fun id => (s.req? id).isSome) = false ∧ s.hostRoom 0 1 = true) ∧
    ((linked.link (linked.fnLink 0)).dlup = true ∧ (linked.link (linked.fnLink 0)).frozen = false) ∧
    (linked.fn 0).ats = false ∧
    ((linked { ats := true }).fn 0).ats = true ∧
    (linked.isPf 0 = true ∧ (linked.fn 0).pasid ≠ true) ∧
    (let p : PFault := { vdix := 0, ca := 0, key := 2048, leaf := leaf2, svc := .host, prgSent := true, prgIdx := some 4 }
     let s : State := { linked { pri := true } with xlt := { faults := [(0, p)] } }
     (s.link (s.fnLink 0)).frozen = false ∧
     s.xlt.faults.find? (fun e => e.2.func == 0 && e.2.prgSent && e.2.prgIdx == some 4) = some (0, p)) ∧
    (let p : PFault := { vdix := 0, ca := 0, key := 2048, leaf := leaf2, svc := .host }
     let s0 : State := { on with xlt := { faults := [(0, p)] }, now := 20000000000 }
     let s := s0.putReg .xltFltCtrl [] (1000 * 2 ^ 8)
     s.xlt.faults.look (0 : BitVec 12).toNat = some p ∧ p.svc = .host ∧ s.rf .xltFltCtrl 23 8 ≠ 0 ∧
     s.rf .xltFltCtrl 23 8 * 1000000 ≤ s.since p.start) ∧
    ((linked { pri := true }).fn 0).pri = true ∧
    (let p : PFault := { vdix := 0, ca := 0, key := 2048, leaf := BitVec.ofNat 128 (0x67 + 2 ^ 10), svc := .zero }
     let s : State := { on with xlt := { faults := [(0, p)] } }
     s.xlt.faults.look (0 : BitVec 12).toNat = some p ∧ p.svc = .zero ∧ (s.takePlace (Pte.lsize p.leaf) (Pte.pin p.leaf)).isSome = true) :=
  ⟨by decide, by decide, by decide, by decide, by decide, by decide, by decide, by decide, by decide, by decide, by decide,
   by decide⟩

/-- A request that has been sent with a translation. -/
def sentTo (cls : Byte) (rd wr : Bool) (p : Purpose := .wait) (ph : Phase := .sent) : Req :=
  { req1 with phase := ph, tr := some (trans1 cls), rd := rd, wr := wr, purpose := p }

/-- The flow of the tests. -/
def flow1 : FlowKey := { pkg := 2, dev := false, ctx := 1, gen := 0, queue := 0 }

theorem witness_AccessesEnd :
    (let r := sentTo 1 false true (.store [1, 2, 3, 4, 5, 6, 7, 8])
     let t := trans1 1
     let s := asking r
     s.req? 1 = some r ∧ r.tr = some t ∧ r.phase = .sent ∧ r.wr = true ∧ r.rd = false ∧
     r.targetOff t + r.len ≤ classSize t.cls ∧ s.refused r t = false ∧ s.canAccept r t = true) ∧
    (let r := sentTo 3 false true (.store [1, 2, 3, 4, 5, 6, 7, 8]) .accepted
     let t := trans1 3
     let s := asking r
     s.req? 1 = some r ∧ r.tr = some t ∧ r.phase = .accepted ∧ t.cls ≠ 7) ∧
    (let r := sentTo 3 false true (.remoteWrite flow1 9 [1] false) .accepted
     let t := trans1 3
     let s := asking r
     s.req? 1 = some r ∧ r.tr = some t ∧ r.phase = .accepted ∧ t.cls ≠ 7 ∧ r.purpose = .remoteWrite flow1 9 [1] false) ∧
    (let r := sentTo 1 true false
     let t := trans1 1
     let s := asking r
     s.req? 1 = some r ∧ r.tr = some t ∧ r.phase = .sent ∧ r.rd = true ∧ t.cls = 1 ∧
     r.targetOff t + r.len ≤ classSize t.cls ∧ (r.wr = false ∨ s.canAccept r t = true) ∧
     (linesOf (stagingBase + r.targetOff t) r.len).any s.lineOut = false) ∧
    (let r := sentTo 3 true false
     let t := trans1 3
     let s := asking r
     s.req? 1 = some r ∧ r.tr = some t ∧ r.phase = .sent ∧ r.rd = true ∧ r.wr = false ∧ t.cls = 3 ∧
     r.targetOff t + r.len ≤ classSize t.cls) ∧
    (let r := sentTo 9 false true
     let t := trans1 9
     let s := asking r
     s.req? 1 = some r ∧ r.tr = some t ∧ r.phase = .sent ∧ r.wr = true ∧ r.rd = false ∧ t.cls = 9) ∧
    (let r := sentTo 7 false true
     let t := trans1 7
     let s := asking r
     s.req? 1 = some r ∧ r.tr = some t ∧ r.phase = .sent ∧ r.wr = true ∧ r.rd = false ∧ t.cls = 7) ∧
    (let u := paged (leafOf 1 1) { on with ctxs := [(1, tabled)], ddl := { mods := { st := 2 } :: List.replicate 23 ({} : Module) } }
     let s := u.updVdev 0 (fun d => { d with grant := { d.grant with tiles := d.grant.tiles + 1 } })
     s.runs Blk.ddl = true ∧ s.dieUp (0 : BitVec 3).toNat = true ∧ s.ctx? 1 = some tabled ∧
     (s.vdev tabled.vdix).hasTile 0 0 = true) :=
  ⟨by decide, by decide, by decide, by decide, by decide, by decide, by decide, by decide⟩

/-! ## Witnesses: movers, heats and the flash tier -/

/-- A descriptor of queue 0 of context 1. -/
def desc1 : Desc := { id := 1, owner := .queue 1 0 5, src := .inline [], dst := .inline [], len := 0 }

theorem witness_MoverAndHeat :
    (on.rpc.islands.contains 90 = true ∧ on.paceCredits (3 : BitVec 6).toNat < 4095) ∧
    (let s : State := { on with map := { credits := [(3, 4095)] } }
     s.rpc.islands.contains 90 = true ∧ 4095 ≤ s.paceCredits (3 : BitVec 6).toNat) ∧
    (let s : State := { on with ctxs := [(1, ringing)], map := { descs := [desc1], chanWait := [1] } }
     s.chanOrder = desc1.id :: [] ∧ s.desc? desc1.id = some desc1 ∧ s.chooseChan desc1 = some (0, 0)) ∧
    (let s : State := { on with
       ctxs := [(1, { queues := { state := .active, wait := some (.moveB 1) } :: List.replicate 7 ({} : Queue) })]
       map := { descs := [desc1] } }
     s.desc? 1 = some desc1 ∧ desc1.owner = .queue 1 0 5 ∧ desc1.pos = desc1.len ∧ desc1.writing = false ∧ desc1.status = none ∧
     ((s.delDesc 1).queue 1 0).wait = some (.moveB 1)) ∧
    (let d : Desc := { desc1 with owner := .ring 2 3, finished := true }
     let s : State := { on with map := { descs := [d] } }
     s.desc? 1 = some d ∧ d.owner = .ring 2 3 ∧ d.finished = true) ∧
    (let s : State := { on with now := 5 }
     s.pcr.running = false ∧ s.runs Blk.pcr = true ∧ s.reached s.pcr.origin = true) ∧
    (let s : State := { on with
       pcr := { running := true, len := 100, items := [{ ctx := 1, queue := 0, seq := 0, a := 0, b := 0, dl := 0, due := some 0 }] }
       now := 100 }
     s.pcr.running = true ∧ s.pcr.stretch = false ∧ s.reached s.heatEnd = true ∧ s.dueLeft = true) ∧
    (let s : State := { on with pcr := { running := true, len := 100 }, now := 100 }
     s.pcr.running = true ∧ s.pcr.stretch = false ∧ s.reached s.heatEnd = true ∧ s.dueLeft = false) ∧
    (let s : State := { on with pcr := { running := true, len := 100, stretch := true }, now := 0x10000000000 }
     s.pcr.running = true ∧ s.pcr.stretch = true ∧ s.reached (s.heatEnd + BitVec.ofNat 64 (s.heatL / 4)) = true) ∧
    (let s0 : State := { on with
       pcr := { running := true, len := 100, stretch := true
                items := [{ ctx := 1, queue := 0, seq := 0, a := 0, b := 0, dl := 0, due := some 0 }] }
       now := 100 }
     let s : State := { s0 with force := s0.force.put (regAddr .pcrHeatLen []) 1000 }
     s.pcr.running = true ∧ s.pcr.stretch = true ∧ s.reached (s.heatEnd + BitVec.ofNat 64 (s.heatL / 4)) = false ∧
     s.dueLeft = true) :=
  ⟨by decide, by decide, by decide, by decide, by decide, by decide, by decide, by decide, by decide, by decide⟩

/-- A FLASHED leaf of 16 KiB at flash address 0, and its fill. -/
def cold : PTE := BitVec.ofNat 128 (0x67 + 2 * 2 ^ 10 + 2 ^ 16)
def filling (active : Bool) (units : Nat := 0) : PFault :=
  { vdix := 0, ca := 0, key := 2048, leaf := cold, svc := .flash, active := active, units := units }

/-- Its unit, of context 1, in page 2 of block 0. -/
def unit0 (owner : CtxId := 1) (lost : Bool := false) : Machine.Unit :=
  { loc := some (0, 2), lost := lost, owner := owner, gen := 0, lp := false, wseq := 0, stripe := 0, data := [] }

/-- The machine with fault 0, that unit, and the fill waiting. -/
def cellar (p : PFault) (u : Machine.Unit := unit0) (wait : List Nat := []) : State :=
  { on with ctxs := [(1, tabled)], xlt := { faults := [(0, p)], fillWait := wait }, ftc := { mounted := true, units := [(0, u)], segs := [0] } }

theorem witness_FlashReads :
    (let p := filling false
     let s := cellar p unit0 [0]
     s.runs Blk.ftc = true ∧ s.fillsActive < 64 ∧ s.fillNext = some 0 ∧ s.xlt.faults.look 0 = some p ∧
     s.flashLost p.flashAt (Pte.lsize p.leaf) = false ∧ (s.takePlace (Pte.lsize p.leaf) (Pte.pin p.leaf)).isSome = true ∧
     s.segMissing p.seg = false) ∧
    (let p := filling false
     let s := cellar p (unit0 1 true) [0]
     s.runs Blk.ftc = true ∧ s.fillsActive < 64 ∧ s.fillNext = some 0 ∧ s.xlt.faults.look 0 = some p ∧
     s.flashLost p.flashAt (Pte.lsize p.leaf) = true) ∧
    (let s : State := { on with ftc := { segReads := [7] } }
     s.ftc.segReads.contains 7 = true) ∧
    (let p := filling true
     let s := cellar p
     s.xlt.faults.look (0 : BitVec 12).toNat = some p ∧ s.readLoc p = some (0, 2) ∧ s.ftc.units.look p.curUnit = some unit0 ∧
     unit0.owner = Pte.owner p.leaf ∧ unit0.gen = s.genOf (Pte.owner p.leaf) ∧ unit0.lp = Pte.lp p.leaf) ∧
    (let p : PFault := { filling true with ladder := 7 }
     let s := cellar p
     s.xlt.faults.look (0 : BitVec 12).toNat = some p ∧ s.readLoc p = some (0, 2) ∧ s.ftc.units.look p.curUnit = some unit0 ∧
     unit0.owner = Pte.owner p.leaf ∧ unit0.gen = s.genOf (Pte.owner p.leaf) ∧ 7 ≤ s.ladderAt 0 p.ladder) ∧
    (let p := filling true
     let s := cellar p (unit0 9)
     s.xlt.faults.look (0 : BitVec 12).toNat = some p ∧ s.readLoc p = some (0, 2) ∧ s.ftc.units.look p.curUnit = some (unit0 9) ∧
     (unit0 9).owner ≠ Pte.owner p.leaf) ∧
    (let d : DirEntry := { vdix := 0, ca := 0, lsize := 14, flash := none, lp := false, dirty := false, ref := false, owner := 1 }
     let t := paged (leafOf 2 1) { on with ctxs := [(1, tabled)] }
     let u : State := { t with xlt := { t.xlt with dir := [(0, d)], slabs := [(0, { lsize := 14, pinned := false, used := [0] })] } }
     let s := u.putReg .xltTierReserve [] 4095
     s.xlt.faults.find? (fun e => e.2.svc == .evict && e.2.mapWait && (!s.ftc.wrstop && s.runs Blk.ftc) &&
       (s.findRange e.2.vdix (Pte.lsize e.2.leaf)).isSome) = none ∧
     s.runs Blk.xlt = true ∧ s.tierFree < s.rf .xltTierReserve 11 0 ∧ s.clockPick.1 = some (0, d) ∧
     s.clockPick.2.s2leaf d.vdix d.ca = some (2048, BitVec.ofNat 128 (leafOf 2 1)) ∧ s.clockPick.2.freeFault = some 0) :=
  ⟨by decide, by decide, by decide, by decide, by decide, by decide, by decide⟩

/-- A target of four blocks, and the flash controller with it. -/
def target0 : Target :=
  { info := { chan := 0, tgt := 0, answers := true, meets := true, rate := 0, luns := 1, blocks := 4, pages := 8, endurance := 1000 }
    st := .active }
def attached (b : Block) (x : Ftc := {}) : State :=
  { on with ftc := { x with mounted := true, targets := [(0, target0)], blocks := [(0, b)] } }

/-- A relocation of unit 0 from block 0, page 2, to block 1, page 3. -/
def moving : Program := { id := 4, unit := 0, at_ := some (1, 3), val := unit0, why := .move 0 2 }

/-- A block of the target. -/
def block0 : Block := { chan := 0, tgt := 0, lun := 0 }

theorem witness_FlashUpkeep :
    (let s := attached block0 { programs := [moving], units := [(0, unit0)] }
     s.ftc.programs.find? (fun x => x.id == 4) = some moving ∧ moving.at_ = some (1, 3) ∧ s.blockHeld 1 = false ∧
     moving.why = .move 0 2 ∧ s.programLive moving = true) ∧
    (let s := attached block0 { programs := [moving], units := [(0, unit0)] }
     s.ftc.programs.find? (fun x => x.id == 4) = some moving ∧ moving.at_ = some (1, 3) ∧ s.blockHeld 1 = false) ∧
    (let s : State := { attached block0 { stripeFill := [0] } with now := 1000000 }
     s.ftc.stripeFill ≠ [] ∧ 1000000 ≤ s.since s.ftc.lastWrite) ∧
    (let s := attached { block0 with dirty := true, work := .erasing, erases := 3 }
     s.ftc.mounted = true ∧ s.blockExists 0 = true ∧ (s.block 0).dirty = true ∧ (s.block 0).st = .good ∧ s.blockHeld 0 = false ∧
     ((s.block 0).erases + 1) % 16 ≠ 0 ∧ (s.block 0).erases + 1 < s.ftcGeom.endurance) ∧
    (let s := attached { block0 with dirty := true, work := .erasing }
     s.ftc.mounted = true ∧ s.blockExists 0 = true ∧ (s.block 0).dirty = true ∧ (s.block 0).st = .good ∧ s.blockHeld 0 = false) ∧
    (let s : State := { attached { block0 with susp := true, suspAt := 1 } with now := 2000001 }
     (s.block 0).susp = true ∧ 2000000 ≤ s.since (s.block 0).suspAt) ∧
    (let s := attached { block0 with st := .zone }
     s.runs Blk.ftc = true ∧ s.ftc.mounted = true ∧ s.patrolSet.contains 0 = true ∧ (s.block 0).st = .zone ∧ (4 : BitVec 3).toNat < 5) ∧
    (let s := attached { block0 with st := .suspect }
     s.runs Blk.ftc = true ∧ s.ftc.mounted = true ∧ (s.block 0).st = .suspect ∧ s.validUnits 0 = []) ∧
    (let s := attached block0
     s.ftc.targets.look ((0 : BitVec 5).toNat * 8 + (0 : BitVec 3).toNat) = some target0 ∧ target0.st = .active) ∧
    (let s : State := { attached block0 with now := 600000000000 }
     s.ftc.mounted = true ∧ 100000000 ≤ s.since s.ftc.zqAt ∧ 600000000000 ≤ s.since s.ftc.chkAt) ∧
    (on.ftc.mounted = false ∧ on.runs Blk.ftc = true ∧ on.rpc.inReset = false ∧ on.islandOn 93 = true) :=
  ⟨by decide, by decide, by decide, by decide, by decide, by decide, by decide, by decide, by decide, by decide, by decide⟩

/-! ## Witnesses: aggregation, page moves, the fault log and die-to-die links -/

/-- A party of queue 0 of context 0 in this package, and a round of 100 elements with it. -/
def party0 : Party := { ctx := 0, pkg := 0, joined := true }
def round0 : Round :=
  { ctx := 0, mode := false, strict := false, quorum := 1, deg := 0, scale := 0, rfmt := 0, rsub := false, rrnd := 0, rnanm := false
    n := 100, lstripe := 5, tmo := 7, acc := 0, res := 0, recDva := 0, openAt := 0, key := 0, parties := [party0] }

/-- The ring of a queue with that round. -/
def rounded (w : List Nat) (r : Round := round0) (m : MapBlk := {}) : State :=
  { ring w with map := { m with rounds := [(0, r)] } }

theorem witness_AggInstructions :
    Meets (ring [word 0x50 (ama := 2) (rd := 1)]) 0x50 (fun x t =>
      fld (J.md x.w) 2 0 = 0 ∧ (t.countIssue 0 0).sec.entropy = true ∧ (t.countIssue 0 0).runs Blk.map = true) ∧
    Meets (rounded [word 0x50 (md := 1) (rd := 1)]) 0x50 (fun x t =>
      fld (J.md x.w) 2 0 = 1 ∧ (t.countIssue 0 0).runs Blk.map = true ∧ (t.countIssue 0 0).homeHere (aggHandle x) = true) ∧
    Meets (rounded [word 0x50 (md := 1) (rd := 1) (ama := 1) (imm0 := 3 * 2 ^ 16)]) 0x50 (fun x t =>
      fld (J.md x.w) 2 0 = 1 ∧ (t.countIssue 0 0).runs Blk.map = true ∧ (t.countIssue 0 0).homeHere (aggHandle x) = false) ∧
    (let s : State := { on with ofp := { links := [(0, { st := .up })], routes := [(2, ([0], 0))] } }
     s.routeUp 2 ≠ []) ∧
    Meets (rounded [word 0x50 (md := 2) (ama := 5) (imm2 := 32 + 15 * 2 ^ 40) (xc := 1), 0]) 0x50 (fun x t =>
      fld (J.md x.w) 2 0 = 2 ∧ J.ama x.w = amInline ∧
      (let u := t.countIssue 0 0
       let n := contribLen x
       fld (J.imm0 x.w) 7 0 + (cvOf (BitVec.ofNat 16 (fld (J.imm2 x.w) 55 40)).toNat).src.spanBytes n ≤ 32 * J.xc x.w ∧ n ≠ 0 ∧
       n < 2 ^ 40 ∧ u.partyOf (BitVec.ofNat 32 x.bVal.toNat) 0 0 = some (true, 0, 0, 100, 5) ∧
       u.roundMarked (BitVec.ofNat 32 x.bVal.toNat) = false ∧ 0 + n ≤ 100 ∧ n % 2 ^ 5 = 0 ∧
       x.aTokenFault 0 = none ∧ u.descsFull 0 = false)) ∧
    Meets (rounded [word 0x50 (md := 3) (rd := 1)]) 0x50 (fun x t =>
      fld (J.md x.w) 2 0 = 3 ∧ (t.countIssue 0 0).runs Blk.map = true ∧
      (t.countIssue 0 0).roundOf (aggHandle x) = some (0, round0) ∧ round0.ctx = 0 ∧ round0.closer = none ∧
      round0.st ≠ .released ∧ round0.st ≠ .failed) ∧
    Meets (rounded [word 0x50 (md := 4) (rd := 1)]) 0x50 (fun x t =>
      fld (J.md x.w) 2 0 = 4 ∧ (t.countIssue 0 0).runs Blk.map = true ∧
      (t.countIssue 0 0).partyOf (aggHandle x) 0 0 = some (true, 0, 0, 100, 5) ∧ (t.countIssue 0 0).map.descs = []) ∧
    (let r : Round := { round0 with parties := [{ party0 with pkg := 2 }] }
     let s := rounded [] r
     s.roundOf 0 = some (0, r) ∧ r.listed 0 2 = some 0) :=
  ⟨meets_of (by decide), meets_of (by decide), meets_of (by decide), by decide, meets_of (by decide), meets_of (by decide),
   meets_of (by decide), by decide⟩

/-- The machine with a round. -/
def opened (r : Round) : State := { on with map := { rounds := [(0, r)] } }

theorem witness_Aggregation :
    (let p : Party := { party0 with pkg := 2 }
     let r : Round := { round0 with parties := [p] }
     let s := opened r
     s.map.rounds.look (0 : BitVec 4).toNat = some r ∧ r.parties[(0 : BitVec 6).toNat]? = some p ∧
     (0 : BitVec 18).toNat < r.stripes ∧ s.runs Blk.map = true ∧ p.pkg ≠ s.ownPkg ∧
     (List.replicate 32 (0 : DWord)).length = stripeLen r.n r.lstripe (0 : BitVec 18).toNat ∧ (0 : BitVec 18).toNat = p.commits ∧
     p.accepted = [] ∧ p.joined = true ∧ p.dropped = false ∧ r.marked = 0 ∧ s.stripeUnit none = some 0) ∧
    (let s : State := { opened round0 with now := 7000 }
     s.map.rounds.look (0 : BitVec 4).toNat = some round0 ∧ round0.tmo ≠ 0 ∧ s.reached (round0.openAt + round0.tmo * 1000) = true) ∧
    (let r : Round := { round0 with cut := true, st := .closing, parties := [{ party0 with commits := 4 }] }
     r.cut = true ∧ r.st = .closing ∧ r.releasing = false ∧ (r.strict = true → r.parties.length ≤ r.completeCount) ∧
     r.quorum ≤ r.completeCount ∧ r.marked = 0 ∧ (opened r).map.rounds.look (0 : BitVec 4).toNat = some r) ∧
    (let r : Round := { round0 with cut := true, st := .closing }
     r.cut = true ∧ r.st = .closing ∧ r.releasing = false ∧ r.strict = false ∧ r.completeCount < r.quorum ∧
     (opened r).map.rounds.look (0 : BitVec 4).toNat = some r) ∧
    (let r : Round := { round0 with cut := true, st := .closing, releasing := true }
     let s := opened r
     s.map.rounds.look (0 : BitVec 4).toNat = some r ∧ r.releasing = true ∧
     (s.heldRead r.ctx r.accPages r.acc.toNat (accBytes r.mode r.n / 4096 + 2) r.acc.toNat (accBytes r.mode r.n)).2.1 = false) :=
  ⟨by decide, by decide, by decide, by decide, by decide⟩

/-- A virtual device whose member grants staging memory and HBM, and a move of its page. -/
def granted (ts : Nat := 0) (m : List PageMove := []) : State :=
  let t := paged (leafOf 1 1 (ts * 2 ^ 10)) { on with ctxs := [(1, tabled)] }
  { t with bnd := { t.bnd with
      vdevs := [(0, { vv := true, st := .bound, s2root := 3
                      grant := { s2d := true, slots := 8, stgSize := 1000, hbm := [(0, 8)] } })]
      moves := m } }

/-- The move of page 0 to HBM channel 0. -/
def move0 : PageMove := { vdix := 0, ca := 0, leaf := leaf2, cls := 3, idx := 0, off := 0 }

theorem witness_PageMoves :
    (let s := granted
     s.runs Blk.bnd = true ∧ (s.vdev 0).vv = true ∧ (s.vdev 0).st = .bound ∧
     s.s2leaf 0 (0x3000 : BitVec 56).toNat = some (2048, leaf2) ∧
     s.moveOf 0 (pageBase (0x3000 : BitVec 56).toNat (Pte.lsize leaf2)) = none ∧ s.bnd.moves.length < 512 ∧ Pte.ts leaf2 = Ts.mapped ∧
     movable leaf2 = true ∧ s.homeFree 0 leaf2 3 0 (0 : BitVec 48).toNat = true) ∧
    (let s := granted 0 [move0]
     s.moveOf 0 (0 : BitVec 56).toNat = some move0 ∧ move0.step = 1 ∧ s.s2leaf 0 (0 : BitVec 56).toNat = some (2048, move0.leaf) ∧
     Pte.ts move0.leaf ≠ Ts.busy ∧ s.xlt.invs = [] ∧ s.xlt.invWait = [] ∧ movable move0.leaf = true ∧ move0.cls ≠ 7) ∧
    (let m : PageMove := { move0 with step := 3 }
     let s := granted 4 [m]
     s.moveOf 0 (0 : BitVec 56).toNat = some m ∧ m.step = 3 ∧
     s.s2leaf 0 (0 : BitVec 56).toNat = some (2048, BitVec.ofNat 128 (leafOf 1 1 (4 * 2 ^ 10))) ∧
     Pte.ts (BitVec.ofNat 128 (leafOf 1 1 (4 * 2 ^ 10))) = Ts.relay ∧ m.cls ≠ 7) :=
  ⟨by decide, by decide, by decide⟩

/-- A fault and its record in capture. -/
def fault0 : FaultIn := { src := 3 }
def caught (x : Flc) : State := { on with flc := { x with capture := [(3, { f := fault0 })] } }

theorem witness_FaultLog :
    (fault0.forced = false ∧ fault0.src ≠ Src.rcBothLost) ∧
    (let s := caught {}
     s.runs Blk.flc = true ∧ s.captureNext = some (3, { f := fault0 }) ∧ s.flc.lastgasp = false ∧ s.logFull = false) ∧
    (let s := caught { prod := 1048576 }
     s.runs Blk.flc = true ∧ s.captureNext = some (3, { f := fault0 }) ∧ s.flc.lastgasp = false ∧ s.logFull = true) ∧
    (let s := caught { lastgasp := true }
     s.runs Blk.flc = true ∧ s.captureNext = some (3, { f := fault0 }) ∧ s.flc.lastgasp = true) ∧
    (let s : State := { on with flc := { prod := 300 }, ftc := { mounted := true }, force := on.force.put (regAddr .flcCtrl []) 3 }
     s.spills = true ∧ s.ftc.mounted = true ∧ 256 ≤ Flc.span s.flc.prod s.flc.spill) ∧
    Arrives on (.core 0) (regAddr .flcLogCons []) ∧ Arrives on (.core 0) (regAddr .flcLogRidx []) ∧
    (Arrives on (.core on.primaryCore) (regAddr .flcLogResume [])) ∧
    (let s : State := { on with mgt := { sessions := [{ port := 0, num := 0, right := .operator, anchor := 0 }] } }
     s.operatorHere = true ∧ s.rpc.bootSt ≠ 3) ∧
    Arrives on (.core 0) (regAddr .flcAck []) ∧
    (Arrives on (.core 0) (regAddr .flcSrcCfg [(3 : BitVec 9).toNat]) ∧ on.coreOrOperator (.core 0) = true ∧
     on.srcWritable 3 = true ∧ on.rf .flcForceTgt 31 31 = 0 ∧ on.rf .flcForceTgt 30 30 = 0 ∧ on.rpc.quar = false) ∧
    (let s : State := { on with rpc := { islands := [95, 54] } }
     s.islandOn (70 : BitVec 7).toNat = false ∧ (70 : BitVec 7).toNat ≤ 95) :=
  ⟨by decide, by decide, by decide, by decide, by decide, arrives_of (by decide), arrives_of (by decide), arrives_of (by decide),
   by decide, arrives_of (by decide), ⟨arrives_of (by decide), by decide⟩, by decide⟩

/-- Module 0 in a state. -/
def dieLink (x : Module) : State := { on with ddl := { mods := x :: List.replicate 23 ({} : Module) } }

theorem witness_DieLinks :
    ((dieLink { st := 2 }).module (0 : BitVec 5).toNat).serves = true ∧
    (let s := dieLink { st := 0, trained := true }
     (s.module (0 : BitVec 5).toNat).st = 0 ∧ (s.module (0 : BitVec 5).toNat).waitOver = false ∧
     (s.module (0 : BitVec 5).toNat).trained = true ∧ s.islandOn (90 + (0 : BitVec 5).toNat / 8) = true) ∧
    (let s : State := { dieLink { st := 1 } with now := 0x1000000000000 }
     (0 : BitVec 5).toNat < 24 ∧ (s.module (0 : BitVec 5).toNat).st = 1 ∧ s.ce .ddlCtrl 7 0 * 1000000 ≤ s.since s.ddl.trainAt) ∧
    (on.runs Blk.sms = true ∧ ∀ p ∈ [((5 : Nat), Ecc.corrected)], p.1 < (fwBase + fwSize) / 64) :=
  ⟨by decide, by decide, by decide, by decide⟩

/-! ## Witnesses: host ports and the coherence ring -/

/-- Host link 0 of an open port in a state. -/
def port0 (k : Link) (x : Fn := {}) (y : Hpx := {}) : State :=
  { on with hpx := { y with openB := 0xF, links := k :: List.replicate 7 ({} : Link), fns := [(0, x)] } }

/-- A link that is up. -/
def upLink : Link := { dlup := true, st := .l0, width := 16, full := 16 }

theorem witness_HostFunctions :
    (let s : State := { linked with hpx := { linked.hpx with fns := linked.hpx.fns ++ [(1, { present := true })] } }
     (s.fn 1).present = true ∧ s.isPf 1 = false) ∧
    ((linked.fn 0).present = true ∧ linked.isPf 0 = true) ∧
    (linked.isPf 0 = true ∧ (linked.fn 0).present = true ∧ (linked.fn 0).vfEnable = false ∧ 0 < (255 : BitVec 8).toNat ∧
     (255 : BitVec 8).toNat ≤ linked.vfMax (linked.fnLink 0)) ∧
    ((linked { vfEnable := true }).fn 0).vfEnable = true ∧ ((linked { vfMse := true }).fn 0).vfMse = true ∧
    ((linked { bme := true }).fn 0).bme = true ∧ ((linked.fn 0).bme = false ∧ (linked.fn 0).present = true) :=
  ⟨by decide, by decide, by decide, by decide, by decide, by decide, by decide⟩

theorem links_down (l : Nat) : (on.link l).dlup = false := by
  have h : ∀ (n m : Nat), ((List.replicate n ({} : Link)).getD m ({} : Link)).dlup = false := by
    intro n
    induction n with
    | zero => intro m; rfl
    | succ n ih => intro m; cases m with
      | zero => rfl
      | succ m => exact ih m
  exact h 8 l

theorem witness_HostLinks :
    (((port0 upLink).link (0 : LinkId).toNat).perst = true ∧ (port0 upLink).linkExists (0 : LinkId).toNat = true) ∧
    (let s := port0 { perst := false }
     (s.link (0 : LinkId).toNat).perst = false ∧ s.linkExists (0 : LinkId).toNat = true ∧
     ((s.updLink (0 : LinkId).toNat (fun k => { k with perst := true, wake := false })).setDomain (linkDomain (0 : LinkId).toNat)
       true).islandOn (portIsland (0 : LinkId).toNat) = true) ∧
    ((port0 upLink).link (0 : LinkId).toNat).dlup = true ∧
    (let s := port0 { st := .training }
     s.linkExists (0 : LinkId).toNat = true ∧ (s.link (0 : LinkId).toNat).dlup = false ∧ (s.link (0 : LinkId).toNat).perst = true ∧
     (s.link (0 : LinkId).toNat).st ≠ .l2 ∧ s.islandOn (portIsland (0 : LinkId).toNat) = true ∧ (16 : BitVec 5) ≠ 0 ∧
     (16 : BitVec 5).toNat ≤ s.linkMax (0 : LinkId).toNat ∧ (s.link (0 : LinkId).toNat).frozen = false ∧
     s.hpx.openB.toNat.testBit ((0 : LinkId).toNat / 2) = true) ∧
    (let s := port0 { frozen := true, drain := true }
     (s.link (0 : LinkId).toNat).frozen = true ∧ (s.link (0 : LinkId).toNat).drain = true ∧
     (s.link (0 : LinkId).toNat).selfEnd = false) ∧
    (let s := port0 { upLink with frozen := true }
     Arrives s (.core 0) (regAddr .hpxLrel [(0 : LinkId).toNat]) ∧ s.coreOrOperator (.core 0) = true ∧
     (s.link (0 : LinkId).toNat).dlup = true ∧ (s.link (0 : LinkId).toNat).drain = false ∧
     (s.link (0 : LinkId).toNat).frozen = true) ∧
    (Arrives on (.core 0) (regAddr .hpxPortCfg []) ∧ on.hpx.openB = 0 ∧ fld (0x10F00 : Word).toNat 3 0 = on.hpx.bifB.toNat ∧
     ∀ l, (on.link l).dlup = false) :=
  ⟨by decide, by decide, by decide, by decide, by decide, ⟨arrives_of (by decide), by decide⟩,
   ⟨arrives_of (by decide), by decide, by decide, links_down⟩⟩

theorem witness_HostPowerAndErrors :
    ((linked.fn 0).present = true ∧ ((linked { d3hot := true }).fn 0).d3hot = true ∧
     ((linked { d3hot := true }).link 0).dheld.filter (fun m => m.fnOf == some 0) = []) ∧
    (((port0 upLink).link (0 : LinkId).toNat).dlup = true ∧ ((port0 upLink).link (0 : LinkId).toNat).dheld = []) ∧
    (let s : State := { linked { pmeSt := true, pmeEn := true, d3hot := true, pba := [1] } with now := 100000000 }
     (s.fn 0).pmeSt = true ∧ (s.fn 0).pmeEn = true ∧ (s.fn 0).d3hot = true ∧ s.wakes 0 = true ∧ 100000000 ≤ s.since (s.fn 0).pmeAt) ∧
    (let s := port0 { upLink with aspm := true }
     (s.link (0 : LinkId).toNat).st = .l0 ∧ (s.link (0 : LinkId).toNat).aspm = true ∧ s.linkPromised (0 : LinkId).toNat = false ∧
     s.linkBusy (0 : LinkId).toNat = false) ∧
    (let s : State := { linked with
       ctxs := [(1, { queues := { state := .active, highGrant := true } :: List.replicate 7 ({} : Queue) })] }
     s.linkPromised (0 : LinkId).toNat = true) ∧
    (let s := port0 { upLink with st := .l1 }
     (s.link (0 : LinkId).toNat).st = .l1 ∧ (s.link (0 : LinkId).toNat).width = (s.link (0 : LinkId).toNat).full) ∧
    (let s := (port0 { upLink with l0pEn := true }).putReg .hpxLpm [(0 : LinkId).toNat] 2
     (s.link (0 : LinkId).toNat).st = .l0 ∧ (s.link (0 : LinkId).toNat).l0pEn = true ∧ s.rf .hpxLpm 1 0 [(0 : LinkId).toNat] = 2 ∧
     (8 : BitVec 5).toNat < (s.link (0 : LinkId).toNat).width.toNat ∧ s.linkPromised (0 : LinkId).toNat = false) ∧
    ((port0 { upLink with st := .l0p }).link (0 : LinkId).toNat).st = .l0p ∧
    (let t : Trans := trans1 4
     let r : Req := { req1 with phase := .sent, tr := some t }
     (portly tabled {} [r]).hostAsked 1 = some (r, t, 0) ∧ (List.replicate 8 (7 : Byte)).length = r.len) ∧
    Reaches linked 0 ∧ Arrives linked (.core 0) (regAddr .hpxIntxSeen [(0 : LinkId).toNat]) ∧
    ((linked.fn (State.linkPf (0 : LinkId).toNat)).present = true ∧ (linked.link (linked.fnLink 0)).frozen = false ∧
     ((port0 { upLink with frozen := true }).link ((port0 { upLink with frozen := true }).fnLink 0)).frozen = true) :=
  ⟨by decide, by decide, by decide, by decide, by decide, by decide, by decide, by decide, by decide, reaches_of (by decide),
   arrives_of (by decide), by decide⟩

/-- A line of the firmware area, which is coherent. -/
def fwLine : Nat := fwBase / 64

/-- What a fresh request of an agent needs, where the ring is empty. -/
def freshB (s : State) (a : BitVec 6) (line : Nat) : Bool :=
  decide (a.toNat < 40) && (match agentRegion a.toNat with
    | some r => !s.regionFrozen r
    | none => true) && s.runs Blk.crg && s.lineCoherent line && s.crg.tracks == [] && s.crg.retry == [] && s.crg.credits == []

theorem fresh_of {s : State} {a : BitVec 6} {line : Nat} (h : freshB s a line = true) :
    a.toNat < 40 ∧ (∀ r, agentRegion a.toNat = some r → s.regionFrozen r = false) ∧ s.runs Blk.crg = true ∧ s.lineCoherent line = true ∧
    s.crg.tracks = [] ∧ s.crg.retry = [] ∧ s.crg.credits = [] := by
  simp only [freshB, Bool.and_eq_true, decide_eq_true_eq, beq_iff_eq] at h
  obtain ⟨⟨⟨⟨⟨⟨h1, h2⟩, h3⟩, h4⟩, h5⟩, h6⟩, h7⟩ := h
  refine ⟨h1, ?_, h3, h4, h5, h6, h7⟩
  intro r hr
  rw [hr] at h2
  simpa using h2

/-- The ring with lines and an open request. -/
def ringing1 (ls : List CLine) (ts : List Track) : State := { on with crg := { lines := ls, tracks := ts } }

/-- Port 0 with a CXL link and a window of one unit. -/
def cxl (x : Crg := {}) : State :=
  { port0 { upLink with cxl := true } with
    crg := { x with wins := [(0, { valid := true, ctx := 1, units := 1, pages := List.replicate 512 0x100000000 })] } }

theorem witness_Coherence :
    freshB on 4 fwLine = true ∧
    (let s := ringing1 [{ agent := 4, line := fwLine, st := .o, data := [] }] []
     freshB s 4 fwLine = true ∧ (s.copyOf 4 fwLine = .s ∨ s.copyOf 4 fwLine = .o)) ∧
    (freshB on 24 fwLine = true ∧ (List.replicate 64 (0 : Byte)).length = 64 ∧ ctlAgent (24 : BitVec 6).toNat = false) ∧
    (let s := ringing1 [{ agent := 4, line := fwLine, st := .m, data := [] }] []
     freshB s 4 fwLine = true ∧ (s.copyOf 4 fwLine = Moesi.m ∨ s.copyOf 4 fwLine = .o)) ∧
    (let t : Track := { home := crgHome fwLine, line := fwLine, agent := 5, req := .rdx, active := true, pending := [4] }
     let c : CLine := { agent := 4, line := fwLine, st := .m, data := [] }
     let s := ringing1 [c] [t]
     s.activeTrack fwLine = some t ∧
     s.crg.lines.find? (fun c => c.agent == (4 : BitVec 6).toNat && c.line == fwLine) = some c ∧
     t.pending.contains (4 : BitVec 6).toNat = true ∧ c.hold = false) ∧
    (let t : Track := { home := crgHome fwLine, line := fwLine, agent := 5, req := .rdx, active := true, answered := [4] }
     let s := ringing1 [] [t]
     s.activeTrack fwLine = some t ∧ t.answered.contains (4 : BitVec 6).toNat = true) ∧
    (cxl.cxlUp 0 = true ∧ (cxl.link (2 * (0 : PortId).toNat)).frozen = false ∧ cxl.runs Blk.crg = true ∧
     cxl.winLine 0 0 (64 : BitVec 33).toNat = some (0x4000001, 1) ∧ (cxl.filterOf (0 : PortId).toNat).any (fun e => e.line == 0x4000001) = false ∧
     cxl.winLine 0 0 (0x200000 : BitVec 33).toNat = none) ∧
    (let s := cxl { filter := [{ port := 0, line := fwLine, st := .s }] }
     (s.filterOf (0 : PortId).toNat).any (fun e => e.line == fwLine) = true ∧ s.crg.tracks = [] ∧
     (s.filterSet (0 : PortId).toNat fwLine .i).crg.tracks = []) ∧
    (let t : Track := { home := 0, line := hostLine (0 : PortId).toNat (64 * 3), agent := 4, req := .rds, active := true, hostWait := true }
     let s := ringing1 [] [t]
     s.activeTrack (hostLine (0 : PortId).toNat (64 * 3)) = some t ∧ t.hostWait = true ∧ t.req = .rds) ∧
    (let v : Word := 0x80000001
     let ix := [(0 : PortId).toNat, (0 : BitVec 1).toNat]
     let u := paged (leafOf 1 1) { on with ctxs := [(1, tabled)] }
     let s := ((u.putReg .crgMemwinSize ix 1).putReg .crgMemwinDvaLo ix 0).putReg .crgMemwinDvaHi ix 0
     Arrives s (.core 0) (regAddr .crgMemwinCtrl ix) ∧ v.toNat.testBit 31 = true ∧
     (s.crg.wins.look (2 * (0 : PortId).toNat + (0 : BitVec 1).toNat)).isSome = false ∧
     ((s.putReg .crgMemwinCtrl ix (fld v.toNat 13 0)).winOpen (.core 0) (0 : PortId).toNat (0 : BitVec 1).toNat
       (BitVec.ofNat 14 (fld v.toNat 13 0))).isSome = true) :=
  ⟨by decide, by decide, by decide, by decide, by decide, by decide, by decide, by decide, by decide,
   ⟨arrives_of (by decide), by decide +kernel⟩⟩

/-! ## Witnesses: the fabric and binding -/

/-- The package 1, with optical link 0 up toward package 2. -/
def meshed (x : Ofp := {}) (st : OState := .up) : State :=
  ({ on with
    ofp := { x with pkg := some 1, everLocked := true, links := [(0, { st := st, lanes := 8 })], routes := [(2, ([0], 0))] } } : State).putReg
    .ofpPortCfg [0] 1

/-- A sent write of flow `k` in its packet 5, and its flow. -/
def far (rd wr : Bool := false) : Req := sentTo 7 rd wr
def packet5 : Unacked := { seq := 5, req := 1, sent := 0 }
def sending (k : FlowKey) (u : Unacked := packet5) (r : Req := far false true) (now : DWord := 0) (f : TxFlow := { key := k }) (up : Bool := true) : State :=
  let t := meshed
  { t with reqs := [r], now := now, ofp := { t.ofp with
      tx := [{ f with key := k, next := 6, unacked := [u], link := some 0 }], routes := if up then t.ofp.routes else [] } }

theorem choose_one (k : FlowKey) (l : OLink) : State.chooseFrom k [l] = some l := by
  simp [State.chooseFrom, Nat.mod_one]

/-- A receiver whose virtual device 0 has the system ID 9. -/
def receiving (x : Ofp := {}) : State :=
  let t := meshed x
  { t with bnd := { t.bnd with vdevs := [(0, { vv := true, st := .bound, grant := { svdid := 9 } })] } }

theorem witness_RelayPackets :
    ((sending flow1 packet5 (far true false)).fabricReq 1 = some (far true false, trans1 7) ∧ (far true false).rd = true ∧
     (far true false).wr = false ∧ (List.replicate 8 (0 : Byte)).length = (far true false).len) ∧
    ((sending flow1 packet5 (far true true)).fabricReq 1 = some (far true true, trans1 7) ∧ (far true true).rd = true ∧
     (far true true).wr = true ∧ (far true true).queue = none) ∧
    (let s := sending flow1
     let f : TxFlow := { key := flow1, next := 6, unacked := [packet5], link := some 0 }
     s.txFlow? flow1 = some f ∧ f.packet 5 = some packet5 ∧ f.resetting = false ∧ flow1.dev = false) ∧
    (let k : FlowKey := { flow1 with dev := true }
     let s := sending k
     let f : TxFlow := { key := k, next := 6, unacked := [packet5], link := some 0 }
     s.txFlow? k = some f ∧ f.packet 5 = some packet5 ∧ f.resetting = false ∧ k.dev = true) ∧
    (let f : TxFlow := { key := flow1, next := 6, unacked := [packet5], link := some 0, paused := true }
     (sending flow1 packet5 (far false true) 0 { key := flow1, paused := true }).txFlow? flow1 = some f ∧ f.resetting = false ∧
     f.paused = true) ∧
    (let f : TxFlow := { key := flow1, next := 6, unacked := [packet5], link := some 0, resetting := true }
     (sending flow1 packet5 (far false true) 0 { key := flow1, resetting := true }).txFlow? flow1 = some f ∧ f.resetting = true) ∧
    (let s := sending flow1 packet5 (far false true) 6000
     let f : TxFlow := { key := flow1, next := 6, unacked := [packet5], link := some 0 }
     s.txFlow? flow1 = some f ∧ f.packet 5 = some packet5 ∧ packet5.retried = false ∧ packet5.resends < 2 ∧
     6000 * (packet5.resends + 1) ≤ s.since packet5.sent ∧ s.isWrite packet5 = true ∧ f.link = some 0 ∧ s.runs Blk.ofp = true) ∧
    (∀ up ∈ [true, false],
      let s := sending flow1 packet5 (far false true) 20000 { key := flow1 } up
      let f : TxFlow := { key := flow1, next := 6, unacked := [packet5], link := some 0 }
      s.txFlow? flow1 = some f ∧ f.packet 5 = some packet5 ∧ packet5.retried = false ∧ 20000 ≤ s.since packet5.sent ∧
      f.resetting = false ∧ s.isWrite packet5 = true ∧ (s.routeUp flow1.pkg ≠ [] ↔ up = true)) ∧
    (receiving.relayIn 0 = true ∧ receiving.ofp.pkg = some 1 ∧ (receiving.rxAccept flow1 0 true).1 = true ∧
     (receiving.rxAccept flow1 0 false).1 = true ∧ receiving.svdev 9 = some 0 ∧ 8 ≤ 4096 - (0x40 : BitVec 56).toNat % 4096) ∧
    (receiving.relayIn 0 = true ∧ receiving.ofp.pkg ≠ some 2 ∧ 0 < 8 ∧ 8 ≤ 4096 - (0x40 : BitVec 56).toNat % 4096 ∧
     (3 : BitVec 3) ≠ 0 ∧ receiving.runs Blk.ofp = true ∧ State.chooseFrom flow1 (receiving.routeUp 2) = some 0) ∧
    (receiving.relayIn 0 = true ∧ receiving.ofp.rx.any (fun x => x.key == flow1) = false) ∧
    (let x : RxFlow := { key := flow1 }
     let s : State := { receiving { rx := [x] } with now := 1000000 }
     s.ofp.rx.find? (fun x => x.key == flow1) = some x ∧ x.refusing = false ∧ x.retried = none ∧ 1000000 ≤ s.since x.idleAt) :=
  ⟨by decide, by decide, by decide, by decide, by decide, by decide, by decide, by decide, by decide,
   ⟨by decide, by decide, by decide, by decide, by decide, by decide,
    (congrArg (State.chooseFrom flow1) (by decide : receiving.routeUp 2 = [0])).trans (choose_one flow1 0)⟩, by decide, by decide⟩

/-- An operator's session at MGT. -/
def manned (s : State) : State :=
  { s with mgt := { up := [true, true], sessions := [{ port := 0, num := 0, right := .operator, anchor := 0 }] } }

/-- Whether authority is served. -/
def authorityB (s : State) : Bool := s.operatorHere && s.rpc.bootSt != 3 && !s.rpc.quar

theorem authority_of {s : State} (h : authorityB s = true) : Authority s := by
  simp only [authorityB, Bool.and_eq_true, bne_iff_ne, Bool.not_eq_true'] at h
  exact ⟨h.1.1, h.1.2, h.2⟩

/-- An Ethernet port 0 with link 0 in a state. -/
def ethered (st : OState) (x : Ofp := {}) : State := (meshed x st).putReg .ofpPortCfg [0] 2

theorem witness_OpticalAndEthernet :
    (meshed.olink 0).st ≠ .down ∧
    ((meshed.olink 0).carries = true ∧ (4 : BitVec 4) ≠ 0 ∧ (4 : BitVec 4).toNat < (meshed.olink 0).lanes.toNat) ∧
    (let s := meshed {} .training
     s.olinkMode 0 = 1 ∧ s.olinkExists 0 = true ∧ (s.olink 0).st = .training ∧ (8 : BitVec 4) ≠ 0 ∧ (8 : BitVec 4).toNat ≤ s.olinkFull 0) ∧
    (let s := meshed {} .attesting
     (s.olink 0).st = .attesting ∧ s.sec.entropy = true ∧ s.sec.fuses = true) ∧
    (let s : State := { meshed {} .attesting with sec := { entropy := false } }
     (s.olink 0).st = .attesting ∧ s.sec.entropy = false ∧ s.sec.fuses = true) ∧
    (let s : State := { on with ofp := { links := [(0, { st := .up, oldKey := true })] }, now := 100000 }
     (s.olink 0).oldKey = true ∧ 100000 ≤ s.since (s.olink 0).oldKeyAt ∧ (s.olink 0).carries = true ∧ s.sec.entropy = true) ∧
    (Arrives meshed (.core 0) (regAddr .ofpPortCfg [(0 : BitVec 4).toNat]) ∧ fld (1 : Word).toNat 1 0 ≠ 3 ∧ fld (1 : Word).toNat 3 2 ≠ 3 ∧
     (fld (1 : Word).toNat 1 0 = 2 → fld (1 : Word).toNat 3 2 = 1) ∧ meshed.rf .ofpPortCfg 3 0 [(0 : BitVec 4).toNat] = fld (1 : Word).toNat 3 0) ∧
    (Arrives on (.core 0) (regAddr .ofpPortCfg [(0 : BitVec 4).toNat]) ∧ fld (6 : Word).toNat 1 0 ≠ 3 ∧ fld (6 : Word).toNat 3 2 ≠ 3 ∧
     (fld (6 : Word).toNat 1 0 = 2 → fld (6 : Word).toNat 3 2 = 1) ∧ on.rf .ofpPortCfg 3 0 [(0 : BitVec 4).toNat] ≠ fld (6 : Word).toNat 3 0) ∧
    (Authority (manned on) ∧ ([0, 1] : List OLink).length ≤ 4 ∧ (6 : BitVec 3).toNat ≤ 6) ∧
    ((meshed.olink 0).carries = true ∧ meshed.ofp.everLocked = true) ∧
    (let s : State := { on with ofp := { links := [(0, { st := .up })] } }
     (s.olink 0).carries = true ∧ s.ofp.everLocked = false ∧ (50 : BitVec 16).toNat ≤ 50) ∧
    (meshed.ofp.holdover = false ∧ meshed.ofp.everLocked = true) ∧
    (let s : State := { meshed { holdover := true } with now := 100000000000 }
     s.ofp.holdover = true ∧ s.ofp.unsync = false ∧ 100000000000 ≤ s.since s.ofp.holdAt) ∧
    (let s := ethered .training
     s.olinkMode 0 = 2 ∧ s.olinkExists 0 = true ∧ (s.olink 0).st = .training) ∧
    (let r := sentTo 9 false true
     let s : State := { ethered .ethUp { conns := [(0, {})] } with reqs := [r] }
     s.req? 1 = some r ∧ r.tr = some (trans1 9) ∧ (trans1 9).cls = 9 ∧ r.phase = .sent ∧ r.rd = false ∧
     s.ofp.conns.look (0 : BitVec 16).toNat = some {} ∧ s.roceOut (0 : BitVec 16).toNat ≠ []) ∧
    (let s := manned (ethered .ethUp)
     Authority s ∧ s.olinkMode 0 = 2 ∧ s.olinkExists 0 = true ∧ s.ofp.conns.look (0 : BitVec 16).toNat = none) ∧
    (let s := ethered .ethUp
     (s.olink 0).st = .ethUp ∧ (1 : BitVec 16) ≠ 0 ∧ s.icu.cores.all Core.held = false) :=
  ⟨by decide, by decide, by decide, by decide, by decide, by decide, ⟨arrives_of (by decide), by decide⟩, ⟨arrives_of (by decide), by decide⟩,
   ⟨authority_of (by decide), by decide⟩, by decide, by decide, by decide, by decide, by decide, by decide,
   ⟨authority_of (by decide), by decide⟩, by decide⟩

/-- A member in a claimed package, with virtual device 0 of system ID 9 in a state. -/
def member (d : VDev) (x : Sec := {}) : State :=
  let t := manned meshed
  { t with sec := { x with anchors := [(0, 0)], ready := true }, bnd := { t.bnd with vdevs := [(0, d)] } }

/-- Virtual device 0 of this home. -/
def homed (g : Grant := {}) : VDev := { vv := true, st := .bound, s2root := 3, grant := { g with svdid := 9, home := 1 } }

/-- A grant of another virtual device. -/
def grant2 (home : PkgId) : Grant := { svdid := 10, home := home, isHome := home == 1, slots := 4, members := [home], stgSize := 4 }

theorem witness_Binding :
    (let s := member (homed)
     Authority s ∧ s.canBind = true ∧ s.ofp.pkg = some (grant2 1).home ∧ s.runs Blk.bnd = true ∧ s.bindRefusal (grant2 1) = none) ∧
    (let s := member (homed)
     Authority s ∧ s.canBind = true ∧ s.ofp.pkg = some (grant2 1).home ∧ s.runs Blk.bnd = true ∧
     s.bindRefusal { grant2 1 with svdid := 9 } = some Why.granted) ∧
    (let s := member (homed)
     s.canBind = true ∧ s.ofp.pkg ≠ some (grant2 2).home ∧ s.runs Blk.bnd = true ∧ s.bindRefusal (grant2 2) = none) ∧
    (let s := member { (homed) with st := .prepared, grant := { svdid := 9, home := 2, isHome := false } }
     s.vdevNamed 9 = some 0 ∧ (s.vdev 0).st = .prepared ∧ (s.vdev 0).grant.isHome = false) ∧
    (let s := member { (homed) with grant := { svdid := 9, home := 2, isHome := false } }
     s.vdevNamed 9 = some 0 ∧ (s.vdev 0).st = .bound ∧ (s.vdev 0).grant.isHome = false) ∧
    (let s := member (homed)
     Authority s ∧ s.vdevNamed 9 = some 0 ∧ (s.vdev 0).st = .bound ∧ (s.vdev 0).grant.isHome = true) ∧
    (let s := member (homed { stgSize := 4 })
     let a : Grant := { stgBase := 4, stgSize := 2, slots := 0, shareMax := 0 }
     Authority s ∧ s.svdev 9 = some 0 ∧ s.grantTaken a none = false ∧ (s.vdev 0).adding = [] ∧ s.grantMissing a = false ∧
     grantContinues (s.vdev 0).grant a = true ∧ grantLocksReserved a = false) ∧
    (let s := member (homed { stgSize := 4 })
     let x : Grant := { stgBase := 2, stgSize := 2 }
     Authority s ∧ s.runs Blk.bnd = true ∧ s.svdev 9 = some 0 ∧ (s.vdev 0).removing = none ∧ s.removed (s.vdev 0) x = x ∧
     (s.vdev 0).grant.slots ≤ x.slots ∧ s.vdevPins 0 < (s.vdev 0).grant.slots.toNat ∧ s.roomLeft 0 x = true) ∧
    (let x : Grant := { lkCount := 1 }
     let s : State := { member { (homed) with removing := some x } with now := 0x100000000000 }
     (s.vdev 0).removing = some x ∧ (s.vdev 0).rangeOver = false ∧ s.rf .bndCtrl 15 0 * 1000000 ≤ s.since (s.vdev 0).removeAt ∧
     s.lkt.waiters = [] ∧ s.lkt.locks = [] ∧ s.ofp.conns = []) ∧
    (let k : Drain := { die := 0, tile := 0, vdix := 0, at_ := 0 }
     let s : State := { on with bnd := { drains := [k] }, now := 0x100000000000 }
     s.bnd.drains.find? (fun k => k.die == 0 && k.tile == 0 && !k.ended && decide (s.since k.at_ ≥ s.rf .bndCtrl 15 0 * 1000000)) =
       some k) ∧
    (let k : Drain := { die := 0, tile := 0, vdix := 0, at_ := 0, ended := true }
     let x : Ctx := { lev := 3 }
     let s : State := { on with bnd := { drains := [k] }, ctxs := [(1, x)] }
     s.bnd.drains.find? (fun k => k.die == 0 && k.tile == 0 && k.ended && k.vdix == s.ctxVdix 1) = some k ∧ s.ctx? 1 = some x ∧
     (3 : BitVec 16).toNat < x.events) :=
  ⟨⟨authority_of (by decide), by decide +kernel⟩, ⟨authority_of (by decide), by decide +kernel⟩, by decide +kernel, by decide, by decide,
   ⟨authority_of (by decide), by decide⟩, ⟨authority_of (by decide), by decide +kernel⟩, ⟨authority_of (by decide), by decide +kernel⟩, by decide,
   by decide, by decide⟩

theorem witness_Leases :
    (let s : State := { member (homed { multi := true, members := [1, 2] }) with now := 0x100000000000 }
     s.svdev 9 = some 0 ∧ (s.vdev 0).grant.isHome = true ∧ (s.vdev 0).grant.multi = true ∧ s.runs Blk.ofp = true ∧
     s.renewNs ≤ s.since (s.vdev 0).lastLease ∧ (s.vdev 0).grant.members.contains 2 = true) ∧
    (let d : VDev := { (homed) with grant := { svdid := 9, home := 2, isHome := false, multi := true }, leaseExp := 5 }
     let s : State := { member d with now := 0x100000000000 }
     s.svdev 9 = some 0 ∧ (s.vdev 0).st = .bound ∧ (s.vdev 0).grant.isHome = false ∧ (s.vdev 0).leaseExp.toNat < (6 : DWord).toNat ∧
     (s.vdev 0).leaseExp ≠ 0 ∧ (s.vdev 0).leaseExp.toNat ≤ s.now.toNat + 100 ∧ (s.vdev 0).grant.multi = true ∧
     2 * s.renewNs ≤ s.since (s.vdev 0).lastLease) ∧
    (let s := member { (homed) with leaseExp := 1000 }
     s.now.toNat + 100 < (s.vdev 0).leaseExp.toNat) ∧
    (let s := member (homed { members := [1, 2] })
     Authority s ∧ s.svdev 9 = some 0 ∧ (s.vdev 0).grant.members.contains 2 = true ∧ s.ofp.pkg ≠ some 2) ∧
    (let s : State := { member { homed { members := [1, 2] } with memberExp := [(2, 7)] } with now := 7 }
     (s.vdev 0).expiryOf 2 = some 7 ∧ (s.vdev 0).st = .bound ∧ (s.vdev 0).grant.isHome = true ∧ (s.vdev 0).lapsed.contains 2 = false ∧
     s.reached 7 = true ∧ s.ctxs = []) ∧
    (let s : State := { member { homed { members := [1, 2] } with memberExp := [(2, 7)], lapsed := [2] } with now := 10000007 }
     (s.vdev 0).expiryOf 2 = some 7 ∧ (s.vdev 0).lapsed.contains 2 = true ∧ s.reached (7 + 10000000) = true) ∧
    (meshed.reqs = [] ∧ meshed.map.rounds = [] ∧
     meshed.ofp.rx.any (fun x => x.key.pkg == 2 && x.key.ctx == 1 && x.key.gen == 0) = false) :=
  ⟨by decide, by decide, by decide, ⟨authority_of (by decide), by decide⟩, by decide, by decide, by decide⟩

/-! ## Witnesses: control cores, resets, bring-up, security and management -/

/-- The machine with core 0 in a state. -/
def core0 (c : Core) (s : State := on) : State := s.updCore 0 (fun _ => c)

theorem witness_CoprocessorPort :
    (on.coreRuns 0 = true ∧ (on.core (0 : CoreId).toNat).block.length < 8 ∧ (5 : DWord).toNat < 16384 ∧ on.runs Blk.xlt = true ∧
     fld (256 : DWord).toNat 8 0 ≤ 256 ∧ 256 < fld (257 : DWord).toNat 8 0 ∧ (65535 : DWord).toNat ≤ 65535) ∧
    (let s := core0 { block := [.tpr 7] }
     s.coreRuns 0 = true ∧ (s.core (0 : CoreId).toNat).block = .tpr 7 :: []) ∧
    (let s := core0 { block := [.locktry 7] }
     s.coreRuns 0 = true ∧ (s.core (0 : CoreId).toNat).block = .locktry 7 :: [] ∧
     (s.updCore (0 : CoreId).toNat (fun c => { c with block := [] })).runs Blk.lkt = true) ∧
    (on.coreRuns 0 = true ∧ on.ccPermits 0 (0x15400000 : BitVec 40).toNat (4 : BitVec 7).toNat true = false) :=
  ⟨by decide, by decide, by decide, by decide⟩

/-- Core 0 with an offer of source 200. -/
def offered (withdrawing : Bool := false) (now : DWord := 0) : State :=
  { core0 { offer := some 200, withdrawing := withdrawing } with now := now }

theorem witness_OffersAndLocks :
    (let t : State := { on with icu := { pend := [200] } }
     let s := (t.putReg .icuSrcCfg [200] (2 ^ 31 + 7 * 2 ^ 16 + 1)).putReg .icuCoreCtrl [0] 1
     s.runs Blk.icu = true ∧ leastBy (fun n => s.icuPrio n * 1024 + n) s.offerable = some 200 ∧ s.offerCore 200 = some 0 ∧
     (s.core 0).offer = none) ∧
    (((offered).core (0 : CoreId).toNat).offer = some 200 ∧ (offered).coreRuns 0 = true ∧
     ((offered).core (0 : CoreId).toNat).withdrawing = false) ∧
    (let s := offered false 65535
     (s.core (0 : CoreId).toNat).offer = some 200 ∧ (s.core (0 : CoreId).toNat).withdrawing = false ∧
     s.ce .icuCtrl 15 0 ≤ s.since (s.core (0 : CoreId).toNat).offerAt) ∧
    (((offered true).core (0 : CoreId).toNat).offer = some 200 ∧ ((offered true).core (0 : CoreId).toNat).withdrawing = true) ∧
    (let s : State := { core0 { winOpen := true, winEnd := 5 } with now := 5 }
     (s.core (0 : CoreId).toNat).winOpen = true ∧ s.reached (s.core (0 : CoreId).toNat).winEnd = true) ∧
    (let s : State := { on with icu := { noTarget := [(200, (0, false))] }, now := 100000 }
     s.icu.noTarget.look (200 : BitVec 10).toNat = some (0, false) ∧ 100000 ≤ s.since 0) ∧
    (Arrives on (.core 0) (regAddr .icuSwset []) ∧ ((15 : BitVec 10).toNat < 16 ∨ 128 ≤ (15 : BitVec 10).toNat) ∧
     ((128 : BitVec 10).toNat < 16 ∨ 128 ≤ (128 : BitVec 10).toNat)) ∧
    (Arrives on (.core 0) (regAddr .lktReq []) ∧ on.runs Blk.lkt = true) ∧
    (let w : LkWaiter := { lk := 3, who := .core 0, limit := some 9 }
     let s : State := { on with lkt := { waiters := [w] }, now := 9 }
     s.lkt.waiters.find? (fun w => w.who.same (.core 0)) = some w ∧ w.limit = some 9 ∧ s.reached 9 = true) :=
  ⟨by decide +kernel, by decide, by decide, by decide, by decide, by decide, ⟨arrives_of (by decide), by decide⟩,
   ⟨arrives_of (by decide), by decide⟩, by decide⟩

/-- The recovery registers after some writes. -/
def beating (a b : Option DWord) (x : Flc := {}) : State :=
  { on with flc := { x with monitor := true, beat0 := a, beat15 := b }, now := 1000000 }

theorem witness_Recovery :
    Arrives on (.core 0) (regAddr .flcRcHb0 []) ∧
    (Arrives on (.core 0) (regAddr .flcRcCtrl []) ∧ on.coreOrOperator (.core 0) = true ∧ on.primaryCore = 0) ∧
    (let s := beating (some 1) (some 999999)
     s.watches = true ∧ s.silent s.flc.primary = true ∧ s.silent (!s.flc.primary) = false) ∧
    (let s := beating (some 999999) (some 1)
     s.watches = true ∧ s.silent s.flc.primary = false ∧ s.silent (!s.flc.primary) = true ∧ s.flc.standbyLost = false) ∧
    (let s := beating (some 1) (some 1)
     s.watches = true ∧ s.silent false = true ∧ s.silent true = true) ∧
    (let s := manned { on with flc := { fallback := true } }
     s.operatorHere = true ∧ s.flc.fallback = true) ∧
    (let s : State := { on with flc := { regions := [2] } }
     Arrives s (.core s.primaryCore) (regAddr .flcRelease []) ∧
     (s.putReg .flcRelease [] (2 : BitVec 2).toNat).regionFrozen (2 : BitVec 2).toNat = true) :=
  ⟨arrives_of (by decide), ⟨arrives_of (by decide), by decide⟩, by decide, by decide, by decide, by decide,
   ⟨arrives_of (by decide), by decide⟩⟩

theorem witness_UnitResets :
    Arrives on (.core on.primaryCore) (regAddr .rpcRstCmd []) ∧ on.enabled Blk.rpc = true ∧
    (∀ x ∈ [(0, 5, 0), (1, 5, 2), (2, 1, 1), (3, 5, 1), (4, 5, 1), (6, 5, 1)],
      (on.putReg .rpcRstCmd [] (x.1 * 256 + x.2.1)).regionFrozen x.2.2 = false) ∧ (5 : CoreId) ≠ on.primaryCore :=
  ⟨arrives_of (by decide), by decide, by decide, by decide⟩

theorem witness_DieResets :
    (on.powered = true ∧ on.rpc.rstPin = true ∧ on.rpc.wrstPin = true) ∧
    ({ on with rpc := { on.rpc with rstPin := false } } : State).rpc.rstPin = false ∧
    ({ on with rpc := { on.rpc with wrstPin := false } } : State).rpc.wrstPin = false ∧
    (let s : State := { on with now := 2000000000 }
     s.rpc.bootRun = true ∧ s.rpc.done = false ∧ s.rpc.inReset = false ∧ s.flc.fallback = false ∧ s.powered = true ∧
     2000000000 ≤ s.since s.rpc.released) ∧
    (let s : State := { on with rpc := { on.rpc with wdogEn := true }, now := 0x10000000000 }
     s.rpc.wdogEn = true ∧ s.rpc.inReset = false ∧ s.flc.fallback = false ∧ s.rf .rpcWdog 15 0 * 1000000 ≤ s.since s.rpc.kickAt) ∧
    (let s : State := { on with flc := { dieReset := some 3 } }
     s.flc.dieReset = some 3 ∧ s.recordGone 3 = true) ∧
    (let s := manned { on with ftc := { mounted := true } }
     s.operator (.mgt 0 0) = true ∧ s.rpc.bootSt ≠ 3 ∧ s.ftc.mounted = true) ∧
    Arrives on (.core 0) (regAddr .rpcWdogKick []) ∧ Arrives on (.core 0) (regAddr .rpcBoot []) :=
  ⟨by decide, by decide, by decide, by decide, by decide, by decide, by decide, arrives_of (by decide), arrives_of (by decide)⟩

/-- A state in which the boot ROM looks for an image. -/
def booting (z : BootZone) : State :=
  { on with ftc := { mounted := true, zone := z }, rpc := { on.rpc with tstInit := true, smsInit := true } }

/-- An image that is signed and whose security version is the die's minimum. -/
def goodImage : Image := { tag := 1, svn := max Config.fusedSvn 0, signed := true, schema := 1 }

theorem good_ok (s : State) (h : s.sec.minSvn = 0) : s.imageOk goodImage = true := by
  simp [State.imageOk, State.svnMin, goodImage, h]

theorem witness_BringUp :
    on.islandOn 94 = true ∧
    (State.reset.rpc.inReset = false ∧ State.reset.powered = true ∧ State.reset.islandOn 94 = false) ∧
    (let s : State := { on with rpc := { on.rpc with pllBad := [7] }, now := 1000000 }
     s.rpc.pllBad.contains (7 : BitVec 7).toNat = true ∧ 1000000 ≤ s.since s.rpc.released) ∧
    (on.rpc.smsInit = false ∧ on.islandOn 45 = true) ∧
    (let s : State := ({ on with rpc := { on.rpc with smsInit := true } } : State).putReg .blkCtrl [Blk.pcr] 0
     s.rpc.tstInit = false ∧ s.rpc.smsInit = true ∧ s.islandOn 44 = true ∧ s.enabled Blk.pcr = false) ∧
    (let s := booting {}
     s.rpc.inReset = false ∧ s.ftc.mounted = true ∧ s.rpc.tstInit = true ∧ s.rpc.bootSt ≠ 2 ∧ s.coreRuns 0 = true ∧ s.bootPick = none) ∧
    (let s := booting { imageA := some goodImage }
     s.rpc.inReset = false ∧ s.ftc.mounted = true ∧ s.rpc.tstInit = true ∧ s.rpc.bootSt ≠ 2 ∧ s.coreRuns 0 = true ∧
     s.bootPick = some (false, goodImage)) :=
  ⟨by decide, by decide, by decide, by decide, by decide, by decide,
   ⟨by decide, by decide, by decide, by decide, by decide, by
     simp [State.bootPick, booting, BootZone.image, good_ok _ (rfl : (booting { imageA := some goodImage }).sec.minSvn = 0)]
     first
     | done
     | (simp [State.imageOk, State.svnMin, goodImage, on, State.reset])⟩⟩

theorem witness_LapsAndScrubs :
    (let s := manned { on with ftc := { mounted := true }, sec := { ready := true } }
     Authority s ∧ s.sec.ready = true ∧ s.ftc.mounted = true ∧ s.ftc.lapUpd = none) ∧
    (let s : State := { on with ftc := { mounted := true } }
     s.ftc.mounted = true ∧ s.sec.fuses = true ∧ s.sec.stepped = false ∧ s.ftc.lapUpd = none ∧ s.sec.lapBase ≠ lapMax ∧
     s.lapsOver = false) ∧
    (let x : LapSlot := { seq := 1, base := 1, ctx := [], link := [] }
     let s : State := { on with ftc := { mounted := true, lapUpd := some x } }
     s.ftc.lapUpd = some x ∧ s.ftc.mounted = true ∧ s.runs Blk.ftc = true ∧ s.sec.lapBusy = none ∧ s.sec.lapQ = []) ∧
    (let r : SweepReg := { ctx := 1, vdix := 0, ca := 0, key := 2048, page := 0, lsize := 30 }
     let w : Sweep := { ctx := 1, old := 2, new := 3 }
     let t := paged (leafOf 3 1) { on with ctxs := [(1, tabled)] }
     let s : State := { t with sec := { t.sec with regs := [(0, r)], sweep := some w } }
     s.runs Blk.sec = true ∧ s.sec.regs.look (0 : BitVec 4).toNat = some r ∧ s.sec.sweep = some w ∧ r.finished = false ∧
     r.stands (0 : BitVec 4).toNat (s.pte r.key) (w.old.toNat.testBit 0) = true) ∧
    (let x : Scrub := { chan := 0, page := 3, lsize := 12, vdix := 0 }
     let s : State := { on with sec := { scrub := [x] } }
     s.sec.scrub.find? (fun x => x.chan == (0 : BitVec 4).toNat && x.page == (3 : BitVec 24).toNat) = some x ∧ s.runs Blk.sec = true) ∧
    on.sec.entropy = true :=
  ⟨⟨authority_of (by decide), by decide⟩, by decide, by decide, by decide, by decide, by decide⟩

/-- MGT with port 0 up in a die with anchor 5 in slot 0. -/
def reachable : State := { on with mgt := { up := [true, false] }, sec := { ready := true, anchors := [(0, 5)] } }

/-- A record of settings. -/
def settings0 : Settings := { schema := 1, seq := 0, body := 1 }

theorem witness_Management :
    ((manned on).spdmPath (.mgt 0 0) = true ∧ (1 : Byte).toNat ≠ spdmKeyExchange) ∧
    (reachable.mgtReady = true ∧ reachable.mgt.up.getD (0 : BitVec 1).toNat false = true ∧
     (reachable.sessionsOn (0 : BitVec 1).toNat).length < 8 ∧ reachable.sec.entropy = true ∧
     reachable.anchorRight 5 = some .operator ∧ reachable.anchorRight 6 = none) ∧
    (let s : State := { reachable with sec := { reachable.sec with entropy := false } }
     s.mgtReady = true ∧ s.mgt.up.getD (0 : BitVec 1).toNat false = true ∧
     (s.sessionsOn (0 : BitVec 1).toNat).length + s.sec.hands.countP (fun h => h.1 == (0 : BitVec 1).toNat) < 8 ∧ s.sec.entropy = false) ∧
    (let s : State := { on with mgt := { sessions := [{ port := 0, num := 0, right := .claim, anchor := 0 }] } }
     s.mgt.sessions.any (fun x => x.right == .claim) = true ∧ s.rpc.bootSt ≠ 3 ∧ s.rpc.quar = false ∧ s.claimed = false ∧
     s.sec.lockout = none) ∧
    (let s : State := { on with sec := { lockout := some 7 }, now := 7 }
     s.sec.lockout = some 7 ∧ s.reached 7 = true) ∧
    (Authority (manned on) ∧ (1 : BitVec 2).toNat < 2) ∧
    (let s := manned { on with rpc := { on.rpc with running := some goodImage }, ftc := { mounted := true } }
     Authority s ∧ s.rpc.running = some goodImage ∧ settings0.schema = goodImage.schema ∧ s.ftc.mounted = true) ∧
    (let s := manned { on with ftc := { zone := { imageB := some goodImage } } }
     Authority s ∧ s.ftc.zone.image (!s.ftc.zone.selB) = some goodImage ∧ goodImage.svn ≤ goodImage.svn ∧ s.svnMin ≤ goodImage.svn) ∧
    (let s := manned { on with ftc := { mounted := true } }
     s.operatorHere = true ∧ s.ftc.mounted = true ∧ s.imageOk goodImage = true ∧ s.ftc.zone.selB = false) :=
  ⟨by decide, by decide, by decide, by decide, by decide, ⟨authority_of (by decide), by decide⟩,
   ⟨authority_of (by decide), rfl, by decide, by decide⟩, ⟨authority_of (by decide), rfl, Nat.le_refl _, Nat.le_refl _⟩,
   ⟨by decide, by decide, good_ok _ rfl, by decide⟩⟩

/-! ## Witnesses: registers, the test access port and the block as a whole -/

theorem witness_RegisterReads :
    ((regAddr .xltTstFree []) % 4 = 0 ∧ Arrives on (.core 0) (plainAddr (BitVec.ofNat 21 (regAddr .xltTstFree [])).toNat)) ∧
    (let a : BitVec 21 := BitVec.ofNat 21 (regAddr .glbTimeLo [])
     a.toNat % 4 = 0 ∧ (manned on).islandOn (regIsland (plainAddr a.toNat)) = true ∧ (manned on).reader (.mgt 0 0) = true) ∧
    (let a : BitVec 21 := BitVec.ofNat 21 (regAddr .xltTstFree [])
     a.toNat % 4 = 0 ∧ (manned State.reset).islandOn (regIsland (plainAddr a.toNat)) = false ∧
     (manned State.reset).reader (.mgt 0 0) = true) ∧
    (regAt (plainAddr (regAddr .glbTimeLo [])) = some (.glbTimeLo, []) ∧ RegName.glbTimeLo.hiOf = some .glbTimeHi ∧ on.badPar = [] ∧
     on.viewOpen .glbTimeLo = false) ∧
    (let a := regAddr .glbTimeHi []
     let s : State := { on with shadows := [(.core 0, plainAddr a - 4, 7)] }
     regAt (plainAddr a) = some (.glbTimeHi, []) ∧ RegName.glbTimeHi.hiOf = none ∧ RegName.glbTimeHi.isHi = true ∧ s.badPar = [] ∧
     s.viewOpen .glbTimeHi = false ∧ s.shadows = [(.core 0, plainAddr a - 4, 7)] ∧ 4 ≤ plainAddr a) ∧
    (regAt (BitVec.ofNat 21 (regAddr .bndCtrl [])).toNat = some (.bndCtrl, []) ∧ on.badPar = []) :=
  ⟨⟨by decide, arrives_of (by decide)⟩, by decide, by decide, by decide, by decide, by decide⟩

theorem arrives_reader : Arrives (manned on) (.mgt 0 0) (plainAddr (BitVec.ofNat 21 (regAddr .glbTimeLo [])).toNat) :=
  ⟨by decide, fun _ h => by (cases h), fun _ h => by (cases h)⟩

theorem witness_RegisterWrites :
    (let a : BitVec 21 := BitVec.ofNat 21 (regAddr .bndCtrl [])
     a.toNat % 4 = 0 ∧ aliasOf a.toNat = .plain ∧ regAt (plainAddr a.toNat) = some (.bndCtrl, []) ∧ RegName.bndCtrl.wideWo = false ∧
     Arrives on (.core 0) (plainAddr a.toNat)) ∧
    (let a : BitVec 21 := BitVec.ofNat 21 (regAddr .flcAck [])
     a.toNat % 4 = 0 ∧ regAt (plainAddr a.toNat) = some (.flcAck, []) ∧ RegName.flcAck.wideWo = true ∧
     Arrives on (.core 0) (plainAddr a.toNat)) ∧
    ((18 : BitVec 5).toNat < 19 ∧ Arrives on (.core 0) (regAddr .blkCtrl [(18 : BitVec 5).toNat])) ∧
    (Arrives on (.core 0) (regAddr .mapRingTail [(3 : BitVec 4).toNat]) ∧
     2 ^ (on.ring (3 : BitVec 4).toNat).lsize < ((17 : Word) - (on.ring (3 : BitVec 4).toNat).head).toNat ∧
     ((16 : Word) - (on.ring (3 : BitVec 4).toNat).head).toNat ≤ 2 ^ (on.ring (3 : BitVec 4).toNat).lsize) ∧
    (Arrives on (.core 0) (regAddr .mapRingCtrl [(3 : BitVec 4).toNat]) ∧
     on.legal .mapRingCtrl [(3 : BitVec 4).toNat] (RegName.mapRingCtrl.resetVal) = true) ∧
    (Arrives on (.core on.primaryCore) (regAddr .flcRelease []) ∧ on.flc.blocks.contains (18 : BitVec 5).toNat = false) ∧
    (let s : State := { on with flc := { blocks := [18] } }
     Arrives s (.core s.primaryCore) (regAddr .flcRelease []) ∧ s.flc.blocks.contains (18 : BitVec 5).toNat = true) :=
  ⟨⟨by decide, by decide, by decide, by decide, arrives_of (by decide)⟩, ⟨by decide, by decide, by decide, arrives_of (by decide)⟩,
   ⟨by decide, arrives_of (by decide)⟩, ⟨arrives_of (by decide), by decide⟩, ⟨arrives_of (by decide), by decide⟩,
   ⟨arrives_of (by decide), by decide⟩, ⟨arrives_of (by decide), by decide⟩⟩

theorem witness_TestAccessPort :
    on.powered = true ∧ ({ on with tap := { instr := .extest } } : State).tap.instr = .extest ∧
    ({ on with tap := { instr := .idcode } } : State).tapActs = .idcode :=
  ⟨by decide, by decide, by decide⟩

theorem witness_StepRunsFrontCommand :
    (let s : State := { on with pending := [.powerOn, .trstNAssert] }
     s.pending = .powerOn :: [.trstNAssert]) ∧
    (on.pending = [] ∧ on.ceWait = [] ∧ ∀ e ∈ on.ofp.links, e.2.pauseTill ≠ on.now + 1) :=
  ⟨rfl, rfl, rfl, by decide⟩

/-- A ring's access at an offset outside staging memory. -/
def offEnd : State :=
  { on with
    map := { descs := [{ desc1 with owner := .ring 0 0, src := .pra 1 0 0x1000000000 0, len := 64 }] }
    reqs := [{ id := 1, who := .mover 0, ctx := 0, addr := 0x1000000000, len := 64, rd := true, wr := false, purpose := .descRead 1
               phase := .sent, tr := some { trans1 1 with off := 0x1000000000 } }] }

theorem witness_EveryCommandAnswers :
    (∃ f, exec (.readDataReturn 1 (.die .ok)) offEnd = .fault f) ∧ (∃ t, exec .trstNAssert on = .next t) :=
  ⟨⟨.absentAddress 1 0x1000000000, by rfl⟩, ⟨_, rfl⟩⟩

theorem witness_TableStoreAfterReset :
    (let s : State := { on with rpc := { on.rpc with tstInit := true } }
     s.ready Blk.xlt = true) ∧
    (let s : State := ({ on with rpc := { on.rpc with smsInit := true } } : State).putReg .blkCtrl [Blk.pcr] 0
     s.rpc.tstInit = false ∧ s.rpc.smsInit = true ∧ s.islandOn 44 = true ∧ s.enabled Blk.pcr = false) :=
  ⟨by decide, by decide⟩

theorem witness_EveryStepKeepsSettled : ∃ s t, Settled s ∧ step s = .next t :=
  ⟨on.settle, _, State.settle_settled on, rfl⟩

theorem witness_EveryStepKeepsTargetlessKnown : ∃ s t, TargetlessKnown s ∧ step s = .next t :=
  ⟨on.settle, _, State.settle_targetless on, rfl⟩

theorem witness_SettlingChangesLinesOnly : on.flc.todo = [] ∧ on.lkt.dropWait = [] := ⟨rfl, rfl⟩

theorem line_clean (a : Nat) : (on.line a).poison = false := rfl

theorem witness_SmsWriteReadsBack : on.mem.bytes.wf = true ∧ ∀ x, (on.line x).poison = false := ⟨by decide, line_clean⟩

theorem witness_OwnerTags :
    (let s : State := { on with mem := { lines := [(1, { tag := 7, owned := true })] } }
     0 < 8 ∧ 72 % 64 + 8 ≤ 64 ∧ (s.line (72 / 64 * 64)).poison = false ∧ (s.line (72 / 64 * 64)).tag ≠ 9 ∧
     0 < (List.replicate 8 (1 : Byte)).length ∧ (List.replicate 8 (1 : Byte)).length < 64 ∧ s.mem.bytes.wf = true) ∧
    (let s : State := { on with mem := { lines := [(1, { tag := 7, owned := true })] } }
     let t : State := { s with mem := { s.mem with bytes := [(0x1000, 9)] } }
     s.mem.lines = t.mem.lines ∧ (s.line (0x1000 / 64 * 64)).owned = false) :=
  ⟨by decide, by decide⟩

theorem witness_LockOwnership :
    (∀ o, on.lock 3 = some (.held o) → o.same (.core 0) = false) ∧
    (let s : State := { on with lkt := { locks := [(3, .held (.core 0))], waiters := [{ lk := 3, who := .core 1, limit := none }] } }
     s.lock 3 = some (.held (.core 0)) ∧ (LockOwner.core 0).same (.core 0) = true ∧
     s.lkt.waiters.find? (fun y => y.lk == 3) = some { lk := 3, who := .core 1, limit := none }) ∧
    (let s : State := { on with lkt := { locks := [(3, .held (.core 0))] } }
     s.lkt.waiters.find? (fun y => y.lk == 3) = none) :=
  ⟨fun o h => (by rw [(rfl : on.lock 3 = none)] at h; cases h), by decide, by decide⟩

theorem witness_EndOfInterrupt :
    (let s := core0 { block := [.eoi 40], active := [40] } { on with icu := { causes := [40] } }
     s.coreRuns 0 = true ∧ (s.core (0 : CoreId).toNat).block = .eoi 40 :: [] ∧ s.storesGranted 0 = true ∧
     40 ∈ (s.core (0 : CoreId).toNat).active ∧ (0 : CoreId).toNat < s.icu.cores.length ∧ icuPulseKind 40 = false ∧
     40 ∈ s.icu.causes) ∧
    (let s := core0 { block := [.eoi 40] }
     s.coreRuns 0 = true ∧ (s.core (0 : CoreId).toNat).block = .eoi 40 :: [] ∧ s.storesGranted 0 = true ∧
     40 ∉ (s.core (0 : CoreId).toNat).active) :=
  ⟨by decide, by decide⟩

/-! ## The spec's worked examples -/

/-- The next state of an outcome. -/
def after (o : Host.Outcome State Fault Refusal) : State :=
  match o with
  | .next t => t
  | _ => State.reset

/-- The instruction of the example of ch. 06: `@!p2 ADD.S.i32 g5, g6, 0x7FFF_FFF0`, and without `.S`. -/
def addWord (md : Nat) : Nat := word 0x20 (md := md) (rd := 5) (ra := 6) (amb := 1) (imm1 := 0x7FFFFFF0) (guard := 1 + 2 * 2 + 16)

/-- Its queue, with 16 in g6. -/
def adder (md : Nat) : Queue := (after (exec (.add 0 0) (ring [addWord md] { g := [0, 0, 0, 0, 0, 0, 16] ++ List.replicate 25 0 }))).queue 0 0

/-- Ch. 06: "the word begins with the bytes 20 A8 0D 05 06 00 10 00". -/
theorem test_add_word : leBytes 8 (addWord 0x0D) = [0x20, 0xA8, 0x0D, 0x05, 0x06, 0x00, 0x10, 0x00] := by decide

/-- Ch. 06: the sum clamps to 0x7FFF_FFFF; V and SAT are set and C is 0. -/
theorem test_add_saturates :
    (adder 0x0D).g[5]? = some 0x7FFFFFFF ∧ flagBit (adder 0x0D).flags Fl.v = true ∧ flagBit (adder 0x0D).flags Fl.sat = true ∧
    flagBit (adder 0x0D).flags Fl.c = false := by decide

/-- Ch. 06: without .S the low 32 bits are written sign-filled; V is set and SAT keeps its value. -/
theorem test_add_wraps :
    (adder 0x0C).g[5]? = some 0xFFFFFFFF80000000 ∧ flagBit (adder 0x0C).flags Fl.v = true ∧
    flagBit (adder 0x0C).flags Fl.sat = false := by decide

/-- Ch. 06: DIV.i32 by zero gives −1 and the dividend, and sets DZ. -/
theorem test_div_zero :
    let x := divOp 32 true false 0 0x7FFFFFFF 0
    x.1 = 0xFFFFFFFFFFFFFFFF ∧ x.2.1 = 0x7FFFFFFF ∧ flagBit x.2.2 Fl.dz = true := by decide

/-- Ch. 07: the first 64 bits of the MOVE and of the SIGNAL, and the MOVE's IMM2. -/
theorem test_move_word :
    word 0x48 (md := 4) (ra := 4) (ama := 2) (rb := 5) (amb := 2) % 2 ^ 64 = 0x002200A400040048 ∧
    word 0x61 (ama := 1) (imm0 := 7) (imm2 := 42) % 2 ^ 64 = 0x0001000000000061 ∧
    65536 + 1 * 2 ^ 40 + 2 * 2 ^ 46 = 0x0000810000010000 := by decide

/-- Ch. 08: 16,777,217 as FP32 under RND 0. -/
theorem test_int_to_fp32 : cvtScalar (cvOf (0x0D + 1 * 64)) 16777217 0 = (0x4B800000, {}) := by decide

/-- Ch. 08: 70,000 as FP16 under RND 0 and RND 1. -/
theorem test_fp16_overflow :
    cvtScalar (cvOf (1 + 3 * 64)) 0x4788B800 0 = (0x7C00, { ovf := true }) ∧
    cvtScalar (cvOf (1 + 3 * 64 + 4096)) 0x4788B800 0 = (0x7BFF, { ovf := true }) := by decide

/-- Ch. 08: −1.0 × 2^−30 as FP8-E5M2 under RND 0. -/
theorem test_e5m2_underflow : cvtScalar (cvOf (1 + 5 * 64)) 0xB0800000 0 = (0x80, { unf := true }) := by decide

/-- Ch. 08: a signalling NaN as BF16. -/
theorem test_bf16_nan : cvtScalar (cvOf (1 + 2 * 64)) 0x7F800001 0 = (0x7FC0, { inv := true }) := by decide

/-- The 32 FP32 elements of ch. 08: 120.0, 100.0, −0.01, 1.0 × 10^−5, and zeros but for element 5. -/
def mxSource (five : Nat) : List Byte :=
  [0x42F00000, 0x42C80000, 0xBC23D70A, 0x3727C5AC, 0, five].flatMap (leBytes 4) ++ List.replicate 104 0

/-- Their MXFP8 block. -/
def mxBlock (five more : Nat) : CvOut :=
  convert (cvOf (1 + 9 * 64 + more)) (mxSource five) (List.replicate 128 false) 0 32 { key := none, free := 0 }

/-- Ch. 08: "The block occupies 33 B: 7D 7E 7C 92 followed by 29 bytes of 00"; OVF 0, UNF 1, INV 0. -/
theorem test_mxfp8_block :
    (mxBlock 0 0).bytes = [0x7D, 0x7E, 0x7C, 0x92] ++ List.replicate 29 0 ∧
    (mxBlock 0 0).ovf = 0 ∧ (mxBlock 0 0).unf = 1 ∧ (mxBlock 0 0).inv = 0 := by decide

/-- Ch. 08: with element 5 an infinity, under NANM 0 and NANM 1. -/
theorem test_mxfp8_infinity :
    ((mxBlock 0x7F800000 0).bytes[0]? = some 0x7D ∧ (mxBlock 0x7F800000 0).bytes[6]? = some 0x7E ∧ (mxBlock 0x7F800000 0).ovf = 1) ∧
    (mxBlock 0x7F800000 0x8000).bytes = 0xFF :: List.replicate 32 0 ∧ (mxBlock 0x7F800000 0x8000).ovf = 1 := by decide

/-- Ch. 02: indices of DVA 0x0000_405B_8D80_0000. -/
theorem test_sequence_indices :
    levelIndex 3 false false 0x0000405B8D800000 = 0x80 ∧ levelIndex 2 false false 0x0000405B8D800000 = 0x16E := by decide

/-- Ch. 03: indices of the MOVE's destination DVA and of its CA. -/
theorem test_walk_indices :
    [4, 3, 2, 1].map (fun l => levelIndex l false false 0x0000012345670000) = [0, 2, 0x8D, 0x2B] ∧
    levelIndex 0 true false 0x0000012345670000 = 7 ∧
    [3, 2, 1].map (fun l => levelIndex l false true 0x0000000800040000) = [0, 0x20, 0] := by decide

/-- Ch. 00: the initiator ID of the PF of HP2. -/
theorem test_initiator_id : initId (.host 0x200) = 0x1200 := by decide

/-- Ch. 09: the handle of slot 5, GEN 0x012 on package 7. -/
theorem test_round_handle : roundHandle 7 0x012 5 = 0x00070125 := by decide

/-- Ch. 09: bytes 0x00 to 0x07 of the record at 41.5 µs. -/
theorem test_round_record :
    let p (i : Nat) : Party :=
      { ctx := BitVec.ofNat 14 (0x0A01 + i), pkg := 7, joined := true, commits := if i = 3 then 0 else 64, dropped := i == 3 }
    ({ round0 with n := 1048576, lstripe := 14, quorum := 3, parties := [p 0, p 1, p 2, p 3] } : Round).head =
      leBytes 8 0x0000004001030400 := by decide

/-- Ch. 12: slot B wins once its commit stands in copy 0; without it slot A does. -/
theorem test_lap_slots :
    let a : LapSlot := { seq := 41, base := 0, ctx := [(0x0123, 7)], link := [] }
    let b : LapSlot := { seq := 42, base := 0, ctx := [(0x0123, 8)], link := [] }
    let z (cs : List (Bool × Nat)) : BootZone := { lapA := some a, lapB := some b, commits := cs }
    (z [(false, 41), (true, 42)]).winner = some (true, b) ∧ (z [(false, 41)]).winner = some (false, a) := by decide

/-- R563 and R377 name CRC-32C: its check value. -/
theorem test_crc32c : crc32c [0x31, 0x32, 0x33, 0x34, 0x35, 0x36, 0x37, 0x38, 0x39] = 0xE3069283 := by decide +kernel

/-- R305 names AES-256: the example of FIPS 197, appendix C.3. -/
theorem test_aes256 : aesBytes (beBytes 32 0x000102030405060708090A0B0C0D0E0F101112131415161718191A1B1C1D1E1F)
    (beBytes 16 0x00112233445566778899AABBCCDDEEFF) = beBytes 16 0x8EA2B7CA516745BFEAFC49904B496089 := by decide +kernel

/-- R527 names HMAC-SHA-384: the example "abc" of SHA-384. -/
theorem test_sha384 : beNum (sha384 [0x61, 0x62, 0x63]) =
    0xCB00753F45A35E8BB5A03D699AC65007272C32AB0EDED1631A8B605A43FF5BED8086072BA1E7CC2358BAECA134C825A7 := by decide +kernel

/-- Ch. 20: CC3 reads GLB_TIME_LO, time passes, and its read of GLB_TIME_HI returns the shadow; a second one returns the current HI. -/
theorem test_time_pair :
    let s : State := { on with now := 0x00000001FFFFFFF0 }
    let x := s.readAt (.core 3) (regAddr .glbTimeLo [])
    let y := ({ x.2 with now := 0x0000000200000030 } : State).readAt (.core 3) (regAddr .glbTimeHi [])
    let z := y.2.readAt (.core 3) (regAddr .glbTimeHi [])
    x.1 = 0xFFFFFFF0 ∧ y.1 = 1 ∧ z.1 = 2 := by decide +kernel

/-- Ch. 07: the event word after SIGNAL 42, 7 of queue 3. -/
theorem test_event_word : Ev.mk 7 3 0 false 1 = 0x0000000700030001 := by decide

end Sys2Proof.Tests
end

namespace Sys2Proof.Machine

/-- A command that makes `u` answers `u` with its reactions performed. -/
theorem done_eq {t u : State} (h : t = u) : done t = .next u.settle := by
  rw [h, done]

/-! ## SMS under an owner (R30, R31, R62): a write reads back, and the other lines stay -/

theorem Memory.readN_add (m : Memory) (a j k : Nat) : m.readN a (j + k) = m.readN a j ++ m.readN (a + j) k := by
  induction j generalizing a with
  | zero => simp [Memory.readN]
  | succ j ih =>
    rw [show j + 1 + k = j + k + 1 by omega, show a + (j + 1) = a + 1 + j by omega]
    simp [Memory.readN, ih]

theorem Memory.readN_congr (m m' : Memory) (a n : Nat) (h : ∀ x, a ≤ x → x < a + n → m.read x = m'.read x) :
    m.readN a n = m'.readN a n := by
  induction n generalizing a with
  | zero => rfl
  | succ n ih =>
    simp only [Memory.readN]
    rw [h a (by omega) (by omega), ih (a + 1) (fun x h1 h2 => h x (by omega) (by omega))]

/-- Bytes written read back. -/
theorem Memory.readN_writeN_self (m : Memory) (a : Nat) (bs : List Byte) (h : m.wf = true) :
    (m.writeN a bs).readN a bs.length = bs := by
  induction bs generalizing m a with
  | nil => rfl
  | cons b bs ih =>
    simp only [Memory.writeN, List.length_cons, Memory.readN]
    rw [ih _ _ (Memory.wf_write m a b h), Memory.read_writeN_other _ _ _ _ (by omega), Memory.read_write_self m a b h]

/-! The lines of a state after an update. -/

/-- The metadata of a line that a write under an owner has left clean. -/
def ownLine (o : CtxId) : LineMeta := { tag := o, owned := true }

@[simp] theorem State.putBytes_bytes (s : State) (a : Nat) (bs : List Byte) :
    (s.putBytes a bs).mem.bytes = s.mem.bytes.writeN a bs := rfl

@[simp] theorem State.putLine_bytes (s : State) (a : Nat) (m : LineMeta) : (s.putLine a m).mem.bytes = s.mem.bytes := rfl

@[simp] theorem State.line_putBytes (s : State) (a x : Nat) (bs : List Byte) : (s.putBytes a bs).line x = s.line x := rfl

theorem State.line_congr (s : State) {x y : Nat} (h : x / 64 = y / 64) : s.line x = s.line y := by
  unfold State.line
  rw [h]

/-- A line that an owner's write leaves clean is listed; every other line stays. -/
theorem State.line_putLine_ownLine (s : State) (a x : Nat) (o : CtxId) :
    (s.putLine a (ownLine o)).line x = if x / 64 = a / 64 then ownLine o else s.line x := by
  have hm : ownLine o ≠ {} := by simp [ownLine]
  unfold State.line State.putLine
  simp only [if_neg hm]
  split
  · next h => rw [h, Map.look_put_self]; rfl
  · next h => rw [Map.look_put_other _ _ _ _ h]

/-- What a write under an owner makes of a state: its bytes at `a`, the owner's tag on the lines that they touch, and the
other lines as they were. -/
structure SmsWritten (s t : State) (o : CtxId) (a : Nat) (bs : List Byte) : Prop where
  wf : s.mem.bytes.wf = true → t.mem.bytes.wf = true
  clean : (∀ x, (s.line x).poison = false) → ∀ x, (t.line x).poison = false
  bytes : s.mem.bytes.wf = true → t.mem.bytes.readN a bs.length = bs
  owner : ∀ x, a ≤ x → x < a + bs.length → t.line x = ownLine o
  frame : ∀ x, x / 64 < a / 64 ∨ (a + bs.length + 63) / 64 ≤ x / 64 →
    t.mem.bytes.read x = s.mem.bytes.read x ∧ t.line x = s.line x

theorem SmsWritten.nil (s : State) (o : CtxId) (a : Nat) : SmsWritten s s o a [] where
  wf := id
  clean := id
  bytes _ := rfl
  owner x h1 h2 := absurd h2 (by simp only [List.length_nil]; omega)
  frame _ _ := ⟨rfl, rfl⟩

/-- A write that ends with its line and a write of the lines behind it are one write. -/
theorem SmsWritten.append {s t u : State} {o : CtxId} {a : Nat} {bs cs : List Byte} (h1 : SmsWritten s t o a bs)
    (h2 : SmsWritten t u o (a + bs.length) cs) (hl : (a + bs.length) % 64 = 0) : SmsWritten s u o a (bs ++ cs) where
  wf h := h2.wf (h1.wf h)
  clean h := h2.clean (h1.clean h)
  bytes h := by
    have hkept : u.mem.bytes.readN a bs.length = t.mem.bytes.readN a bs.length :=
      Memory.readN_congr _ _ _ _ (fun x _ hx => (h2.frame x (by omega)).1)
    rw [List.length_append, Memory.readN_add, hkept, h1.bytes h, h2.bytes (h1.wf h)]
  owner x hlo hhi := by
    rw [List.length_append] at hhi
    by_cases hx : x < a + bs.length
    · rw [(h2.frame x (by omega)).2, h1.owner x hlo hx]
    · exact h2.owner x (by omega) (by omega)
  frame x hx := by
    rw [List.length_append] at hx
    obtain ⟨hb2, hl2⟩ := h2.frame x (by omega)
    obtain ⟨hb1, hl1⟩ := h1.frame x (by omega)
    exact ⟨hb2.trans hb1, hl2.trans hl1⟩

/-- One line's part of a write under an owner, on a line that is not poisoned: the line may first be cleared, and then holds
the bytes under the owner's tag. -/
theorem State.writePart_ownLine (s : State) (o : CtxId) (bs : List Byte) (p : Nat × Nat × Nat)
    (hp : (s.line p.1).poison = false) :
    ∃ u, (u = s ∨ u = s.putBytes p.1 (List.replicate 64 0)) ∧
      s.writePart (some o) false bs p = (u.putBytes p.2.1 bs).putLine p.1 (ownLine o) := by
  refine ⟨if !((s.line p.1).owned && (s.line p.1).tag == o) && !decide (p.2.2 = 64) then
    s.putBytes p.1 (List.replicate 64 0) else s, ?_, ?_⟩
  · split
    · exact Or.inr rfl
    · exact Or.inl rfl
  · simp only [State.writePart, hp, ownLine, Bool.not_false, Bool.and_true, Bool.false_and, Bool.or_false]

theorem State.writePart_written (s : State) (o : CtxId) (a : Nat) (bs : List Byte) (h0 : 0 < bs.length)
    (hl : a % 64 + bs.length ≤ 64) (hp : ∀ x, (s.line x).poison = false) :
    SmsWritten s (s.writePart (some o) false bs (a / 64 * 64, a, bs.length)) o a bs := by
  obtain ⟨u, hu, ht⟩ := s.writePart_ownLine o bs (a / 64 * 64, a, bs.length) (hp _)
  have hline : ∀ x, u.line x = s.line x := by
    rcases hu with rfl | rfl
    · exact fun _ => rfl
    · exact fun x => s.line_putBytes _ x _
  have hwf : s.mem.bytes.wf = true → u.mem.bytes.wf = true := by
    rcases hu with rfl | rfl
    · exact id
    · rw [State.putBytes_bytes]
      exact Memory.wf_writeN _ _ _
  have hread : ∀ x, x / 64 ≠ a / 64 → u.mem.bytes.read x = s.mem.bytes.read x := by
    rcases hu with rfl | rfl
    · exact fun _ _ => rfl
    · intro x hx
      rw [State.putBytes_bytes, Memory.read_writeN_other _ _ _ _ (by rw [List.length_replicate]; omega)]
  have hmeta : ∀ x, ((u.putBytes a bs).putLine (a / 64 * 64) (ownLine o)).line x =
      if x / 64 = a / 64 then ownLine o else s.line x := by
    intro x
    rw [State.line_putLine_ownLine, State.line_putBytes, hline, Nat.mul_div_cancel _ (by decide)]
  rw [ht]
  show SmsWritten s ((u.putBytes a bs).putLine (a / 64 * 64) (ownLine o)) o a bs
  exact {
    wf := fun h => Memory.wf_writeN _ _ _ (hwf h)
    clean := fun _ x => by
      rw [hmeta]
      split
      · rfl
      · exact hp x
    bytes := fun h => Memory.readN_writeN_self _ _ _ (hwf h)
    owner := fun x _ _ => by rw [hmeta, if_pos (by omega)]
    frame := fun x hx => by
      have hother : x / 64 ≠ a / 64 := by omega
      exact ⟨(Memory.read_writeN_other _ _ _ _ (by omega)).trans (hread x hother), by rw [hmeta, if_neg hother]⟩ }

/-! Spans: a write and a read line by line. -/

theorem lineSpans_zero (a fuel : Nat) : lineSpans a fuel 0 = [] := by
  cases fuel <;> rfl

/-- The first line of a span takes what lies in it, up to its end. -/
theorem lineSpans_succ (a fuel n : Nat) (hn : 0 < n) :
    lineSpans a (fuel + 1) n = (a / 64 * 64, a, min n (64 - a % 64)) ::
      lineSpans (a + min n (64 - a % 64)) fuel (n - min n (64 - a % 64)) := by
  have hk : a / 64 * 64 + 64 - a = 64 - a % 64 := by omega
  simp [lineSpans, hk, Nat.ne_of_gt hn]

/-- The lines of a span, written in turn, hold the bytes under the owner's tag. -/
theorem State.writeSpans_written (o : CtxId) (fuel : Nat) (s : State) (a : Nat) (bs : List Byte)
    (hf : a % 64 + bs.length ≤ 64 * fuel) (hp : ∀ x, (s.line x).poison = false) :
    SmsWritten s ((lineSpans a fuel bs.length).foldl
      (fun r p => (r.1.writePart (some o) false (r.2.take p.2.2) p, r.2.drop p.2.2)) (s, bs)).1 o a bs := by
  induction fuel generalizing s a bs with
  | zero =>
    obtain rfl : bs = [] := List.length_eq_zero_iff.mp (by omega)
    exact SmsWritten.nil s o a
  | succ fuel ih =>
    rcases Nat.eq_zero_or_pos bs.length with h0 | h0
    · obtain rfl : bs = [] := List.length_eq_zero_iff.mp h0
      rw [List.length_nil, lineSpans_zero]
      exact SmsWritten.nil s o a
    · rw [lineSpans_succ a fuel _ h0, List.foldl_cons]
      generalize hk : min bs.length (64 - a % 64) = k
      have htake : (bs.take k).length = k := by rw [List.length_take]; omega
      have hfirst := s.writePart_written o a (bs.take k) (by omega) (by omega) hp
      rw [htake] at hfirst
      rcases Nat.lt_or_ge k bs.length with hlt | hge
      · have hrest := ih _ (a + k) (bs.drop k) (by rw [List.length_drop]; omega) (hfirst.clean hp)
        rw [List.length_drop] at hrest
        have hall := hfirst.append (by rw [htake]; exact hrest) (by rw [htake]; omega)
        rwa [List.take_append_drop] at hall
      · rw [show bs.length - k = 0 by omega, lineSpans_zero]
        rwa [List.take_of_length_le hge] at hfirst ⊢

theorem State.smsWrite_written (s : State) (a : Nat) (bs : List Byte) (o : CtxId) (hp : ∀ x, (s.line x).poison = false) :
    SmsWritten s (s.smsWrite a bs (some o) false) o a bs :=
  State.writeSpans_written o _ s a bs (by omega) hp

/-- The owner's read of its own line finds the bytes and records nothing. -/
theorem State.readPart_ownLine (s : State) (o : CtxId) (who : Who) (p : Nat × Nat × Nat) (h : s.line p.1 = ownLine o) :
    s.readPart (some o) who p = (s.mem.bytes.readN p.2.1 p.2.2, false, s) := by
  simp [State.readPart, h, ownLine]

theorem State.readSpans_ownLines (s : State) (o : CtxId) (who : Who) (fuel a n : Nat) (acc : List Byte)
    (hf : 0 < n → a % 64 + n ≤ 64 * fuel) (h : ∀ x, a ≤ x → x < a + n → s.line x = ownLine o) :
    (lineSpans a fuel n).foldl
      (fun r p => let x := r.2.2.readPart (some o) who p; (r.1 ++ x.1, r.2.1 || x.2.1, x.2.2)) (acc, false, s) =
      (acc ++ s.mem.bytes.readN a n, false, s) := by
  induction fuel generalizing a n acc with
  | zero =>
    obtain rfl : n = 0 := by omega
    simp [lineSpans, Memory.readN]
  | succ fuel ih =>
    rcases Nat.eq_zero_or_pos n with rfl | h0
    · simp [lineSpans_zero, Memory.readN]
    · rw [lineSpans_succ a fuel n h0, List.foldl_cons]
      generalize hk : min n (64 - a % 64) = k
      have hfirst : s.line (a / 64 * 64) = ownLine o :=
        (s.line_congr (Nat.mul_div_cancel _ (by decide))).trans (h a (by omega) (by omega))
      rw [s.readPart_ownLine o who _ hfirst]
      have hrest := ih (a + k) (n - k) (acc ++ s.mem.bytes.readN a k) (by omega) (fun x h1 h2 => h x (by omega) (by omega))
      refine hrest.trans ?_
      rw [List.append_assoc, ← Memory.readN_add, show k + (n - k) = n by omega]

/-- A read by the owner of every line that it touches returns the bytes as they stand. -/
theorem State.smsRead_ownLines (s : State) (a n : Nat) (o : CtxId) (who : Who)
    (h : ∀ x, a ≤ x → x < a + n → s.line x = ownLine o) :
    s.smsRead a n (some o) who = (s.mem.bytes.readN a n, false, s) :=
  s.readSpans_ownLines o who _ a n [] (fun _ => by omega) h

/-- Settles O56: each line's part of the write keeps `SmsWritten`, by induction on the lines of the span. -/
theorem smsWriteReadsBack : Obligations.SmsWriteReadsBack := by
  intro s a bs o who hwf hp
  have hw := s.smsWrite_written a bs o hp
  refine ⟨hw.wf hwf, ?_, fun x hx => (hw.frame x (by omega)).1⟩
  rw [State.smsRead_ownLines _ a bs.length o who hw.owner, hw.bytes hwf]

end Sys2Proof.Machine

/-! ## Doorbells (R22 to R24, R159, R160, R165) -/

namespace Sys2Proof

open Machine

/-- A request of a host that reaches the HTU is served. -/
theorem Reaches.serve {s : State} {f : FnId} (h : Reaches s f) (posted : Bool) (addr : DWord) (acc : Acc) (kind : AKind)
    (serve : State → State) (hpx : Bool) : s.inbound f posted addr acc kind serve hpx = serve s := by
  simp [State.inbound, h.up, h.thawed, h.barOpen]

namespace Machine

theorem State.queue_of_ctx {s : State} {c : CtxId} {x : Ctx} (q : QIdx) (h : s.ctx? c = some x) : s.queue c q = x.q q := by
  rw [State.queue, h]

theorem State.ctx?_updCtx_self (s : State) (c : CtxId) (f : Ctx → Ctx) : (s.updCtx c f).ctx? c = (s.ctx? c).map f :=
  Map.look_upd_self _ _ _

theorem State.attachLate_none {s : State} {c : CtxId} {q : QIdx} (h : (s.queue c q).pendErr = none) : s.attachLate c q = s := by
  rw [State.attachLate, h]

/-- A doorbell write of a function that reaches the HTU comes to the doorbell page. -/
theorem exec_doorbellWrite_reaches {s t : State} {f : FnId} {c : CtxId} {q : QIdx} {off : BitVec 12} {v : Word}
    (hf : Reaches s f) (ht : s.bellWrite f c q off.toNat v = t) : exec (.doorbellWrite f c q off v) s = .next t.settle :=
  done_eq ((hf.serve true _ _ _ _ false).trans ht)

/-- The doorbell of a queue of the function's own context, which is not in reset, is held against the ring. -/
theorem State.bellWrite_own {s : State} {f : FnId} {c : CtxId} {q : QIdx} {x : Ctx} (v : Word) (hx : s.ctx? c = some x)
    (hf : x.func = f) (hd : x.defunct = false) (ht : x.teardown = .none) (hs : (x.q q).state ≠ .undefined)
    (hr : (x.q q).resetting = none) : s.bellWrite f c q 0 v = s.bellCheck f c q v := by
  simp [State.bellWrite, State.queue_of_ctx q hx, hx, hf, hd, ht, hs, hr]

/-- A doorbell of another function, of an undefined queue or at another offset is discarded and recorded. -/
theorem State.bellWrite_rejected {s : State} {f : FnId} {c : CtxId} {q : QIdx} {off : Nat} (v : Word)
    (h : (∀ x, s.ctx? c = some x → x.func ≠ f) ∨ (s.queue c q).state = .undefined ∨ off ≠ 0) :
    s.bellWrite f c q off v =
      s.raise { src := Src.cfgReject, who := .host f, addr := bellAddr c q off, acc := .write, akind := .bar2 } := by
  refine if_pos ?_
  rcases h with hother | hundefined | hoffset
  · cases hc : s.ctx? c with
    | none => rfl
    | some x => simp [hother x hc]
  · simp [hundefined]
  · simp [hoffset]

/-- An accepted doorbell of a queue without a pending code: TAIL, LASTDB, and the way of its context to a slot. -/
theorem State.bellTake_none {s : State} {c : CtxId} {q : QIdx} {x : Ctx} (v : Word) (hx : s.ctx? c = some x) :
    let u := (s.updCtx c (fun y => y.updQ q (fun r => { r with tail := v }))).updCtx c (fun y => { y with lastdb := s.now })
    (u.queue c q).pendErr = none →
    s.bellTake c q v = if x.evict then u.updCtx c (fun y => { y with heldDb := true })
      else if x.slot.isNone && !x.wait then u.roomTail c else u := by
  intro u hu
  have hc : u.ctx? c = some { x.updQ q (fun r => { r with tail := v }) with lastdb := s.now } := by
    simp only [u, State.ctx?_updCtx_self, hx, Option.map_some]
  have hl : u.attachLate c q = u := State.attachLate_none hu
  unfold State.bellTake
  simp only [u] at hl hc ⊢
  simp only [hl, hc]
  rfl

/-- Settles O13: the doorbell page serves the write, and its value is held against the ring. -/
theorem doorbells : Obligations.Doorbells := by
  refine ⟨?_, ?_, ?_⟩
  · intro s f c q v x hf hx hown hd ht hs hr hin u hu
    have hring : s.bellCheck f c q v = s.bellTake c q v := if_pos (by rwa [State.queue_of_ctx q hx])
    exact exec_doorbellWrite_reaches hf (((State.bellWrite_own v hx hown hd ht hs hr).trans hring).trans (State.bellTake_none v hx hu))
  · intro s f c q v x hf hx hown hd ht hs hr hout
    exact exec_doorbellWrite_reaches hf ((State.bellWrite_own v hx hown hd ht hs hr).trans (if_neg (by rw [State.queue_of_ctx q hx]; omega)))
  · intro s f c q off v hf h
    exact exec_doorbellWrite_reaches hf (State.bellWrite_rejected v
      (h.imp_right (Or.imp_right fun hoff hz => hoff (BitVec.eq_of_toNat_eq hz))))

end Machine
end Sys2Proof

/-! ## Die-to-die modules and the patrol of SMS (R31, R32, R39 to R41, R593) -/

namespace Sys2Proof.Machine

theorem State.crcRetry_serves {s : State} {m : Nat} (h : (s.module m).serves = true) : s.crcRetry m = s.ddlCorr m :=
  if_pos h

theorem State.laneDegrade_serves {s : State} {m : Nat} (h : (s.module m).serves = true) :
    s.laneDegrade m = (s.updModule m (fun x => { x with st := 3 })).ddlCorr m :=
  if_pos h

/-- A module in service that goes down: its die is lost only where no other module serves it. -/
theorem State.moduleDown_serves {s : State} {m : Nat} (h : (s.module m).serves = true) :
    let u := (s.updModule m (fun y => { y with st := 0 })).raise { src := Src.ddlLinkDown, synd := BitVec.ofNat 160 m }
    s.moduleDown m = if u.dieUp (s.module m).die.toNat then u else u.dieLost (s.module m).die.toNat :=
  if_neg (by simp [h])

theorem State.moduleRetrain_comesBack {s : State} {m : Nat} (hst : (s.module m).st = 0) (hw : (s.module m).waitOver = false)
    (ht : (s.module m).trained = true) (hi : s.islandOn (90 + m / 8) = true) :
    s.moduleRetrain m = s.updModule m (fun y => { y with st := 2, retrain := if y.retrain = 255 then 255 else y.retrain + 1 }) :=
  if_neg (by simp [hst, hw, ht, hi])

theorem State.linkwaitExpire_staysDown {s : State} {m : Nat} (hm : m < 24) (hst : (s.module m).st = 1)
    (ht : s.ce .ddlCtrl 7 0 * 1000000 ≤ s.since s.ddl.trainAt) :
    s.linkwaitExpire m = (s.updModule m (fun y => { y with st := 0, waitOver := true })).setDomain (496 + m) false :=
  if_neg (by simp [hst]; omega)

theorem forAll_congr {α σ : Type} (l : List α) (s : σ) (f g : σ → α → σ) (h : ∀ t, ∀ x ∈ l, f t x = g t x) :
    forAll l s f = forAll l s g :=
  List.foldl_ext f g s h

/-- A patrol pass that finds nothing in the fault-log area handles each line by its check alone. -/
theorem State.patrolPass_below {s : State} {finds : List (Nat × Ecc)} (hr : s.runs Blk.sms = true)
    (hb : ∀ p ∈ finds, p.1 < (fwBase + fwSize) / 64) :
    let u := forAll finds s (fun t p => t.eccLine (64 * p.1) p.2 .hw)
    s.patrolPass finds = { u with mem := { u.mem with passes := satInc u.mem.passes } } := by
  have hlines {p : Nat × Ecc} (hp : p ∈ finds) :
      ¬ (p.2 = .uncorrectable ∧ p.1 ≥ (fwBase + fwSize) / 64) := fun h => absurd (hb p hp) (Nat.not_lt.mpr h.2)
  refine (if_neg (by simp [hr])).trans ?_
  exact congrArg (fun u : State => ({ u with mem := { u.mem with passes := satInc u.mem.passes } } : State))
    (forAll_congr _ _ _ _ fun _ _ hp => if_neg (hlines hp))

/-- Settles O28: each command's premises are the ones under which its effect takes place. -/
theorem dieLinks : Obligations.DieLinks := by
  refine ⟨?_, ?_, ?_, ?_, ?_, ?_, ?_⟩
  · intro s m h
    exact done_eq (State.crcRetry_serves h)
  · intro s m h
    exact done_eq (State.laneDegrade_serves h)
  · intro s m h
    exact done_eq (State.moduleDown_serves h)
  · intro s m hst hw ht hi
    exact done_eq (State.moduleRetrain_comesBack hst hw ht hi)
  · intro s m die hbm tiles kib hst
    exact done_eq (if_neg (not_not_intro hst))
  · intro s m hm hst ht
    exact done_eq (State.linkwaitExpire_staysDown hm hst ht)
  · intro s finds hr hb
    exact done_eq (State.patrolPass_below hr hb)

end Sys2Proof.Machine

/-! ## Owner tags (R62, R521) -/

namespace Sys2Proof.Machine

/-! A fault touches no memory. -/

@[simp] theorem State.intaUpdate_mem (s : State) (l : Nat) : (s.intaUpdate l).mem = s.mem := by
  unfold State.intaUpdate
  dsimp only
  split <;> rfl

@[simp] theorem State.wakeCheck_mem (s : State) (f : FnId) : (s.wakeCheck f).mem = s.mem := by
  unfold State.wakeCheck
  dsimp only
  repeat' split
  all_goals rfl

@[simp] theorem State.msixRaise_mem (s : State) (f : FnId) (v : Nat) : (s.msixRaise f v).mem = s.mem := by
  unfold State.msixRaise
  dsimp only
  repeat' split
  all_goals simp

@[simp] theorem State.notifyOwner_mem (s : State) (f : FaultIn) (r : FRec) : (s.notifyOwner f r).mem = s.mem := by
  unfold State.notifyOwner
  split <;> simp

/-- What a block's fault touches: nothing, FLC alone, or FLC and then its owning function. -/
theorem State.raise_cases (s : State) (f : FaultIn) :
    s.raise f = s ∨ ∃ fl : Flc, s.raise f = { s with flc := fl } ∨
      ∃ r : FRec, s.raise f = ({ s with flc := fl } : State).notifyOwner f r := by
  unfold State.raise
  cases s.srcCfg f.src.toNat with
  | none => exact .inl rfl
  | some p =>
    refine .inr ?_
    dsimp -zeta only
    extract_lets n both esc level fl r s1
    have hs1 : ∃ fl, s1 = { s with flc := fl } := by
      unfold s1
      split <;> exact ⟨_, rfl⟩
    obtain ⟨fl1, h1⟩ := hs1
    clear_value s1
    subst h1
    split
    · exact ⟨_, .inl rfl⟩
    · exact ⟨_, .inr ⟨_, rfl⟩⟩

@[simp] theorem State.raise_mem (s : State) (f : FaultIn) : (s.raise f).mem = s.mem := by
  obtain h | ⟨fl, h | ⟨r, h⟩⟩ := s.raise_cases f
  · rw [h]
  · rw [h]
  · rw [h, State.notifyOwner_mem]

/-! An access within one line is that line's part. -/

theorem spanLines_one (a n : Nat) (h0 : 0 < n) (hn : a % 64 + n ≤ 64) : spanLines a n = [(a / 64 * 64, a, n)] := by
  rw [spanLines, lineSpans_succ a _ n h0, Nat.min_eq_left (by omega), Nat.sub_self, lineSpans_zero]

theorem State.smsRead_one (s : State) (a n : Nat) (own : Option CtxId) (who : Who) (h0 : 0 < n) (hn : a % 64 + n ≤ 64) :
    s.smsRead a n own who = s.readPart own who (a / 64 * 64, a, n) := by
  simp [State.smsRead, spanLines_one a n h0 hn]

theorem State.smsWrite_one (s : State) (a : Nat) (bs : List Byte) (own : Option CtxId) (poison : Bool) (h0 : 0 < bs.length)
    (hn : a % 64 + bs.length ≤ 64) : s.smsWrite a bs own poison = s.writePart own poison bs (a / 64 * 64, a, bs.length) := by
  simp [State.smsWrite, spanLines_one a bs.length h0 hn]

/-- A line that the owner `o` may not see: another's, or nobody's. -/
def LineMeta.foreign (m : LineMeta) (o : CtxId) : Prop := m.owned = false ∨ m.tag ≠ o

theorem State.readPart_foreign {s : State} {o : CtxId} {p : Nat × Nat × Nat} (who : Who) (hp : (s.line p.1).poison = false)
    (hf : (s.line p.1).foreign o) :
    s.readPart (some o) who p = (List.replicate p.2.2 0, false, s.raise { src := Src.tagMismatch, who := who, acc := .read }) := by
  have hne : ¬ ((s.line p.1).owned = true ∧ (s.line p.1).tag = o) := by
    rintro ⟨hown, htag⟩
    rcases hf with h | h
    · exact Bool.false_ne_true (h.symm.trans hown)
    · exact h htag
  simp only [State.readPart, hp, Bool.false_eq_true, if_false, if_neg hne]

/-- A partial write into a foreign line first clears the line. -/
theorem State.writePart_foreign {s : State} {o : CtxId} {p : Nat × Nat × Nat} (bs : List Byte) (hp : (s.line p.1).poison = false)
    (hf : (s.line p.1).foreign o) (hn : p.2.2 ≠ 64) :
    s.writePart (some o) false bs p = ((s.putBytes p.1 (List.replicate 64 0)).putBytes p.2.1 bs).putLine p.1 (ownLine o) := by
  have hne : ((s.line p.1).owned && (s.line p.1).tag == o) = false := by
    rcases hf with h | h
    · rw [h, Bool.false_and]
    · rw [beq_false_of_ne h, Bool.and_false]
  simp [State.writePart, hp, hne, hn, ownLine]

theorem Memory.read_writeN_zeros (m : Memory) (a n x : Nat) (h : m.wf = true) (hlo : a ≤ x) (hhi : x < a + n) :
    (m.writeN a (List.replicate n 0)).read x = 0 := by
  induction n generalizing m a with
  | zero => omega
  | succ n ih =>
    rw [List.replicate_succ, Memory.writeN]
    rcases Nat.eq_or_lt_of_le hlo with rfl | hlt
    · rw [Memory.read_writeN_other _ _ _ _ (by omega), Memory.read_write_self m a 0 h]
    · exact ih _ _ (Memory.wf_write m a 0 h) hlt (by omega)

/-! What a read under an owner depends on. -/

/-- Two states with the same line metadata, and the same bytes in the lines of owner `o`. -/
structure SameView (o : CtxId) (s t : State) : Prop where
  lines : s.mem.lines = t.mem.lines
  bytes : ∀ x, (s.line (x / 64 * 64)).owned = true → (s.line (x / 64 * 64)).tag = o → s.mem.bytes.read x = t.mem.bytes.read x

theorem State.line_eq_of_lines {s t : State} (h : s.mem.lines = t.mem.lines) (a : Nat) : s.line a = t.line a := by
  rw [State.line, State.line, h]

theorem SameView.of_mem {o : CtxId} {s t s' t' : State} (h : SameView o s t) (hs : s'.mem = s.mem) (ht : t'.mem = t.mem) :
    SameView o s' t' where
  lines := by rw [hs, ht, h.lines]
  bytes x := by
    rw [State.line_eq_of_lines (congrArg Mem.lines hs), hs, ht]
    exact h.bytes x

@[simp] theorem State.readPart_mem (s : State) (own : Option CtxId) (who : Who) (p : Nat × Nat × Nat) :
    (s.readPart own who p).2.2.mem = s.mem := by
  cases own with
  | none =>
    simp only [State.readPart]
    split <;> rfl
  | some o =>
    simp only [State.readPart]
    split
    · rfl
    · split
      · rfl
      · exact State.raise_mem _ _

/-- The bytes and the poison of one line's part of a read under an owner. -/
theorem State.readPart_data (s : State) (o : CtxId) (who : Who) (p : Nat × Nat × Nat) :
    (s.readPart (some o) who p).1 = (if (s.line p.1).poison = false ∧ (s.line p.1).owned = true ∧ (s.line p.1).tag = o then
      s.mem.bytes.readN p.2.1 p.2.2 else List.replicate p.2.2 0) ∧
    (s.readPart (some o) who p).2.1 = (s.line p.1).poison := by
  simp only [State.readPart]
  cases hp : (s.line p.1).poison
  · by_cases hm : (s.line p.1).owned = true ∧ (s.line p.1).tag = o <;> simp [hm]
  · simp

theorem SameView.readPart {o : CtxId} {s t : State} (h : SameView o s t) (w v : Who) {p : Nat × Nat × Nat}
    (hp : ∀ x, p.2.1 ≤ x → x < p.2.1 + p.2.2 → x / 64 * 64 = p.1) :
    (s.readPart (some o) w p).1 = (t.readPart (some o) v p).1 ∧ (s.readPart (some o) w p).2.1 = (t.readPart (some o) v p).2.1 := by
  obtain ⟨hs, hs'⟩ := s.readPart_data o w p
  obtain ⟨ht, ht'⟩ := t.readPart_data o v p
  rw [hs, hs', ht, ht', ← State.line_eq_of_lines h.lines]
  refine ⟨?_, rfl⟩
  split
  · next hown =>
    refine Memory.readN_congr _ _ _ _ fun x hlo hhi => h.bytes x ?_ ?_
    · rw [hp x hlo hhi]; exact hown.2.1
    · rw [hp x hlo hhi]; exact hown.2.2
  · rfl

/-- Each part of a span lies in its line. -/
theorem lineSpans_within (a fuel n : Nat) : ∀ p ∈ lineSpans a fuel n, ∀ x, p.2.1 ≤ x → x < p.2.1 + p.2.2 → x / 64 * 64 = p.1 := by
  induction fuel generalizing a n with
  | zero => exact fun _ h => (List.not_mem_nil h).elim
  | succ fuel ih =>
    rcases Nat.eq_zero_or_pos n with rfl | h0
    · exact fun _ h => (List.not_mem_nil (lineSpans_zero a _ ▸ h)).elim
    · rw [lineSpans_succ a fuel n h0]
      refine List.forall_mem_cons.mpr ⟨fun x hlo hhi => ?_, ih _ _⟩
      dsimp only at hlo hhi ⊢
      omega

theorem SameView.smsRead {o : CtxId} {s t : State} (h : SameView o s t) (a n : Nat) (w v : Who) :
    (s.smsRead a n (some o) w).1 = (t.smsRead a n (some o) v).1 ∧
    (s.smsRead a n (some o) w).2.1 = (t.smsRead a n (some o) v).2.1 := by
  suffices hall : (s.smsRead a n (some o) w).1 = (t.smsRead a n (some o) v).1 ∧
      (s.smsRead a n (some o) w).2.1 = (t.smsRead a n (some o) v).2.1 ∧
      SameView o (s.smsRead a n (some o) w).2.2 (t.smsRead a n (some o) v).2.2 from ⟨hall.1, hall.2.1⟩
  refine List.foldl_rel (r := fun x y : List Byte × Bool × State => x.1 = y.1 ∧ x.2.1 = y.2.1 ∧ SameView o x.2.2 y.2.2)
    ⟨rfl, rfl, h⟩ ?_
  rintro p hp c c' ⟨hbytes, hpoison, hview⟩
  obtain ⟨hb, hq⟩ := hview.readPart w v (lineSpans_within _ _ _ p hp)
  exact ⟨congrArg₂ (· ++ ·) hbytes hb, congrArg₂ (· || ·) hpoison hq,
    hview.of_mem (State.readPart_mem _ _ _ _) (State.readPart_mem _ _ _ _)⟩

/-- Settles O57: an access within one line is that line's part, and each part of a read keeps `SameView`. -/
theorem ownerTags : Obligations.OwnerTags := by
  refine ⟨?_, ?_, ?_⟩
  · intro s a n o who h0 hn hp hf
    rw [State.smsRead_one s a n _ _ h0 hn]
    exact State.readPart_foreign who hp hf
  · intro s a bs o h0 hlt hn hwf hp hf t
    have ht : t = ((s.putBytes (a / 64 * 64) (List.replicate 64 0)).putBytes a bs).putLine (a / 64 * 64) (ownLine o) :=
      (State.smsWrite_one s a bs _ _ h0 hn).trans (State.writePart_foreign bs hp hf (Nat.ne_of_lt hlt))
    have hline : t.line (a / 64 * 64) = ownLine o := by
      rw [ht, State.line_putLine_ownLine, if_pos rfl]
    refine ⟨by rw [hline]; rfl, by rw [hline]; rfl, fun x hlo hhi hout => ?_⟩
    rw [ht, State.putLine_bytes, State.putBytes_bytes, State.putBytes_bytes, Memory.read_writeN_other _ _ _ _ hout]
    exact Memory.read_writeN_zeros _ _ _ _ hwf hlo hhi
  · intro s t a n o w v hlines hbytes
    exact SameView.smsRead ⟨hlines, hbytes⟩ a n w v

end Sys2Proof.Machine

/-! ## Fills of the tier cache and evictions from it (R78, R127, R131, R133, R382, R388) -/

namespace Sys2Proof.Machine

/-- A fill may be put in service: FTC runs, and fewer than 64 are. -/
theorem State.fillStart_guard {s : State} (hr : s.runs Blk.ftc = true) (hf : s.fillsActive < 64) :
    ¬ ((!s.runs Blk.ftc) = true ∨ s.fillsActive ≥ fillMax) := by
  rw [hr]
  exact fun h => h.elim Bool.false_ne_true (Nat.not_le.mpr hf)

theorem State.fillStart_takes {s s1 : State} {e off : Nat} {p : PFault} (hr : s.runs Blk.ftc = true) (hf : s.fillsActive < 64)
    (hn : s.fillNext = some e) (hp : s.xlt.faults.look e = some p) (hl : s.flashLost p.flashAt (Pte.lsize p.leaf) = false)
    (ht : s.takePlace (Pte.lsize p.leaf) (Pte.pin p.leaf) = some (off, s1)) (hm : s.segMissing p.seg = false) :
    let s2 := s1.updPf e (fun x => { x with active := true, place := some off, mapWait := false, units := 0, ladder := 0, buf := [] })
    s.fillStart = (({ s2 with xlt := { s2.xlt with
      fillWait := s2.xlt.fillWait.filter (fun k => decide (k ≠ e)) } } : State).segTouch p.seg).flashAdvance e flashSteps := by
  rw [State.fillStart, if_neg (State.fillStart_guard hr hf)]
  simp only [hn, hp, hl, ht, hm, Bool.false_eq_true, if_false]

theorem State.fillStart_lost {s : State} {e : Nat} {p : PFault} (hr : s.runs Blk.ftc = true) (hf : s.fillsActive < 64)
    (hn : s.fillNext = some e) (hp : s.xlt.faults.look e = some p) (hl : s.flashLost p.flashAt (Pte.lsize p.leaf) = true) :
    s.fillStart = s.pfFail e Code.flashUnrecoverable 0 := by
  rw [State.fillStart, if_neg (State.fillStart_guard hr hf)]
  simp only [hn, hp, hl, if_true]

theorem State.segRead_waited {s : State} {g : Nat} (h : s.ftc.segReads.contains g = true) :
    let s1 : State := { s with ftc := { s.ftc with segReads := dropFrom s.ftc.segReads g } }
    let es := (s.xlt.faults.filter (fun e => e.2.svc == .flash && e.2.active && e.2.mapWait && e.2.seg == g)).map Prod.fst
    s.segRead g = forAll es (s1.segTouch g) (fun t e =>
      (t.updPf e (fun x => { x with mapWait := false })).flashAdvance e flashSteps) :=
  if_neg (by simp only [h, Bool.not_true, Bool.false_eq_true, not_false_iff])

/-! A unit's read: its owner and GEN are checked before its outcome. -/

section UnitRead

variable {s : State} {e b i : Nat} {p : PFault} {u : Sys2Proof.Machine.Unit}

theorem State.unitRead_decoded (hp : s.xlt.faults.look e = some p) (hloc : s.readLoc p = some (b, i))
    (hu : s.ftc.units.look p.curUnit = some u) (ho : u.owner = Pte.owner p.leaf) (hg : u.gen = s.genOf (Pte.owner p.leaf))
    (hlp : u.lp = Pte.lp p.leaf) :
    s.unitRead e .decoded = ((((s.updBlock b (fun x => { x with reads := x.reads + 1 })).unitDecoded b
      (s.ladderAt b p.ladder)).updPf e (fun x => { x with units := x.units + 1, ladder := 0, buf := x.buf ++ u.data })).flashAdvance
        e flashSteps) := by
  simp [State.unitRead, hp, hloc, hu, ho, hg, hlp]

/-- A unit that the last step of the ladder does not recover. -/
theorem State.unitRead_lost (hp : s.xlt.faults.look e = some p) (hloc : s.readLoc p = some (b, i))
    (hu : s.ftc.units.look p.curUnit = some u) (ho : u.owner = Pte.owner p.leaf) (hg : u.gen = s.genOf (Pte.owner p.leaf))
    (hk : 7 ≤ s.ladderAt b p.ladder) :
    s.unitRead e .failed = (((s.updBlock b (fun x => { x with reads := x.reads + 1 })).unitLost p.curUnit b i).flashFail e p
      Code.flashUnrecoverable 0) := by
  simp [State.unitRead, hp, hloc, hu, ho, hg, hk]

theorem State.unitRead_otherOwner (r : UnitRead) (hp : s.xlt.faults.look e = some p) (hloc : s.readLoc p = some (b, i))
    (hu : s.ftc.units.look p.curUnit = some u) (ho : u.owner ≠ Pte.owner p.leaf) :
    s.unitRead e r = (s.updBlock b (fun x => { x with reads := x.reads + 1 })).flashFail e p Code.xlateUnresolved Rsn.flashOwner := by
  simp [State.unitRead, hp, hloc, hu, ho]

end UnitRead

/-- The eviction of a page whose leaf is found, where a pending-fault entry is free. -/
theorem State.evictPage_starts {s : State} {off k e : Nat} {d : DirEntry} {leaf : PTE}
    (hleaf : s.s2leaf d.vdix d.ca = some (k, leaf)) (he : s.freeFault = some e) :
    let u := s.putPte k (Pte.setTs leaf Ts.busy)
    let p : PFault := { vdix := d.vdix, ca := d.ca, key := k, leaf := leaf, svc := .evict, start := s.now, place := some off
                        active := true, ctx := d.owner }
    s.evictPage off d = ({ u with xlt := { u.xlt with
      faults := u.xlt.faults.put e p, clock := off + 1 } } : State).invInternal .s2page d.vdix.toNat (BitVec.ofNat 64 d.ca)
      (.evict e) := by
  simp only [State.evictPage, hleaf, he]

/-- While the reserve is not met, the clock evicts a page, unless one that waits for a range can go on. -/
theorem State.evictStart_reserve {s s1 : State} {off : Nat} {d : DirEntry}
    (hw : s.xlt.faults.find? (fun e => e.2.svc == .evict && e.2.mapWait && (!s.ftc.wrstop && s.runs Blk.ftc) &&
      (s.findRange e.2.vdix (Pte.lsize e.2.leaf)).isSome) = none)
    (hr : s.runs Blk.xlt = true) (hf : s.tierFree < s.rf .xltTierReserve 11 0) (hc : s.clockPick = (some (off, d), s1)) :
    s.evictStart = s1.evictPage off d := by
  simp [State.evictStart, hw, hr, hf, hc]

/-- Settles O23: each command's premises are the ones under which its effect takes place. -/
theorem flashReads : Obligations.FlashReads := by
  refine ⟨?_, ?_, ?_, ?_, ?_, ?_, ?_⟩
  · intro s e p off s1 hr hf hn hp hl ht hm s2
    exact done_eq (congrArg State.flashAfter (State.fillStart_takes hr hf hn hp hl ht hm))
  · intro s e p hr hf hn hp hl
    exact done_eq (congrArg State.flashAfter (State.fillStart_lost hr hf hn hp hl))
  · intro s g hg s1 es
    exact done_eq (congrArg State.flashAfter (State.segRead_waited hg))
  · intro s e p b i u hp hloc hu ho hg hlp s1
    exact done_eq (congrArg State.flashAfter (State.unitRead_decoded hp hloc hu ho hg hlp))
  · intro s e p b i u hp hloc hu ho hg hk
    exact done_eq (congrArg State.flashAfter (State.unitRead_lost hp hloc hu ho hg hk))
  · intro s e r p b i u hp hloc hu ho
    exact done_eq (congrArg State.flashAfter (State.unitRead_otherOwner r hp hloc hu ho))
  · intro s s1 off k e d leaf hw hr hf hc hleaf he u p
    exact done_eq ((State.evictStart_reserve hw hr hf hc).trans (State.evictPage_starts hleaf he))

end Sys2Proof.Machine

/-! ## The answer of every command (R46) -/

namespace Sys2Proof.Machine

/-- The commands that perform the access of a request. -/
def PerformsAccess (c : Instr) (id : Nat) : Prop :=
  (∃ e, c = .writeAccept id e) ∨ (∃ r, c = .readDataReturn id r) ∨ ∃ h, c = .hbmReadResponse id h

theorem PerformsAccess.exec_outOfClass {c : Instr} {s : State} {id : Nat} {x : Byte × Nat} (hc : PerformsAccess c id)
    (h : s.outOfClass id = some x) : exec c s = .fault (.absentAddress x.1 x.2) := by
  obtain ⟨_, rfl⟩ | ⟨_, rfl⟩ | ⟨_, rfl⟩ := hc
  · simp only [exec, execWriteAccept, h]
  · simp only [exec, execReadDataReturn, h]
  · simp only [exec, execHbmReadResponse, h]

theorem PerformsAccess.exec_inClass {c : Instr} {s : State} {id : Nat} (hc : PerformsAccess c id) (h : s.outOfClass id = none) :
    ∃ u : State, exec c s = .next u.settle := by
  obtain ⟨e, rfl⟩ | ⟨r, rfl⟩ | ⟨st, rfl⟩ := hc
  · exact ⟨s.writeAccept id e, by simp only [exec, execWriteAccept, h, done]⟩
  · exact ⟨s.readReturn id r, by simp only [exec, execReadDataReturn, h, done]⟩
  · exact ⟨s.hbmReturn id st, by simp only [exec, execHbmReadResponse, h, done]⟩

/-- A command leaves a settled state, or it performs an access whose address lies outside its class. -/
def Answers (c : Instr) (s : State) : Prop :=
  (∃ u : State, exec c s = .next u.settle) ∨
  ∃ (id : Nat) (x : Byte × Nat), s.outOfClass id = some x ∧ exec c s = .fault (.absentAddress x.1 x.2) ∧ PerformsAccess c id

theorem PerformsAccess.answers {c : Instr} {id : Nat} (hc : PerformsAccess c id) (s : State) : Answers c s := by
  cases h : s.outOfClass id with
  | none => exact .inl (hc.exec_inClass h)
  | some x => exact .inr ⟨id, x, h, hc.exec_outOfClass h, hc⟩

/-- Every arm but those of the three accesses is `done` of its meaning. -/
theorem exec_answers (c : Instr) (s : State) : Answers c s := by
  cases c
  case writeAccept id e => exact PerformsAccess.answers (.inl ⟨e, rfl⟩) s
  case readDataReturn id r => exact PerformsAccess.answers (.inr (.inl ⟨r, rfl⟩)) s
  case hbmReadResponse id h => exact PerformsAccess.answers (.inr (.inr ⟨h, rfl⟩)) s
  all_goals exact .inl ⟨_, rfl⟩

/-- Settles O48, by the two ways in which a command answers. -/
theorem everyCommandAnswers : Obligations.EveryCommandAnswers := by
  refine ⟨fun c s r h => ?_, fun c s f h => ?_, fun c s t h => ?_⟩
  · obtain ⟨u, hu⟩ | ⟨id, x, hout, hx, hc⟩ := exec_answers c s
    · cases hu.symm.trans h
    · cases hx.symm.trans h
  · obtain ⟨u, hu⟩ | ⟨id, x, hout, hx, hc⟩ := exec_answers c s
    · cases hu.symm.trans h
    · cases hx.symm.trans h
      exact ⟨id, x, hout, rfl, hc⟩
  · obtain ⟨u, hu⟩ | ⟨id, x, hout, hx, hc⟩ := exec_answers c s
    · cases hu.symm.trans h
      exact ⟨u, rfl⟩
    · cases hx.symm.trans h

end Sys2Proof.Machine

/-! ## The counters of the table store (R73, R75) -/

namespace Sys2Proof.Machine

theorem State.regView_xltTstFree (s : State) (w : Who) : s.regView w .xltTstFree [] = 507904 - s.xlt.frames.length := rfl

theorem State.regView_xltTstSeqfree (s : State) (w : Who) : s.regView w .xltTstSeqfree [] = 131072 - s.xlt.seqs.length := rfl

/-- A die reset leaves the translation service empty. -/
theorem State.dieReset_xlt (s : State) (src inst : Nat) (cause : Option Nat) : (s.dieReset src inst cause).xlt = {} := by
  rw [State.dieReset, State.rstCause_xlt]

/-- Settles O51: the two counters show what is left of each pool, and a die reset empties the lists of what is in use. -/
theorem tableStoreCounters : Obligations.TableStoreCounters := by
  refine ⟨by decide, by decide, fun s w => ?_, fun s src inst cause w => ?_, by decide, by decide⟩
  · rw [State.regView_xltTstFree, State.regView_xltTstSeqfree]
    omega
  · intro t
    rw [State.regView_xltTstFree, State.regView_xltTstSeqfree, State.dieReset_xlt]
    exact ⟨rfl, rfl⟩

end Sys2Proof.Machine

/-! ## Invalidation instructions (R95, R99, R256, R261) -/

namespace Sys2Proof

open Machine

/-- The word of an INV with an operation code is that row's. -/
theorem Issues.mine_inv {s t : State} {c : CtxId} {q : QIdx} {x : JIn} {k : Nat} (h : Issues s c q 0x88 x t)
    (hk : J.md x.w = k) : invIs k x.w = true := by
  simp [invIs, h.mine, hk]

namespace Machine

/-- What INV asks of the engine: its scope is the issuer's, XLT runs and has room, and a range is not empty. -/
structure InvAccepted (s : State) (c : CtxId) (x : JIn) (op : InvOp) (n : Nat) : Prop where
  granted : s.invRefused c (some op) n = none
  runs : s.runs Blk.xlt = true
  room : s.invRoom = true
  span : (op = .range ∨ op = .s2range) → fld x.bVal.toNat 31 0 ≠ 0

/-- The invalidation that a queue's INV enters. -/
def queueInv (c : CtxId) (q : QIdx) (x : JIn) (op : InvOp) (n : Nat) : Inv :=
  { id := 0, src := .queue c q, op := op, scope := n, addr := x.aVal, len := fld x.bVal.toNat 31 0 }

theorem invBody_accepted {s : State} {c : CtxId} {q : QIdx} {x : JIn} {op : InvOp} (hop : invOpOf (J.md x.w) = some op)
    (h : InvAccepted s c x op (invScope op (J.imm2 x.w))) :
    invBody c q x s = some ((s.invAdd (queueInv c q x op (invScope op (J.imm2 x.w)))).result c q x.w 0 none) := by
  have hspan : ¬ ((op = .range ∨ op = .s2range) ∧ fld x.bVal.toNat 31 0 = 0) := fun hl => h.span hl.1 hl.2
  simp only [invBody, hop, h.granted, if_neg hspan, h.runs, h.room, queueInv, Bool.not_true, Bool.or_false,
    Bool.false_eq_true, if_false]

/-- An accepted INV enters the engine, and its result is 0. -/
theorem issue_inv_accepted {s t : State} {c : CtxId} {q : QIdx} {x : JIn} {k n : Nat} {op : InvOp}
    (h : Issues s c q 0x88 x t) (hk : J.md x.w = k) (hop : invOpOf k = some op) (hn : invScope op (J.imm2 x.w) = n)
    (ha : InvAccepted (t.countIssue c q) c x op n) :
    done (s.issue c q (invIs k) invBody) =
      .next (((t.countIssue c q).invAdd (queueInv c q x op n)).result c q x.w 0 none).settle := by
  subst hk hn
  refine done_eq ?_
  rw [h.issue _ (h.mine_inv rfl), invBody_accepted hop ha, Option.getD_some]

/-- INV.ALL lies in no issuer's scope. -/
theorem State.invRefused_all (s : State) (c : CtxId) (n : Nat) :
    s.invRefused c (some .all) n = some (if (s.ctlFn c).isSome then 1 else 2) := by
  unfold State.invRefused
  cases s.ctlFn c <;> simp

theorem invBody_all {s : State} {c : CtxId} {q : QIdx} {x : JIn} (hk : J.md x.w = 6) :
    invBody c q x s = some (s.result c q x.w (if (s.ctlFn c).isSome then 1 else 2) none) := by
  simp only [invBody, hk, invOpOf, State.invRefused_all]

/-- Settles O12: the seven operations with a scope are one lemma, and INV.ALL is refused in every scope. -/
theorem invalidationInstructions : Obligations.InvalidationInstructions := by
  unfold Obligations.InvalidationInstructions
  intro accepts after
  refine ⟨?_, ?_, ?_, ?_, ?_, ?_, ?_, ?_⟩
  case refine_8 =>
    intro s t c q x h hk
    refine done_eq ?_
    rw [h.issue _ (by rw [h.mine_inv hk, Bool.true_or]), invBody_all hk, Option.getD_some]
  all_goals
    intro s t c q x h hk ha
    obtain ⟨hgranted, hruns, hroom, hspan⟩ := ha
    exact issue_inv_accepted h hk rfl rfl ⟨hgranted, hruns, hroom, hspan⟩

end Machine
end Sys2Proof

/-! ## Lookups, walks and invalidations (R80 to R92, R97 to R103) -/

namespace Sys2Proof.Machine

theorem State.xlateLookup_runs {s : State} {id : Nat} {r : Req} (hr : s.req? id = some r) (hp : r.phase = .lookup)
    (hx : s.runs Blk.xlt = true) : s.xlateLookup id = s.lookup id := by
  simp only [State.xlateLookup, hr, hp, hx, and_self, if_true]

/-- The address of a request that the range check passes. -/
theorem Req.addr_inRange {r : Req} (ha : r.s2only = none → r.addr.toNat < 2 ^ 57) :
    ¬ (r.s2only.isNone && decide (r.addr.toNat ≥ 2 ^ 57)) = true := by
  simpa only [Bool.and_eq_true, Option.isNone_iff_eq_none, decide_eq_true_eq, not_and, Nat.not_le] using ha

/-- Through no L1, a hit in L2 that allows the access, where a write finds the page dirty, gives the translation. -/
theorem State.lookup_hit {s : State} {id : Nat} {r : Req} {x : CacheEntry} (hr : s.req? id = some r)
    (ha : r.s2only = none → r.addr.toNat < 2 ^ 57) (hc : r.cluster = none)
    (hh : s.cacheHit none r.s2only.isSome r.ctx (r.s2only.getD (s.ctxVdix r.ctx)) r.addr.toNat = some x)
    (hal : x.t.allows r = true) (hd : r.wr = false ∨ x.t.dirty = true) :
    s.lookup id = (s.cacheTouch x.l1 x.set x.way).launch id x.t := by
  have hclean : (r.wr && !x.t.dirty) = false := by
    rcases hd with h | h <;> simp [h]
  simp only [State.lookup, hr, if_neg (Req.addr_inRange ha), hc]
  cases hs : r.s2only <;>
  · rw [hs] at hh
    simp only [Option.getD_none, Option.getD_some] at hh
    simp only [hh, hal, hclean, Bool.not_true, Bool.false_eq_true, if_false]

theorem State.lookup_miss {s : State} {id : Nat} {r : Req} (hr : s.req? id = some r)
    (ha : r.s2only = none → r.addr.toNat < 2 ^ 57) (hc : r.cluster = none)
    (hh : s.cacheHit none r.s2only.isSome r.ctx (r.s2only.getD (s.ctxVdix r.ctx)) r.addr.toNat = none) :
    s.lookup id = s.miss id r := by
  simp only [State.lookup, hr, if_neg (Req.addr_inRange ha), hc]
  cases hs : r.s2only <;>
  · rw [hs] at hh
    simp only [Option.getD_none, Option.getD_some] at hh
    simp only [hh]

/-- A miss that joins no walk takes an idle walker, where nothing waits before it. -/
theorem State.miss_walks {s : State} {id : Nat} {r : Req} {w : Nat}
    (hj : ∀ o ∈ s.reqs, sameWalk o r = true → ∀ k, o.phase ≠ .walker k) (hf : s.walksFull r = false) (hq : s.xlt.walkQ = [])
    (hw : s.pickWalker r.homeRegion = some w) : s.miss id r = s.updReq id (fun y => { y with phase := .walker w }) := by
  unfold State.miss
  split
  · next o ho =>
    have hmem := List.mem_of_find?_eq_some ho
    have hwalk := List.find?_some ho
    cases hp : o.phase <;> simp only [hp, Bool.false_and, Bool.false_eq_true] at hwalk
    case walker k => exact absurd hp (hj o hmem (by simpa using hwalk) k)
  · simp only [hf, hq, hw, List.isEmpty_nil, Bool.false_eq_true, if_false, if_true]

/-- A walk that finds a MAPPED page which permits the request marks the leaves, fills the caches and launches it. -/
theorem State.walkEnd_mapped {s : State} {id quarter k2 ca : Nat} {r : Req} {l1 : Option (Nat × PTE)} {e2 : PTE} {v : Vdix}
    (hr : s.req? id = some r) (hw : (s.walkOf quarter r).1 = .leaves l1 k2 e2 ca v)
    (hp : r.permitted (l1.map Prod.snd) e2 = true) (hm : Pte.ts e2 = Ts.mapped) :
    let u := (s.walkOf quarter r).2.markLeaves l1 k2 e2 r.wr
    let tr := transOf r (l1.map (fun p => u.pte p.1)) (u.pte k2) ca v (u.epochsOf r.s2only.isSome r.ctx v)
    s.walkEnd id quarter = (u.fillFor r.cluster tr).launch id tr := by
  simp only [State.walkEnd, hr, hw, hp, hm, Bool.not_true, Bool.false_eq_true, if_false, if_true]

/-- A walker whose request no other has joined gives it the walk's outcome, and takes the next. -/
theorem State.walkCmd_alone {s : State} {w : BitVec 7} {r : Req}
    (hr : s.reqs.find? (fun o => o.phase == .walker w.toNat) = some r) (hz : s.regionFrozen (walkerRegion w.toNat) = false)
    (hj : s.joinedTo r.id = []) : s.walkCmd w = (s.walkEnd r.id (walkerRegion w.toNat)).walkNext w.toNat := by
  simp only [State.walkCmd, hr, hz, hj, forAll, List.foldl_nil, Bool.false_eq_true, if_false]

theorem State.walkCmd_idle {s : State} {w : BitVec 7} (hr : s.reqs.find? (fun o => o.phase == .walker w.toNat) = none)
    (hb : s.walkerBusy w.toNat = false) : s.walkCmd w = s.walkNext w.toNat := by
  simp only [State.walkCmd, hr, hb, Bool.false_eq_true, if_false]

/-- The cached entries of a translation know that its page is dirty. -/
def State.knowDirty (s : State) (t : Trans) : State :=
  { s with xlt := { s.xlt with cache := s.xlt.cache.map (fun e =>
    if e.t = t then { e with t := { e.t with dirty := true } } else e) } }

/-- A dirty update whose walk fails marks no leaf. -/
theorem State.dirtyCmd_fail {s : State} {id w a : Nat} {r : Req} {t : Trans} {reason : Byte} (hr : s.req? id = some r)
    (hp : r.phase = .dirty w) (ht : r.tr = some t) (hw : (s.walkOf (walkerRegion w) r).1 = .fail reason a) :
    s.dirtyCmd id = ((s.knowDirty t).launch id { t with dirty := true }).walkNext w := by
  simp only [State.dirtyCmd, hr, hp, ht, hw, State.knowDirty]

/-- A dirty update whose walk still finds the page marks its leaves. -/
theorem State.dirtyCmd_mapped {s : State} {id w k2 ca : Nat} {r : Req} {t : Trans} {l1 : Option (Nat × PTE)} {e2 : PTE}
    {v : Vdix} (hr : s.req? id = some r) (hp : r.phase = .dirty w) (ht : r.tr = some t)
    (hw : (s.walkOf (walkerRegion w) r).1 = .leaves l1 k2 e2 ca v)
    (hsame : Pte.ts e2 = Ts.mapped ∧ Pte.cls e2 = t.cls ∧ Pte.index e2 = t.idx ∧
      Pte.offpn e2 * 4096 + ca % 2 ^ Pte.lsize e2 = t.off + r.addr.toNat % 2 ^ t.lsize) :
    s.dirtyCmd id = ((((s.walkOf (walkerRegion w) r).2.markLeaves l1 k2 e2 true).knowDirty t).launch id
      { t with dirty := true }).walkNext w := by
  simp only [State.dirtyCmd, hr, hp, ht, hw, if_pos hsame, State.knowDirty]

/-- An invalidation that needs no epoch, or whose next epoch is usable, purges. -/
theorem State.invPurgeCmd_purges {s : State} {i : Nat} {x : Inv} (hf : s.xlt.invs.find? (fun j => j.id == i) = some x)
    (hp : x.purged = false) (he : s.invEpoch x = false ∨ s.epochUsable x.epochScope = true) :
    s.invPurgeCmd i = s.invPurge x := by
  have hgo : (s.invEpoch x && !s.epochUsable x.epochScope) = false := by
    rcases he with h | h <;> simp [h]
  simp only [State.invPurgeCmd, hf, hp, hgo, Bool.false_eq_true, if_false]

/-- A drained invalidation that frees no place leaves the engine. -/
theorem State.invComplete_drained {s : State} {i : Nat} {x : Inv} (hf : s.xlt.invs.find? (fun j => j.id == i) = some x)
    (hd : s.invDrained x = true) (hp : x.places = []) (ha : x.after = .nothing) (hs : x.src ≠ .regs) :
    s.invComplete i = ({ s with xlt := { s.xlt with
      invs := s.xlt.invs.filter (fun j => j.id != i)
      placeWait := s.xlt.placeWait.filter (fun _ => true)
      unlinks := s.xlt.unlinks.map (fun u => if x.frames.contains u.frame then { u with invDone := true } else u) } } :
      State).invRefill := by
  simp only [State.invComplete, hf, hd, hp, ha, hs, State.invThen, forAll, List.filter_nil, List.foldl_nil, List.contains_nil,
    Bool.not_true, Bool.not_false, Bool.false_eq_true, decide_false, if_false]

/-- A read stream in the last quarter of a page, whose next page lies in its span and misses L2, walks ahead (R85). -/
theorem State.nextPage_walks {s : State} {d k2 ca : Nat} {x : Desc} {c : CtxId} {q : QIdx} {seq : Word} {ch : Nat × Nat}
    {b : DWord} {l1 : Nat × PTE} {e2 : PTE} {v : Vdix} (hx : s.desc? d = some x) (ho : x.owner = .queue c q seq)
    (hch : x.chan = some ch) (hsrc : x.src = .dva b) :
    let at_ := x.streamAt false
    let l := min (Pte.lsize l1.2) (Pte.lsize e2)
    let next := pageBase at_.1 l + 2 ^ l
    s.peekWalk c at_.1 = .leaves (some l1) k2 e2 ca v → s.ce .xltCtrl 3 3 = 1 → 3 * 2 ^ l ≤ 4 * (at_.1 % 2 ^ l) →
    next < at_.1 + at_.2 → next < 2 ^ 57 → s.runs Blk.xlt = true → s.cacheHit none false c (s.ctxVdix c) next = none →
    s.nextPage d false = s.prefetch
      { id := 0, who := chanWho ch, cluster := s.clusterOf c, ctx := c, queue := some q, seq := seq
        addr := BitVec.ofNat 64 next, len := 1, rd := true, wr := false, purpose := .descRead d }
      ((s.slotOf c).map slotRegion |>.getD 0) := by
  intro at_ l next hw hon hnear hspan hlow hr hmiss
  have hgo : ¬ (s.ce .xltCtrl 3 3 ≠ 1 ∨ (!decide (4 * (at_.1 % 2 ^ l) ≥ 3 * 2 ^ l)) = true ∨ next ≥ at_.1 + at_.2 ∨
      next ≥ 2 ^ 57 ∨ (!s.runs Blk.xlt) = true) := by
    simpa [hon, hnear, hspan, hr] using hlow
  simp only [at_, l, next] at hw hgo hmiss ⊢
  simp only [State.nextPage, hx, ho, hch, hsrc, hw, if_neg hgo, hmiss, Option.isSome_none, Bool.not_false, Bool.false_eq_true,
    if_false]

/-- Settles O19: each command's premises are the ones under which its effect takes place. -/
theorem translationCommands : Obligations.TranslationCommands := by
  refine ⟨?_, ?_, ?_, ?_, ?_, ?_, ?_, ?_, ?_, ?_⟩
  · intro s id r x hr hp hx ha hc hh hal hd
    exact done_eq ((State.xlateLookup_runs hr hp hx).trans (State.lookup_hit hr ha hc hh hal hd))
  · intro s id r w hr hp hx ha hc hh hj hf hq hw
    exact done_eq (((State.xlateLookup_runs hr hp hx).trans (State.lookup_miss hr ha hc hh)).trans
      (State.miss_walks hj hf hq hw))
  · intro s w r l1 k2 e2 ca v hf hr hz hj hw hp hm u tr
    exact done_eq ((State.walkCmd_alone hf hz hj).trans
      (congrArg (State.walkNext · w.toNat) (State.walkEnd_mapped hr hw hp hm)))
  · intro s w hf hb
    exact done_eq (State.walkCmd_idle hf hb)
  · intro s id r t w reason a hr hp ht hw u
    exact done_eq (State.dirtyCmd_fail hr hp ht hw)
  · intro s id r t w l1 k2 e2 ca v hr hp ht hw hts hcls hidx hoff m u
    exact done_eq (State.dirtyCmd_mapped hr hp ht hw ⟨hts, hcls, hidx, hoff⟩)
  · intro s n
    exact done_eq rfl
  · intro s i x hf hp he
    exact done_eq (State.invPurgeCmd_purges hf hp he)
  · intro s i x hf hd hp ha hs
    exact done_eq (State.invComplete_drained hf hd hp ha hs)
  · intro s d x c q seq ch b l1 k2 e2 ca v hx ho hch hsrc at_ l next hw hon hnear hspan hlow hr hmiss
    exact done_eq (State.nextPage_walks hx ho hch hsrc hw hon hnear hspan hlow hr hmiss)

end Sys2Proof.Machine

/-! ## ATS, PRI and the host side of fault service (R109 to R114, R136 to R142) -/

namespace Sys2Proof.Machine

/-- A grant of at least 4 KiB that allows what the request asks fills L0, and the request goes on. -/
theorem State.atsCmd_granted {s : State} {id : Nat} {r : Req} {t : Trans} {f : FnId} {pa : DWord} {l : BitVec 6} {rd wr : Bool}
    (hr : s.req? id = some r) (hf : s.reqFn r = some f) (hp : r.phase = .ats) (ht : r.tr = some t) (hl : 12 ≤ l.toNat)
    (hw : r.wr = true → wr = true) (hd : r.rd = true → rd = true) :
    s.atsCmd id (.granted pa l rd wr) =
      (s.l0Fill f (BitVec.ofNat 20 (fld t.idx.toNat 19 0)) (r.targetOff t) pa l.toNat rd wr).transmit id := by
  have hlarge : ¬ l.toNat < 12 := Nat.not_lt.mpr hl
  have hall : ¬ ((r.wr = true ∧ (!wr) = true) ∨ (r.rd = true ∧ (!rd) = true)) := by
    rintro (⟨h, hn⟩ | ⟨h, hn⟩)
    · simp [hw h] at hn
    · simp [hd h] at hn
  simp only [State.atsCmd, hr, hf, hp, ht, hlarge, hall, State.atsForReq, decide_false, or_self, Bool.false_eq_true, if_false]

theorem State.atsCmd_denied {s : State} {id : Nat} {r : Req} {t : Trans} {f : FnId} (hr : s.req? id = some r)
    (hf : s.reqFn r = some f) (hp : r.phase = .ats) (ht : r.tr = some t) :
    s.atsCmd id .denied = s.hostPageFault id r t f := by
  simp only [State.atsCmd, hr, hf, hp, ht, State.atsForReq, Bool.false_eq_true, if_false]

/-- An Invalidate Request waits for no read where no request is in the state. -/
theorem State.atsInvCmd_idle {s : State} {f : FnId} (pasid : BitVec 20) (a : DWord) (lsize : Nat) (glob : Bool)
    (itag : BitVec 5) (hn : s.atsInvCount f < 32) (hq : s.reqs = []) :
    let meets (e : L0Entry) : Bool := e.func == f && (glob || e.pasid == pasid) &&
      decide (pageBase a.toNat lsize < e.page * 4096 + 2 ^ e.lsize ∧ e.page * 4096 < pageBase a.toNat lsize + 2 ^ lsize)
    s.atsInvCmd f pasid a lsize glob itag = { s with xlt := { s.xlt with
      l0 := s.xlt.l0.filter (fun e => !meets e), atsInv := s.xlt.atsInv ++ [(f, itag, [])] } } := by
  simp only [State.atsInvCmd, if_neg (Nat.not_le.mpr hn), hq, List.filter_nil, List.map_nil]

theorem State.atsInvDoneCmd_sent {s : State} {f : FnId} {itag : BitVec 5} {ids : List Nat}
    (hf : s.xlt.atsInv.find? (fun e => e.1 == f && e.2.1 == itag) = some (f, itag, ids))
    (hd : ids.any (fun id => (s.req? id).isSome) = false) (hroom : s.hostRoom f 1 = true) :
    s.atsInvDoneCmd f itag = ({ s with xlt := { s.xlt with
      atsInv := s.xlt.atsInv.filter (fun x => !(x.1 == f && x.2.1 == itag)) } } : State).hostPush f (.atsInvDone f itag) := by
  simp only [State.atsInvDoneCmd, hf, hd, hroom, Bool.not_true, Bool.or_false, Bool.false_eq_true, if_false]

/-- On a link that is up and not frozen, an unsupported request is answered and recorded. -/
theorem State.inboundAtsCmd_recorded {s : State} {f : FnId} (a : DWord) (hu : (s.link (s.fnLink f)).dlup = true)
    (hz : (s.link (s.fnLink f)).frozen = false) :
    s.inboundAtsCmd f a = (s.emit (.unsupported f)).raise
      { src := Src.hpxUrIn (s.fnLink f), who := .host f, addr := a, acc := .message, akind := .host } := by
  simp only [State.inboundAtsCmd, hu, hz, Bool.not_true, Bool.false_eq_true, if_false]

theorem State.atsEnable_set {s : State} {f : FnId} (h : (s.fn f).ats = false) :
    s.atsEnable f true = (s.updFn f (fun x => { x with ats := true })).l0Drop f := by
  simp only [State.atsEnable, h, Bool.false_eq_true, if_false, if_true]

theorem State.atsEnable_clear {s : State} {f : FnId} (h : (s.fn f).ats = true) :
    s.atsEnable f false = ((((s.updFn f (fun x => { x with ats := false })).l0Drop f).pfHostEnd (fun p => p.func == f)
      Code.hostPathFailed 0)).atsRetry f := by
  simp only [State.atsEnable, h, Bool.true_eq_false, Bool.false_eq_true, if_false]

/-- A PF's PASID Enable that changes empties L0 of its link's functions. -/
theorem State.pasidEnable_changed {s : State} {f : FnId} {on : Bool} (hpf : s.isPf f = true) (hc : (s.fn f).pasid ≠ on) :
    let u := s.updFn f (fun x => { x with pasid := on })
    s.pasidEnable f on = { u with xlt := { u.xlt with
      l0 := u.xlt.l0.filter (fun e => s.fnLink e.func != s.fnLink f) } } := by
  simp only [State.pasidEnable, hpf, hc, Bool.not_true, Bool.false_eq_true, or_self, if_false]

/-- A Success ends the wait for the Page Request, and the translation is asked for again (R136). -/
theorem State.prgCmd_success {s : State} {f : FnId} {idx : BitVec 9} {e : Nat} {p : PFault}
    (hz : (s.link (s.fnLink f)).frozen = false)
    (hf : s.xlt.faults.find? (fun e => e.2.func == f && e.2.prgSent && e.2.prgIdx == some idx) = some (e, p)) :
    let u := s.updPf e (fun x => { x with prgSent := false, prgIdx := none })
    let w := (u.updPf e (fun x => { x with atsWait := true })).emit (.atsReq f
      (BitVec.ofNat 20 (fld (Pte.index p.leaf).toNat 19 0)) (p.hostPage.getD (Pte.offpn p.leaf)) ((p.waiters.head?).getD 0))
    s.prgCmd f idx .success = (w.prgNext f 512).prgStopCheck f := by
  cases hp : p.hostPage <;>
    simp only [State.prgCmd, hz, hf, hp, Option.getD_none, Option.getD_some, Bool.false_eq_true, if_false]

theorem State.hostTimeoutCmd_expired {s : State} {e : Nat} {p : PFault} (hp : s.xlt.faults.look e = some p)
    (hs : p.svc = .host) (hn : s.rf .xltFltCtrl 23 8 ≠ 0) (ht : s.rf .xltFltCtrl 23 8 * 1000000 ≤ s.since p.start) :
    s.hostTimeoutCmd e = s.pfFail e Code.hostPathFailed Rsn.hostTimeout := by
  simp only [State.hostTimeoutCmd, hp]
  exact if_pos ⟨hs, hn, ht⟩

theorem State.priClear_enabled {s : State} {f : FnId} (h : (s.fn f).pri = true) :
    s.priClear f = ((s.updFn f (fun x => { x with pri := false })).pfHostEnd (fun p => p.func == f)
      Code.hostPathFailed 0).prgStopCheck f := by
  simp only [State.priClear, h, Bool.not_true, Bool.false_eq_true, if_false]

/-- A zero-fill that finds a place fills it and ends its service. -/
theorem State.zeroFillCmd_placed {s u : State} {e off : Nat} {p : PFault} (hp : s.xlt.faults.look e = some p)
    (hs : p.svc = .zero) (ht : s.takePlace (Pte.lsize p.leaf) (Pte.pin p.leaf) = some (off, u)) :
    s.zeroFillCmd e = (u.tierZero off (Pte.lsize p.leaf) (Pte.owner p.leaf)).fillEnd e p off
      { vdix := p.vdix, ca := p.ca, lsize := Pte.lsize p.leaf, flash := none, lp := false, dirty := true, ref := true
        owner := Pte.owner p.leaf } := by
  simp only [State.zeroFillCmd, hp, hs, ht, ne_eq, not_true_eq_false, if_false]

/-- Settles O20: each command's premises are the ones under which its effect takes place. -/
theorem hostTranslationCommands : Obligations.HostTranslationCommands := by
  refine ⟨?_, ?_, ?_, ?_, ?_, ?_, ?_, ?_, ?_, ?_, ?_, ?_, ?_, ?_, ?_⟩
  · intro s id r t f pa l rd wr hr hf hp ht hl hw hd
    exact done_eq (State.atsCmd_granted hr hf hp ht hl hw hd)
  · intro s id r t f hr hf hp ht
    exact done_eq (State.atsCmd_denied hr hf hp ht)
  · intro s f pasid a lsize glob itag hn hq meets
    exact done_eq (State.atsInvCmd_idle pasid a lsize.toNat glob itag hn hq)
  · intro s f itag ids hf hd hroom
    exact done_eq (State.atsInvDoneCmd_sent hf hd hroom)
  · intro s f a hu hz
    exact done_eq (State.inboundAtsCmd_recorded a hu hz)
  · intro s f h u
    exact done_eq (State.atsEnable_set h)
  · intro s f h u
    exact done_eq (State.atsEnable_clear h)
  · intro s f on hpf hc u
    exact done_eq (State.pasidEnable_changed hpf hc)
  · intro s f idx e p hz hf u w
    exact done_eq (State.prgCmd_success hz hf)
  · intro s e p hp hs hn ht
    exact done_eq (State.hostTimeoutCmd_expired hp hs hn ht)
  · intro s f h
    exact done_eq (State.priClear_enabled h)
  · intro s c n
    exact done_eq rfl
  · intro s c n
    exact done_eq rfl
  · intro s f n
    exact done_eq rfl
  · intro s e p off u hp hs ht
    exact done_eq (State.zeroFillCmd_placed hp hs ht)

end Sys2Proof.Machine

/-! ## The issue of an instruction, and what it answers (R155, R190, R200, R215) -/

namespace Sys2Proof

open Machine

/-- An instruction that issues leaves what its body makes of the state after its fetch. -/
theorem Issues.answers {s t u : State} {c : CtxId} {q : QIdx} {op : Nat} {x : JIn} {body : JBody} (h : Issues s c q op x t)
    (hb : body c q x (t.countIssue c q) = some u) : done (s.issue c q (opcIs op) body) = .next u.settle :=
  done_eq (by rw [h.issue _ h.mine, hb, Option.getD_some])

/-- An instruction that its own checks refuse has not issued, and its queue takes a program fault. -/
theorem Issues.faults {s t u : State} {c : CtxId} {q : QIdx} {op : Nat} {x : JIn} {body : JBody} {reason : Byte}
    (h : Issues s c q op x t) (hb : body c q x (t.countIssue c q) = faultBody u c q reason) :
    done (s.issue c q (opcIs op) body) = .next (({ u with issued := u.issued - 1 } : State).pfault c q reason).settle :=
  h.answers hb

/-- Whatever its row means, an instruction whose guard fails leaves HEAD behind it. -/
theorem GuardedOff.answers {s t : State} {c : CtxId} {q : QIdx} {op : Nat} {x : JIn} (h : GuardedOff s c q op x t)
    (body : JBody) : done (s.issue c q (opcIs op) body) = .next ((t.countIssue c q).advance c q x.w).settle :=
  done_eq (h.issue _ h.mine body)

namespace Machine

theorem lifeBody_control {s : State} {c : CtxId} {q : QIdx} {x : JIn} {f : FnId}
    (act : FnId → CtxId → QIdx → JIn → State → State) (hf : s.ctlFn c = some f) :
    lifeBody act c q x s = some (act f c q x s) := by
  rw [lifeBody, hf]

theorem lifeBody_noControl {s : State} {c : CtxId} {q : QIdx} {x : JIn} (act : FnId → CtxId → QIdx → JIn → State → State)
    (hf : s.ctlFn c = none) : lifeBody act c q x s = faultBody s c q Rsn.priv := by
  rw [lifeBody, hf]

end Machine

/-- A lifecycle instruction of a control context acts for its function. -/
theorem Issues.lifecycle {s t u : State} {c : CtxId} {q : QIdx} {op : Nat} {x : JIn} {f : FnId}
    {act : FnId → CtxId → QIdx → JIn → State → State} (h : Issues s c q op x t) (hf : (t.countIssue c q).ctlFn c = some f)
    (ha : act f c q x (t.countIssue c q) = u) : done (s.issue c q (opcIs op) (lifeBody act)) = .next u.settle :=
  h.answers ((lifeBody_control act hf).trans (congrArg some ha))

end Sys2Proof

/-! ## SIGNAL (R172, R173, R249, R250, R263) -/

namespace Sys2Proof.Machine

/-- A SIGNAL of an event that its context has issues as a held SIGNAL. -/
theorem signalBody_held {s : State} {c : CtxId} {q : QIdx} {x : JIn} (he : signalEvent x < s.eventsOf c) :
    let h : Held := { id := s.nextId, ctx := c, queue := q, seq := x.q.head, event := signalEvent x,
                      value := BitVec.ofNat 32 x.aVal.toNat, deadline := x.q.deadline }
    signalBody c q x s = some ((({ s with nextId := s.nextId + 1, helds := s.helds ++ [h] } : State).pcrSigIssue c q
      s.nextId).advance c q x.w) :=
  if_neg (Nat.not_le.mpr he)

/-- The oldest held SIGNAL writes once it may and its record has room. -/
theorem State.signalRelease_writes {s : State} {c : CtxId} {q : QIdx} {h : Held} {x : Ctx}
    (hh : (s.heldOf c q).head? = some h) (hx : s.ctx? c = some x) (hw : x.recWait = []) (hs : s.cqSpace c = true)
    (hr : s.signalReady h = true) : s.signalRelease c q = s.signalWrite h := by
  simp only [State.signalRelease, hh, hx, hw, hs, hr, List.isEmpty_nil, Bool.and_true, if_true]

/-- A SIGNAL of an event that is not ERRORED makes it SIGNALED and posts its record. -/
theorem State.signalWrite_signaled {s : State} {h : Held} :
    let late := decide (h.deadline ≠ 0 ∧ h.deadline.toNat < s.now.toNat)
    let r := ({ s with helds := s.helds.filter (fun k => decide (k.id ≠ h.id)) } : State).evRead h.ctx h.event
    let rec_ : CqRec := { event := BitVec.ofNat 16 h.event, st := 1, late := late, code := 0, queue := h.queue, seq := h.seq,
                          value := h.value, lateness := if late then sat32 (s.now.toNat - h.deadline.toNat) else 0 }
    Ev.state r.1 ≠ 2 →
    s.signalWrite h = ((((r.2.evWrite h.ctx h.event (Ev.mk h.value.toNat h.queue 0 late 1)).cqPost h.ctx rec_).updQ h.ctx
      h.queue (fun y => { y with sigs := y.sigs ++ [(h.id, h.event, h.seq)] })).finalSigs h.ctx h.queue).pcrSigDone h.id late := by
  intro late r rec_ hr
  have herr : decide (Ev.state r.1 = 2) = false := decide_eq_false hr
  simp only [late, r, rec_] at herr ⊢
  simp only [State.signalWrite, herr, Bool.false_eq_true, if_false]

/-- Settles O8: a SIGNAL is held at its issue, and its release writes the event and the record. -/
theorem signals : Obligations.Signals := by
  refine ⟨?_, ?_⟩
  · intro s t c q x h u e hd he
    exact h.answers (signalBody_held he)
  · intro s c q h x hh hx hw hs hr late r rec_ hst
    exact done_eq ((State.signalRelease_writes hh hx hw hs hr).trans (State.signalWrite_signaled hst))

end Sys2Proof.Machine

/-! ## Waits (R172, R251 to R254) -/

namespace Sys2Proof.Machine

/-- An instruction with a hurdle waits at HEAD, and goes on at once where nothing is outstanding. -/
theorem hurdleBody_eq (dirs : JIn → BitVec 3) (after : JIn → AfterHurdle) (c : CtxId) (q : QIdx) (x : JIn) (s : State) :
    let w := s.waitAt c q x.w (.hurdle (dirs x) (after x) s.nextId)
    hurdleBody dirs after c q x s =
      some (if s.hurdleClear c q (dirs x) s.nextId then w.hurdleEnd c q (after x) else w) :=
  (apply_ite some _ _ _).symm

theorem eventResetBody_inRange {s : State} {c : CtxId} {q : QIdx} {x : JIn} (he : fld (J.imm2 x.w) 15 0 < s.eventsOf c) :
    eventResetBody c q x s = hurdleBody (fun _ => 0) (fun _ => .eventReset (fld (J.imm2 x.w) 15 0)) c q x s :=
  if_neg (Nat.not_le.mpr he)

theorem waitEvBody_inRange {s : State} {c : CtxId} {q : QIdx} {x : JIn} (he : fld (J.imm2 x.w) 15 0 < s.eventsOf c) :
    waitEvBody c q x s = some ((s.waitAt c q x.w (.event (fld (J.imm2 x.w) 15 0) (BitVec.ofNat 32 x.bVal.toNat)
      (BitVec.ofNat 5 (J.rd x.w)) (waitLimit x s.now))).evCheck c q) :=
  if_neg (Nat.not_le.mpr he)

/-- A wait on an aligned word of memory, which no earlier access overlaps, waits at HEAD and reads it. -/
theorem waitMemBody_waits {s : State} {c : CtxId} {q : QIdx} {x : JIn} (rel : JIn → Nat) (sg : JIn → Bool)
    (hk : x.aTokenFault c = none) (ha : x.aDva.toNat % 8 = 0) (ho : s.overlaps c q x.aDva.toNat 8 = false)
    (hs : s.stallFor c x.aDva.toNat = false) :
    waitMemBody rel sg c q x s = some ((s.waitAt c q x.w (.mem x.aDva (BitVec.ofNat 3 (rel x)) (sg x) x.bVal
      (BitVec.ofNat 5 (J.rd x.w)) (waitLimit x s.now) 0)).waitRead c q x.q.head x.aDva) := by
  simp only [waitMemBody, hk, ha, ho, hs, ne_eq, not_true_eq_false, Bool.false_eq_true, if_false]

theorem waitMemBody_misaligned {s : State} {c : CtxId} {q : QIdx} {x : JIn} (rel : JIn → Nat) (sg : JIn → Bool)
    (hk : x.aTokenFault c = none) (ha : x.aDva.toNat % 8 ≠ 0) :
    waitMemBody rel sg c q x s = faultBody s c q Rsn.misalign := by
  simp only [waitMemBody, hk, if_pos ha]

/-- What a waiting queue needs to look at its wait again. -/
theorem State.waitRuns {s : State} {c : CtxId} {q : QIdx} (ha : (s.queue c q).state = .active) (hr : s.resident c = true) :
    ¬ (!s.resident c || (s.queue c q).state != .active) = true := by
  simp [ha, hr]

theorem State.reread_mem {s : State} {c : CtxId} {q : QIdx} {a : DWord} {rel : BitVec 3} {sg : Bool} {b : DWord} {rd : BitVec 5}
    {lim : Option DWord} {last : DWord} (hw : (s.queue c q).wait = some (.mem a rel sg b rd lim last))
    (ha : (s.queue c q).state = .active) (hr : s.resident c = true) (hs : s.stallFor c a.toNat = false) :
    s.reread c q = s.waitRead c q (s.queue c q).head a := by
  rw [State.reread, if_neg (State.waitRuns ha hr)]
  simp only [hw, hs, Bool.false_eq_true, if_false]

theorem State.waitTimeout_event {s : State} {c : CtxId} {q : QIdx} {e : Nat} {thr : Word} {rd : BitVec 5} {lim : DWord}
    (hw : (s.queue c q).wait = some (.event e thr rd (some lim))) (ha : (s.queue c q).state = .active)
    (hr : s.resident c = true) (ht : s.reached lim = true) :
    s.waitTimeout c q = (s.evRead c e).2.retireWait c q rd (BitVec.ofNat 64 (s.evRead c e).1) := by
  rw [State.waitTimeout, if_neg (State.waitRuns ha hr)]
  simp only [hw, ht, if_true]

theorem State.waitTimeout_mem {s : State} {c : CtxId} {q : QIdx} {a : DWord} {rel : BitVec 3} {sg : Bool} {b : DWord}
    {rd : BitVec 5} {lim last : DWord} (hw : (s.queue c q).wait = some (.mem a rel sg b rd (some lim) last))
    (ha : (s.queue c q).state = .active) (hr : s.resident c = true) (ht : s.reached lim = true) :
    s.waitTimeout c q =
      (s.dropReqs (fun k => k.ctx == c && k.queue == some q && k.purpose == .wait)).retireWait c q rd last := by
  rw [State.waitTimeout, if_neg (State.waitRuns ha hr)]
  simp only [hw, ht, if_true]

theorem State.reached_of_le {s : State} {t : DWord} (h : t.toNat ≤ s.now.toNat) : s.reached t = true :=
  decide_eq_true h

/-- Settles O9: each instruction waits as its body says, and each command serves the wait that it finds. -/
theorem waits : Obligations.Waits := by
  refine ⟨?_, ?_, ?_, ?_, ?_, ?_, ?_⟩
  · intro s t c q x h u e w he
    exact h.answers ((eventResetBody_inRange he).trans (hurdleBody_eq _ _ c q x u))
  · intro s t c q x h u e he
    exact h.answers (waitEvBody_inRange he)
  · intro s t c q x h u hk ha ho hs
    exact h.answers (waitMemBody_waits _ _ hk ha ho hs)
  · intro s t c q x h u hk ha ho hs
    exact h.answers (waitMemBody_waits _ _ hk ha ho hs)
  · intro s c q a rel sg b rd lim last hw ha hr hs hn
    exact done_eq ((State.reread_mem hw ha hr hs).trans (if_neg (Bool.not_eq_true _ ▸ hn)))
  · intro s c q e thr rd lim hw ha hr ht
    exact done_eq (State.waitTimeout_event hw ha hr (State.reached_of_le ht))
  · intro s c q a rel sg b rd lim last hw ha hr ht
    exact done_eq (State.waitTimeout_mem hw ha hr (State.reached_of_le ht))

end Sys2Proof.Machine

/-! ## Program faults and guards (R155, R176, R200, R206, R210, R212, R235) -/

namespace Sys2Proof.Machine

theorem branchBody_badTarget {s : State} {c : CtxId} {q : QIdx} {x : JIn} {target : JIn → Word} (link : Bool)
    (ht : 2 ^ x.q.lsize < (x.q.tail - target x).toNat) :
    branchBody target link c q x s = faultBody s c q Rsn.badTarget := by
  have hno : x.q.targetOk (target x) = false := decide_eq_false (Nat.not_le.mpr ht)
  simp only [branchBody, hno, Bool.not_false, if_true]

theorem divBody_trapped {s : State} {c : CtxId} {q : QIdx} {x : JIn} (write : Nat → DWord × DWord × Byte → Queue → Queue)
    (hz : srcNat (J.wid x.w) x.bVal = 0) (ht : flagBit x.q.flags Fl.trapdz = true) :
    divBody write c q x s =
      faultBody (s.updQ c q (fun r => { r with flags := setFlag r.flags Fl.dz true })) c q Rsn.divZero :=
  if_pos ⟨hz, ht⟩

theorem scalarBody_misaligned {s : State} {c : CtxId} {q : QIdx} {x : JIn} {n : JIn → Nat} (rd wr : Bool) (flag : JIn → Bool)
    (p : JIn → Purpose) (hk : x.aTokenFault c = none) (ha : x.aDva.toNat % n x ≠ 0) :
    scalarBody n rd wr flag p c q x s = faultBody s c q Rsn.misalign := by
  simp only [scalarBody, hk, if_pos ha]

theorem refAddBody_otherContext {s : State} {c : CtxId} {q : QIdx} {x : JIn}
    (ho : fld (s.counterWord (fld x.aVal.toNat 19 0)).toNat 63 50 ≠ c.toNat) :
    refAddBody c q x s = faultBody s c q Rsn.priv :=
  if_pos ho

/-- Settles O18: each refusal is one of the body's checks, and a failed guard comes before any of them. -/
theorem programFaults : Obligations.ProgramFaults := by
  refine ⟨⟨?_, ?_⟩, ?_, ⟨?_, ?_⟩, ⟨?_, ?_, ?_⟩, ?_, ?_, ?_, ?_, ?_⟩
  · intro s t c q x h ht
    exact h.faults (branchBody_badTarget false ht)
  · intro s t c q x h ht
    exact h.faults (branchBody_badTarget false ht)
  · intro s t c q x h hz ht u
    exact h.faults (divBody_trapped _ hz ht)
  · intro s t c q x h hk ha
    exact h.faults (scalarBody_misaligned true false _ _ hk ha)
  · intro s t c q x h hk ha
    exact h.faults (waitMemBody_misaligned _ _ hk ha)
  · intro s t c q x h hf
    exact h.faults (lifeBody_noControl ctxCreate hf)
  · intro s t c q x h hf
    exact h.faults (lifeBody_noControl ctxDestroy hf)
  · intro s t c q x h ho
    exact h.faults (refAddBody_otherContext ho)
  all_goals
    intro s t c q x h
    exact h.answers _

end Sys2Proof.Machine

/-! ## Lifecycle instructions (R153 to R156, R163, R170, R176, R184, R238, R265 to R267) -/

namespace Sys2Proof.Machine

/-- An instruction that names another queue than its own. -/
theorem namesOther {c : CtxId} {q : QIdx} {x : JIn} (h : ¬ (lifeCtx x = c ∧ lifeQ x = q)) :
    (lifeCtx x == c && lifeQ x == q) = false := by
  simpa using h

section Contexts

variable {s : State} {f : FnId} {c : CtxId} {q : QIdx} {x : JIn} {y : Ctx}

theorem ctxCreate_creates (hn : s.ctx? (lifeCtx x) = none) (hv : s.vdevIn f (BitVec.ofNat 8 (fld (J.imm2 x.w) 31 24)) = true)
    (ht : s.tstFree ≠ 0) :
    let short := (J.md x.w).testBit 0
    let r := s.allocFrame (if short then 3 else 4) false false none
    let d := r.2.draw
    let new : Ctx := { s1d := short, vdix := BitVec.ofNat 8 (fld (J.imm2 x.w) 31 24), func := f,
                       gen := (s.sec.gens.look (lifeCtx x).toNat).getD 0, lap := s.lapStored false (lifeCtx x).toNat,
                       s1root := BitVec.ofNat 19 r.1, rlxcap := (J.md x.w).testBit 1, cookie := d.1 }
    ctxCreate f c q x s =
      ({ d.2 with ctxs := d.2.ctxs.put (lifeCtx x).toNat new } : State).result c q x.w 0 (some d.1) := by
  simp only [ctxCreate, hn, hv, ht, Option.isSome_none, Bool.not_true, Bool.or_self, Bool.false_eq_true, if_false]

theorem ctxEvsetBody_inline (hf : s.ctlFn c = some f) (hl : fld (J.imm0 x.w) 7 0 + 32 ≤ 32 * J.xc x.w) :
    let r := s.evsetRes f (lifeCtx x) (leVal ((x.pay.drop (fld (J.imm0 x.w) 7 0)).take 32))
    ctxEvsetBody c q x s = some (r.2.result c q x.w r.1 none) := by
  have hin : inlineOver x.w (J.imm0 x.w) 32 = false := decide_eq_false (Nat.not_lt.mpr hl)
  simp only [ctxEvsetBody, hf, hin, JIn.inline, Bool.false_eq_true, if_false]

/-- CTX.PIN of a resident context, where both counts leave room for a pin. -/
theorem ctxPin_resident (hy : s.lifeIn f (lifeCtx x) = some y) (hp : y.pin = false) (hw : y.pinWait = false)
    (hl : s.pinned + 1 ≤ s.pinLimit)
    (ho : (s.ctxs.filter (fun e => e.2.vdix == y.vdix && (e.2.pin || e.2.pinWait))).length + 1 <
      (s.vdev y.vdix).grant.slots.toNat)
    (hs : y.slot.isSome = true) (he : y.evict = false) :
    ctxPin f c q x s = (s.result c q x.w 0 none).updCtx (lifeCtx x) (fun z => { z with pin := true }) := by
  have hroom := not_or.mpr ⟨Nat.not_lt.mpr hl, Nat.not_le.mpr ho⟩
  simp only [ctxPin, hy, hp, hw, if_neg hroom, hs, he, Bool.or_self, Bool.not_false, and_self, Bool.false_eq_true, if_false,
    if_true]

theorem ctxUnpin_inScope (hy : s.lifeIn f (lifeCtx x) = some y) :
    ctxUnpin f c q x s =
      (s.updCtx (lifeCtx x) (fun z => { z with pin := false, pinWait := false })).result c q x.w 0 none := by
  simp only [ctxUnpin, hy]

/-- CTX.ATTACH with the cookie of a context of the same port. -/
theorem ctxAttach_attaches (hy : s.ctx? (lifeCtx x) = some y) (hp : fnPort y.func = fnPort f) (hd : y.defunct = false)
    (ht : y.teardown = .none) (hb : s.attachBanned (lifeCtx x) = false) (hk : x.aVal = y.cookie) :
    let u1 := (s.updCtx (lifeCtx x) (fun z => { z with orph := false, orphend := 0, func := f })).result c q x.w 0 none
    let again := (u1.xlt.faults.filter (fun e => e.2.ctx == lifeCtx x && e.2.svc == .host)).map Prod.fst
    ctxAttach f c q x s = forAll again u1 (fun t e => match t.xlt.faults.look e with
      | some p => if p.prgWaits then (t.updPf e (fun z => { z with func := f })).hostFaultStart e false else t
      | none => t) := by
  have hok : ¬ (fnPort y.func ≠ fnPort f ∨ y.defunct ∨ y.teardown ≠ .none ∨ s.attachBanned (lifeCtx x)) := by
    simp [hp, hd, ht, hb]
  unfold ctxAttach
  simp only [hy]
  exact (if_neg hok).trans (if_neg (not_not_intro hk))

/-- CTX.DESTROY of the function's own context: by R181 in a virtual device of several packages, else by R179. -/
theorem ctxDestroy_starts (hy : s.ctx? (lifeCtx x) = some y) (hf : y.func = f) (hc : y.ctl = false) (hd : y.defunct = false)
    (ht : y.teardown = .none) :
    let rd : BitVec 5 := BitVec.ofNat 5 (J.rd x.w)
    let u1 := s.waitAt c q x.w (.lifecycle rd)
    ctxDestroy f c q x s = if (s.vdev y.vdix).grant.multi then u1.abortStart (lifeCtx x) (some (c, q, rd))
      else u1.destroyStart (lifeCtx x) (some (c, q, rd)) := by
  simp only [ctxDestroy, hy, hf, hc, hd, ht, ne_eq, not_true_eq_false, or_self, Bool.false_eq_true, if_false]

theorem objCount_counts (hy : s.lifeIn f (lifeCtx x) = some y) (hi : firstGap s.xlt.counters 0 < 1048576) :
    let i := firstGap s.xlt.counters 0
    let k : Counter := { ctx := lifeCtx x, obj := BitVec.ofNat 20 x.aVal.toNat, st := 1, href := 1, dref := 0 }
    objCount f c q x s = ({ s with xlt := { s.xlt with counters := s.xlt.counters.put i k } } : State).result
      c q x.w 0 (some (BitVec.ofNat 64 i)) := by
  have hfree : ¬ firstGap s.xlt.counters 0 ≥ counterMax := Nat.not_le.mpr hi
  simp only [objCount, hy, hfree, Option.isNone_some, Bool.false_eq_true, if_false]

/-- REF.ADD on a LIVE counter of its own context, whose DREF stays within its range. -/
theorem refAddBody_counts {k : Counter} :
    let i := fld x.aVal.toNat 19 0
    let down := (J.md x.w).testBit 0
    s.xlt.counters.look i = some k → fld (s.counterWord i).toNat 63 50 = c.toNat → k.st = 1 →
    (if down then k.dref ≠ 0 else k.dref.toNat ≠ 16383) →
    refAddBody c q x s = some ((s.result c q x.w (s.counterWord i) none).putRefs i k k.href.toNat
      (if down then k.dref.toNat - 1 else k.dref.toNat + 1)) := by
  intro i down hk ho hl hr
  have hin : ¬ (k.st ≠ 1 ∨ (down = true ∧ k.dref.toNat = 0) ∨ ((!down) = true ∧ k.dref.toNat = 16383)) := by
    cases hd : down with
    | true =>
      have hd0 : k.dref ≠ 0 := by simpa [hd] using hr
      have hn0 : k.dref.toNat ≠ 0 := fun h => hd0 (BitVec.eq_of_toNat_eq h)
      simp [hl, hn0]
    | false =>
      have hd1 : k.dref.toNat ≠ 16383 := by simpa [hd] using hr
      simp [hl, hd1]
  simp only [i, down] at hk ho hin ⊢
  simp only [refAddBody, if_neg (not_not_intro ho), hk, if_neg hin]

end Contexts

section Queues

variable {s : State} {f : FnId} {c n : CtxId} {q k : QIdx} {x : JIn} {y : Ctx}

/-- What R163 asks of the fields of Q.CREATE. -/
structure QCreateForm (dva : DWord) (lsize dcls : Nat) : Prop where
  cls : dcls < 4
  low : 7 ≤ lsize
  high : lsize ≤ 16
  canonical : dva.toNat < 2 ^ 57
  aligned : dva.toNat % 4096 = 0

theorem QCreateForm.legal {dva : DWord} {lsize dcls : Nat} (h : QCreateForm dva lsize dcls) :
    ¬ (dcls ≥ 4 ∨ lsize < 7 ∨ lsize > 16 ∨ dva.toNat ≥ 2 ^ 57 ∨ dva.toNat % 4096 ≠ 0) := by
  obtain ⟨hc, hl, hh, ha, hp⟩ := h
  omega

variable {dva : DWord} {lsize dcls : Nat} {rlx : Bool} {ps : List Nat}

theorem State.qCreateRes_rlxIncapable (hform : QCreateForm dva lsize dcls) (hy : s.lifeIn f n = some y) (hr : rlx = true)
    (hcap : y.rlxcap = false) : s.qCreateRes f n k dva lsize rlx dcls = (2, s) := by
  simp only [State.qCreateRes, if_neg hform.legal, hy, hr, hcap, Bool.not_false, Bool.and_self, Bool.or_true, if_true]

/-- What R163 asks of the context and of the ring of a queue that is to be created. -/
structure QCreatable (s : State) (f : FnId) (n : CtxId) (k : QIdx) (dva : DWord) (lsize : Nat) (rlx : Bool) (y : Ctx)
    (ps : List Nat) : Prop where
  scope : s.lifeIn f n = some y
  evset : y.evset = true
  absent : (y.q k).state = .undefined
  settled : (y.q k).resetting = none
  capable : rlx = true → y.rlxcap = true
  pages : s.stagingPages n dva.toNat (pagesOf dva.toNat (32 * 2 ^ lsize)) = some ps

/-- Q.CREATE of a queue that may be created turns on the number of relaxed queues alone. -/
theorem State.qCreateRes_creatable (hform : QCreateForm dva lsize dcls) (h : QCreatable s f n k dva lsize rlx y ps) :
    let new : Queue := { state := .active, rdva := dva, ring := ps, lsize := lsize, dcls := BitVec.ofNat 3 dcls, rlx := rlx }
    s.qCreateRes f n k dva lsize rlx dcls = if rlx ∧ (y.queues.filter Queue.rlx).length ≥ 2 then (3, s)
      else (0, ((s.updQ n k (fun _ => new)).askRlx n k).askHigh n k) := by
  obtain ⟨hy, hev, hst, hres, hcap, hps⟩ := h
  have hopen : (!y.evset || (y.q k).state != .undefined || (y.q k).resetting.isSome || (rlx && !y.rlxcap)) = false := by
    cases hr : rlx
    · simp [hev, hst, hres]
    · simp [hev, hst, hres, hcap hr]
  simp only [State.qCreateRes, if_neg hform.legal, hy, hopen, hps, Bool.false_eq_true, if_false]

theorem State.qCreateRes_created (hform : QCreateForm dva lsize dcls) (h : QCreatable s f n k dva lsize rlx y ps)
    (hcount : rlx = true → (y.queues.filter Queue.rlx).length < 2) :
    let new : Queue := { state := .active, rdva := dva, ring := ps, lsize := lsize, dcls := BitVec.ofNat 3 dcls, rlx := rlx }
    s.qCreateRes f n k dva lsize rlx dcls = (0, ((s.updQ n k (fun _ => new)).askRlx n k).askHigh n k) :=
  (State.qCreateRes_creatable hform h).trans (if_neg fun hfull => Nat.not_lt.mpr hfull.2 (hcount hfull.1))

theorem State.qCreateRes_rlxFull (hform : QCreateForm dva lsize dcls) (h : QCreatable s f n k dva lsize rlx y ps)
    (hr : rlx = true) (hcount : 2 ≤ (y.queues.filter Queue.rlx).length) :
    s.qCreateRes f n k dva lsize rlx dcls = (3, s) :=
  (State.qCreateRes_creatable hform h).trans (if_pos ⟨hr, hcount⟩)

/-- The queue that Q.RESET and Q.DESTROY name: another than their own, which is defined and in no reset. -/
theorem qReset_starts (destroy : Bool) (hy : s.lifeIn f (lifeCtx x) = some y) (ho : ¬ (lifeCtx x = c ∧ lifeQ x = q))
    (hst : (y.q (lifeQ x)).state ≠ .undefined) (hres : (y.q (lifeQ x)).resetting = none) :
    let rd : BitVec 5 := BitVec.ofNat 5 (J.rd x.w)
    qReset destroy f c q x s = (s.waitAt c q x.w (.lifecycle rd)).resetStart (lifeCtx x) (lifeQ x)
      { code := Code.queueBroken, replyTo := some (c, q, rd), destroy := destroy } := by
  have hdef : ((y.q (lifeQ x)).state != .undefined) = true := bne_iff_ne.mpr hst
  simp only [qReset, hy, namesOther ho, hdef, hres, Option.isNone_none, Bool.not_false, Bool.and_self, Bool.not_true,
    Bool.false_eq_true, if_false]

theorem qResume_resumes (hy : s.lifeIn f (lifeCtx x) = some y) (ho : ¬ (lifeCtx x = c ∧ lifeQ x = q))
    (hst : (y.q (lifeQ x)).state = .stalled) (hres : (y.q (lifeQ x)).resetting = none) :
    let u1 := (s.updQ (lifeCtx x) (lifeQ x) (fun r => { r with state := .active })).result c q x.w 0 none
    qResume f c q x s = if y.slot.isNone && !y.wait then u1.roomTail (lifeCtx x) else u1 := by
  have hok : ((lifeCtx x == c && lifeQ x == q) || (y.q (lifeQ x)).state != .stalled || (y.q (lifeQ x)).resetting.isSome) =
      false := by
    simp [namesOther ho, hst, hres]
  simp only [qResume, hy, hok, Bool.false_eq_true, if_false]

end Queues

/-- Q.CREATE answers with its result. -/
theorem qCreate_result {s : State} {f : FnId} {c : CtxId} {q : QIdx} {x : JIn} {r : DWord × State}
    (h : s.qCreateRes f (lifeCtx x) (lifeQ x) x.aVal (fld (J.imm2 x.w) 28 24) ((J.md x.w).testBit 0) (fld (J.md x.w) 3 1) = r) :
    qCreate f c q x s = r.2.result c q x.w r.1 none := by
  rw [qCreate, h]

/-- Settles O17: under its checks each instruction is its effect. -/
theorem lifecycleInstructions : Obligations.LifecycleInstructions := by
  refine ⟨?_, ?_, ?_, ?_, ?_, ?_, ?_, ?_, ?_, ?_, ?_, ?_⟩
  · intro s t c q x f h hf u v short r d new hn hv ht
    exact h.lifecycle hf (ctxCreate_creates hn hv ht)
  · intro s t c q x f y ps h hf u lsize dcls rlx new hd hl hh ha hp hy hev hst hres hcap hcount hps
    exact h.lifecycle hf (qCreate_result
      (State.qCreateRes_created ⟨hd, hl, hh, ha, hp⟩ ⟨hy, hev, hst, hres, hcap, hps⟩ hcount))
  · intro s t c q x f h hf hl
    exact h.answers (ctxEvsetBody_inline hf hl)
  · intro s t c q x f y h hf u rd hy ho hst hres
    exact h.lifecycle hf (qReset_starts false hy ho hst hres)
  · intro s t c q x f y h hf u rd hy ho hst hres
    exact h.lifecycle hf (qReset_starts true hy ho hst hres)
  · intro s t c q x f y h hf u hy ho hst hres
    exact h.lifecycle hf (qResume_resumes hy ho hst hres)
  · intro s t c q x f y h hf u hy hp hw hl ho hs he
    exact h.lifecycle hf (ctxPin_resident hy hp hw hl ho hs he)
  · intro s t c q x f y h hf hy
    exact h.lifecycle hf (ctxUnpin_inScope hy)
  · intro s t c q x f y h hf u hy hp hd ht hb hk
    exact h.lifecycle hf (ctxAttach_attaches hy hp hd ht hb hk)
  · intro s t c q x f y h hf u rd hy hown hc hd ht
    exact h.lifecycle hf (ctxDestroy_starts hy hown hc hd ht)
  · intro s t c q x f y h hf u i hy hi
    exact h.lifecycle hf (objCount_counts hy hi)
  · intro s t c q x k h u i down hk ho hl hr
    exact h.answers (refAddBody_counts hk ho hl hr)

/-- Settles O60: RLXCAP is looked at with the context's state, and the number of relaxed queues last. -/
theorem relaxedQueueLimit : Obligations.RelaxedQueueLimit := by
  refine ⟨?_, ?_⟩
  · intro s t c q x f y h hf u lsize hd hl hh ha hp hy hr hcap
    exact h.lifecycle hf (qCreate_result (State.qCreateRes_rlxIncapable ⟨hd, hl, hh, ha, hp⟩ hy hr hcap))
  · intro s t c q x f y ps h hf u lsize hd hl hh ha hp hy hev hst hres hps hr hcap hcount
    exact h.lifecycle hf (qCreate_result
      (State.qCreateRes_rlxFull ⟨hd, hl, hh, ha, hp⟩ ⟨hy, hev, hst, hres, fun _ => hcap, hps⟩ hr hcount))

end Sys2Proof.Machine

/-! ## Admission and eviction (R165 to R171, R475) -/

namespace Sys2Proof.Machine

section Admission

variable {s : State} {c : CtxId} {x : Ctx} {rest : List Nat}

/-- The head of the waiting room, whose virtual device has a slot left, takes the lowest free slot. -/
theorem State.pickFrom_head_takes {n : Nat} {ns : List Nat} (hx : s.ctx? c = some x)
    (hg : s.residents x.vdix < (s.vdev x.vdix).grant.slots.toNat) (hfree : s.freeSlots = n :: ns) :
    s.pickFrom (c.toNat :: rest) = .take c.toNat n := by
  have hlook : s.ctxs.look c.toNat = some x := hx
  simp only [State.pickFrom, hlook, if_neg (Nat.not_le.mpr hg), hfree]

/-- With no slot free, a victim is chosen for the head of the waiting room. -/
theorem State.pickFrom_head_evicts {v : Nat} (hx : s.ctx? c = some x)
    (hg : s.residents x.vdix < (s.vdev x.vdix).grant.slots.toNat) (hfree : s.freeSlots = []) (hn : s.dqe.victim = none)
    (hv : s.victimFor none = some v) : s.pickFrom (c.toNat :: rest) = .evict v := by
  have hlook : s.ctxs.look c.toNat = some x := hx
  simp only [State.pickFrom, hlook, if_neg (Nat.not_le.mpr hg), hfree, hn, hv]

theorem State.contextAdmit_takes {n : Nat} (hr : s.runs Blk.dqe = true) (hp : s.pickFrom s.dqe.room = .take c.toNat n) :
    s.contextAdmit = s.takeSlot c n := by
  simp only [State.contextAdmit, hr, hp, BitVec.ofNat_toNat, BitVec.setWidth_eq, Bool.not_true, Bool.false_eq_true, if_false]

theorem State.contextAdmit_evicts {v : Nat} (hr : s.runs Blk.dqe = true) (hp : s.pickFrom s.dqe.room = .evict v) :
    s.contextAdmit = { s with dqe := { s.dqe with victim := some v } } := by
  simp only [State.contextAdmit, hr, hp, Bool.not_true, Bool.false_eq_true, if_false]

theorem State.evictionStart_begins {n : Nat} (hv : s.dqe.victim = some c.toNat) (hx : s.ctx? c = some x)
    (he : x.evict = false) (hp : x.pin = false) (hs : x.slot = some n) (hr : x.restoring = false) :
    s.evictionStart = s.updCtx c (fun y => { y with evict := true }) := by
  have hlook : s.ctxs.look c.toNat = some x := hx
  simp only [State.evictionStart, hv, hlook, he, hp, hs, hr, Option.isNone_some, Bool.or_self, Bool.false_eq_true, if_false,
    BitVec.ofNat_toNat, BitVec.setWidth_eq]

/-- A context that leaves its slot has none, is no victim, and keeps its pin that waits. -/
theorem State.ctx?_leaveSlot (hx : s.ctx? c = some x) :
    ∃ y, (s.leaveSlot c).ctx? c = some y ∧ y.slot = none ∧ y.evict = false ∧ y.pinWait = x.pinWait := by
  let queues := x.queues.map (fun q => { q with rlxGrant := false, highGrant := false })
  have hgrants : (s.dropGrants c).ctx? c = some { x with queues := queues } :=
    (State.ctx?_updCtx_self s c _).trans (by rw [hx]; rfl)
  have hleft : (s.leaveSlot c).ctx? c =
      some { x with queues := queues, slot := none, evict := false, restoring := false } :=
    (State.ctx?_updCtx_self (s.dropGrants c) c _).trans (by rw [hgrants]; rfl)
  exact ⟨_, hleft, rfl, rfl, rfl⟩

/-- The spill of a context without a pin that waits ends: it joins the waiting room where it has work. -/
theorem State.spillDone_ends {y : Ctx} (hx : s.ctx? c = some x) (he : x.evict = true) (hp : y.pinWait = false) :
    let u := (s.leaveSlot c).updCtx c (fun y => { y with queues := y.queues.map (fun r => { r with rwait := r.wait.isSome }) })
    u.ctx? c = some y →
    s.spillDone c = if y.hasWork then (u.updCtx c (fun z => { z with heldDb := false })).roomTail c
      else u.updCtx c (fun z => { z with heldDb := false }) := by
  intro u hy
  simp only [u] at hy ⊢
  simp only [State.spillDone, hx, he, hy, hp, Bool.not_true, Bool.false_eq_true, if_false]

theorem State.restoreDone_ends (hx : s.ctx? c = some x) (hr : x.restoring = true) :
    let u := s.updCtx c (fun y => { y with restoring := false, queues := y.queues.map (fun r => { r with rwait := false }) })
    s.restoreDone c = forAll allQ ((u.askGrants c).lateBudget c) (fun t q => t.evCheck c q) := by
  simp only [State.restoreDone, hx, hr, Bool.not_true, Bool.false_eq_true, if_false]

end Admission

/-- Settles O14: the head of the waiting room decides the admission, and a spill frees the slot before it looks for work. -/
theorem residency : Obligations.Residency := by
  refine ⟨?_, ?_, ?_, ?_, ?_⟩
  · intro s c x rest n ns hr hroom hx hg hfree u
    have hpick : s.pickFrom s.dqe.room = .take c.toNat n := by rw [hroom, State.pickFrom_head_takes hx hg hfree]
    rw [← hroom]
    exact done_eq (State.contextAdmit_takes hr hpick)
  · intro s c x rest v hr hroom hx hg hfree hn hv
    have hpick : s.pickFrom s.dqe.room = .evict v := by rw [hroom, State.pickFrom_head_evicts hx hg hfree hn hv]
    exact done_eq (State.contextAdmit_evicts hr hpick)
  · intro s v x n hv hx he hp hs hr
    exact done_eq (State.evictionStart_begins hv hx he hp hs hr)
  · intro s c x hx he hp u
    obtain ⟨y, hy, hslot, hevict, hpin⟩ := State.ctx?_leaveSlot hx
    have hu := (State.ctx?_updCtx_self (s.leaveSlot c) c
      (fun y => { y with queues := y.queues.map (fun r => { r with rwait := r.wait.isSome }) })).trans (congrArg _ hy)
    exact ⟨_, hu, hslot, hevict, done_eq (State.spillDone_ends hx he (hpin.trans hp) hu)⟩
  · intro s c x hx hr u
    exact done_eq (State.restoreDone_ends hx hr)

end Sys2Proof.Machine

/-! ## Counters of a host function (R174 to R178, R408) -/

namespace Sys2Proof.Machine

/-- Every field of a counter's word but HREF (R177). -/
def withoutHref (w : DWord) : Nat := w.toNat - fld w.toNat 27 14 * 2 ^ 14

section Counters

variable {s : State} {f : FnId} {i : Nat} {k : Counter}

theorem State.hostAtomic_reaches (hf : Reaches s f) (new : DWord → DWord) (matched : DWord → Bool) :
    s.hostAtomic f i new matched = s.hostCounter f i (new (s.counterWord i)) (matched (s.counterWord i)) :=
  hf.serve false _ _ _ _ false

/-- An atomic of the owning function on a LIVE counter that leaves the other fields answers the old word, and writes HREF
where its compare matches. -/
theorem State.hostCounter_performed {new : DWord} (matched : Bool) (hk : s.xlt.counters.look i = some k) (hl : k.st = 1)
    (ho : s.ctxFn k.ctx = some f) (hr : withoutHref new = withoutHref (s.counterWord i)) :
    s.hostCounter f i new matched = if matched then (s.emit (.hostReply f (s.counterWord i))).putRefs i k
      (fld new.toNat 27 14) k.dref.toNat else s.emit (.hostReply f (s.counterWord i)) := by
  simp only [State.hostCounter, hk]
  exact if_pos ⟨hl, ho, hr⟩

/-- Any other atomic on a counter answers the old word and is recorded as REFCNT_RANGE. -/
theorem State.hostCounter_refused {new : DWord} (matched : Bool) (hk : s.xlt.counters.look i = some k)
    (h : k.st ≠ 1 ∨ s.ctxFn k.ctx ≠ some f ∨ withoutHref new ≠ withoutHref (s.counterWord i)) :
    s.hostCounter f i new matched = (s.emit (.hostReply f (s.counterWord i))).raise
      { src := Src.refcntRange, who := .host f, addr := counterAddr i, acc := .atomic, akind := .bar2 } := by
  have hno : ¬ (k.st = 1 ∧ s.ctxFn k.ctx = some f ∧ withoutHref new = withoutHref (s.counterWord i)) := by
    rintro ⟨hl, ho, hr⟩
    exact h.elim (· hl) (·.elim (· ho) (· hr))
  simp only [State.hostCounter, hk]
  exact if_neg hno

theorem State.counterFree_reclaimed (hk : s.xlt.counters.look i = some k) (hd : k.st = 2)
    (hr : s.xlt.reclaim.look i = none) (hs : s.sec.scrub.any (fun x => x.counter == some i) = false) :
    s.counterFree i = { s with xlt := { s.xlt with counters := s.xlt.counters.del i } } := by
  simp only [State.counterFree, hk, hd, hr, hs, Option.isNone_none, Bool.not_false, and_self, if_true]

end Counters

/-- Settles O15: the three atomics differ only in the new word and in the compare. -/
theorem hostCounters : Obligations.HostCounters := by
  unfold Obligations.HostCounters
  intro rest
  refine ⟨?_, ?_, ?_, ?_, ?_⟩
  · intro s f i v k hf hk hl ho hr
    exact done_eq ((State.hostAtomic_reaches hf _ _).trans (State.hostCounter_performed true hk hl ho hr))
  · intro s f i v k hf hk h
    exact done_eq ((State.hostAtomic_reaches hf _ _).trans (State.hostCounter_refused true hk h))
  · intro s f i cmp new k hf hk hl ho hr
    refine done_eq ((State.hostAtomic_reaches hf _ _).trans ((State.hostCounter_performed _ hk hl ho hr).trans ?_))
    simp only [beq_iff_eq]
  · intro s f i new k hf hk hl ho hr
    exact done_eq ((State.hostAtomic_reaches hf _ _).trans (State.hostCounter_performed true hk hl ho hr))
  · intro s i k hk hd hr hs
    exact done_eq (State.counterFree_reclaimed hk hd hr hs)

end Sys2Proof.Machine

/-! ## Ends of queues and contexts (R162, R179, R181, R182, R184, R185, R523) -/

namespace Sys2Proof.Machine

section Ends

variable {s : State} {c : CtxId} {q : QIdx} {x : Resetting} {y : Ctx}

/-- Once all that a queue issued has ended, its reset takes its last steps. -/
theorem State.resetDrained_finishes (hx : (s.queue c q).resetting = some x) (hd : s.queueDrained c q = true)
    (hu : s.unreset c q = []) (ho : s.resetsOut c q = false) :
    s.resetDrained c q = ((s.resetFinish c q x).replyTo x.replyTo 0).tearStep c := by
  simp only [State.resetDrained, hx, hd, hu, ho, Bool.not_true, Bool.false_eq_true, if_false]

theorem State.replyTo_none (s : State) (code : DWord) : s.replyTo none code = s := rfl

/-- The reset of a queue without a discarded event and without a held TAIL clears its record. -/
theorem State.resetFinish_clears (he : s.discardedEvent c q = none) (hd : x.destroy = false)
    (ht : (s.queue c q).heldTail = none) :
    let u := (s.dropReqs (fun k => k.ctx == c && k.queue == some q)).lkAbandon (ownerQueue c q)
    let tx := u.ofp.tx.filter (fun f => !((s.queue c q).wrote.map (s.queueFlow c q)).contains f.key)
    s.resetFinish c q x = ({ u with ofp := { u.ofp with tx := tx } } : State).updQ c q Queue.cleared := by
  simp only [State.resetFinish, he, hd, ht, Bool.false_eq_true, if_false]

theorem State.tagSweepDone_undefines (hy : s.ctx? c = some y) (ht : y.teardown = .sweep) (hw : y.recWait = []) :
    let u := s.freeTree y.s1root.toNat
    let clear (e : Nat × LineMeta) : Nat × LineMeta := (e.1, if e.2.tag = c then { e.2 with tag := 0, owned := false } else e.2)
    let w := match u.sec.sweep with
      | some w => if w.ctx = c then none else some w
      | none => none
    s.tagSweepDone c = ({ u with
      mem := { u.mem with lines := (u.mem.lines.map clear).filter (fun e => e.2 != {}) }
      xlt := { u.xlt with
        seqs := u.xlt.seqs.filter (fun e => e.2.ctx != c)
        counters := u.xlt.counters.filter (fun e => e.2.ctx != c || e.2.st != 1)
        faultQs := u.xlt.faultQs.filter (fun e => e.2.ctx != c) }
      sec := { u.sec with
        gens := u.sec.gens.put c.toNat (y.gen + 1)
        sweep := w
        sweepQ := u.sec.sweepQ.filter (fun k => k != c)
        regs := u.sec.regs.filter (fun e => e.2.ctx != c) }
      dqe := { u.dqe with attachBan := u.dqe.attachBan.del c.toNat }
      ctxs := u.ctxs.del c.toNat } : State).vdevCheck y.vdix := by
  have hswept : ¬ (y.teardown ≠ .sweep ∨ (!y.recWait.isEmpty) = true) := by simp [ht, hw]
  unfold State.tagSweepDone
  simp only [hy]
  exact if_neg hswept

theorem State.abortTimeout_lapses {m : List PkgId} {b : DWord} (hy : s.ctx? c = some y) (ht : y.teardown = .abort m b)
    (hb : 20000000 ≤ s.since b) :
    s.abortTimeout c = s.updCtx c (fun z => { z with teardown := .abort [] b }) := by
  simp only [State.abortTimeout, hy, ht]
  exact if_pos hb

theorem State.abortFinal_ends {b : DWord} (hy : s.ctx? c = some y) (ht : y.teardown = .abort [] b) :
    let mine := (s.xlt.counters.filter (fun e => e.2.ctx == c)).map Prod.fst
    let s1 : State := { s with xlt := { s.xlt with counters := s.xlt.counters.filter (fun e => e.2.ctx != c),
                                                   reclaim := s.xlt.reclaim.filter (fun e => !mine.contains e.1) } }
    let left := (s.xlt.reclaim.filter (fun e => mine.contains e.1)).foldl (fun r e => r.join e.2) ({} : Released)
    s.abortFinal c = ((s1.endRecord c).releasedDone left).undefineStart c := by
  simp only [State.abortFinal, hy, ht]

theorem State.orphanExpire_due (hy : s.ctx? c = some y) (ho : y.orph = true) (ht : s.reached y.orphend = true) :
    s.orphanExpire c = s.tearDown c := by
  simp only [State.orphanExpire, hy, ho, ht, Bool.and_self, if_true]

/-- A context of one package that is in no teardown loses the host's references and is destroyed. -/
theorem State.tearDown_local (hy : s.ctx? c = some y) (hm : (s.vdev y.vdix).grant.multi = false) (ht : y.teardown = .none) :
    s.tearDown c = ({ s with xlt := { s.xlt with counters := s.xlt.counters.map (fun e =>
      (e.1, if e.2.ctx = c ∧ e.2.st = 1 then { e.2 with href := 0 } else e.2)) } } : State).destroyStart c none := by
  simp only [State.tearDown, hy, hm, ht, Bool.false_eq_true, if_false, if_true]

theorem exec_attachLockoutExpire_due {b : DWord} (hb : s.dqe.attachBan.look c.toNat = some b) (ht : s.reached b = true) :
    exec (.attachLockoutExpire c) s =
      .next ({ s with dqe := { s.dqe with attachBan := s.dqe.attachBan.del c.toNat } } : State).settle :=
  done_eq (by simp only [hb, ht, if_true])

end Ends

/-- Settles O16: each command's premises are the ones under which its end takes place. -/
theorem contextsEnd : Obligations.ContextsEnd := by
  refine ⟨?_, ?_, ?_, ?_, ?_, ?_⟩
  · intro s c q x y hy _ hx hd hu ho he hdes hrep hheld u tx cleared
    have hq := State.queue_of_ctx q hy
    rw [← hq] at hx hheld
    have hfin := State.resetFinish_clears he hdes hheld
    refine done_eq ((State.resetDrained_finishes hx hd hu ho).trans ?_)
    rw [hrep, State.replyTo_none, hfin, hq]
    rfl
  · intro s c x hx ht hw u clear w
    exact done_eq (State.tagSweepDone_undefines hx ht hw)
  · intro s c x m b hx ht hb
    exact done_eq (State.abortTimeout_lapses hx ht hb)
  · intro s c x b hx ht mine s1 left
    exact done_eq (State.abortFinal_ends hx ht)
  · intro s c x hx ho hend hm ht
    exact done_eq ((State.orphanExpire_due hx ho (State.reached_of_le hend)).trans (State.tearDown_local hx hm ht))
  · intro s c b hb ht
    exact exec_attachLockoutExpire_due hb (State.reached_of_le ht)

end Sys2Proof.Machine

/-! ## Functions and their resets (R182, R183, R414 to R416) -/

namespace Sys2Proof.Machine

section Functions

variable {s : State} {f : FnId}

/-- The reset of a function that stays in being. -/
theorem State.fnReset_stays (s : State) (f : FnId) :
    s.fnReset f true = ((((s.fnStop f).fnClear f true).rstCause 5 4 f.toNat).reattach f).emit (.frs f) := by
  simp only [State.fnReset, if_true]

theorem State.flr_function (hp : (s.fn f).present = true) (hf : s.isPf f = false) : s.flr f = s.fnReset f true := by
  simp only [State.flr, hp, hf, forAll, List.foldl_nil, Bool.not_true, Bool.false_eq_true, if_false]

theorem State.flr_physical (hp : (s.fn f).present = true) (hf : s.isPf f = true) :
    s.flr f = (forAll (s.vfsOf f) s (fun t v => t.fnReset v false)).fnReset f true := by
  simp only [State.flr, hp, hf, Bool.not_true, Bool.false_eq_true, if_false, if_true]

theorem State.vfEnable_brings {n : Nat} (hf : s.isPf f = true) (hp : (s.fn f).present = true) (hv : (s.fn f).vfEnable = false)
    (h0 : 0 < n) (hn : n ≤ s.vfMax (s.fnLink f)) :
    let u := s.updFn f (fun x => { x with vfEnable := true, numVfs := n })
    s.vfEnable f n = forAll (u.vfsOf f) u (fun t v =>
      (t.updFn v (fun y => { y with present := true, ready := true })).emit (.frs v)) :=
  if_neg (by simp [hf, hp, hv, Nat.ne_of_gt h0, hn])

theorem State.vfDisable_enabled (hv : (s.fn f).vfEnable = true) :
    s.vfDisable f = (forAll (s.vfsOf f) s (fun t v => t.fnReset v false)).updFn f (fun x =>
      { x with vfEnable := false, numVfs := 0 }) :=
  if_neg (by simp [hv])

theorem State.vfMseClear_set (hv : (s.fn f).vfMse = true) :
    s.vfMseClear f = (forAll (s.vfsOf f) s (fun t v => t.fnReset v true)).updFn f (fun x => { x with vfMse := false }) :=
  if_neg (by simp [hv])

theorem State.bmeClear_set (hb : (s.fn f).bme = true) :
    let u := (s.updFn f (fun x => { x with bme := false })).orphan (fun x => x.func == f)
    s.bmeClear f = forAll ((u.reqs.filter (fun r => u.atFn f r && !r.out)).map Req.id) u (fun t i =>
      t.failReq i Code.hostPathFailed 0) :=
  if_neg (by simp [hb])

theorem State.bmeSet_clear (hb : (s.fn f).bme = false) (hp : (s.fn f).present = true) :
    s.bmeSet f = ((s.updFn f (fun x => { x with bme := true })).reattach f).relaunch :=
  if_neg (by simp [hb, hp])

end Functions

/-- Settles O29: each command's premises are the ones under which its effect takes place. -/
theorem hostFunctions : Obligations.HostFunctions := by
  refine ⟨?_, ?_, ?_, ?_, ?_, ?_, ?_⟩
  · intro s f hp hf
    exact done_eq ((State.flr_function hp hf).trans (State.fnReset_stays s f))
  · intro s f hp hf
    exact done_eq (State.flr_physical hp hf)
  · intro s f n hf hp hv h0 hn u
    exact done_eq (State.vfEnable_brings hf hp hv h0 hn)
  · intro s f hv
    exact done_eq (State.vfDisable_enabled hv)
  · intro s f hv
    exact done_eq (State.vfMseClear_set hv)
  · intro s f hb u
    exact done_eq (State.bmeClear_set hb)
  · intro s f hb hp
    exact done_eq (State.bmeSet_clear hb hp)

end Sys2Proof.Machine

/-! ## Instructions that write their queue (R190, R206 to R214, R227 to R230) -/

namespace Sys2Proof

open Machine

section Retires

variable {s t : State} {c : CtxId} {q : QIdx} {op : Nat} {x : JIn}

/-- An instruction that writes fields of its queue does so in the state after its fetch, and HEAD passes it. -/
theorem Issues.writesQueue (h : Issues s c q op x t) (f : JIn → Queue → Queue) :
    done (s.issue c q (opcIs op) (queueBody f)) = .next (((t.countIssue c q).updQ c q (f x)).advance c q x.w).settle :=
  h.answers rfl

/-- An integer instruction with flags writes one register and FLAGS, both from one result. -/
theorem Issues.writesRegAndFlags (h : Issues s c q op x t) (o : Nat → Bool → Bool → Byte → DWord → DWord → IntRes) :
    done (s.issue c q (opcIs op) (flagBody o)) = .next (((t.countIssue c q).updQ c q (fun r =>
      { r.setG (J.rd x.w) (o (J.wid x.w) (J.sg x.w) (J.sat x.w) r.flags x.aVal x.bVal).val with
        flags := (o (J.wid x.w) (J.sg x.w) (J.sat x.w) r.flags x.aVal x.bVal).flags })).advance c q x.w).settle :=
  h.writesQueue _

/-- An integer instruction without flags writes one register. -/
theorem Issues.writesReg (h : Issues s c q op x t) (o : Nat → Bool → DWord → DWord → DWord) :
    done (s.issue c q (opcIs op) (plainBody o)) = .next (((t.countIssue c q).updQ c q (fun r =>
      r.setG (J.rd x.w) (o (J.wid x.w) (J.sg x.w) x.aVal x.bVal))).advance c q x.w).settle :=
  h.writesQueue _

end Retires

end Sys2Proof

namespace Sys2Proof.Machine

/-! Bodies with checks of their own, once these pass. -/

section Bodies

variable {s : State} {c : CtxId} {q : QIdx} {x : JIn}

/-- A branch goes to a target within the ring behind TAIL. -/
theorem branchBody_taken {target : JIn → Word} (link : Bool) (ht : (x.q.tail - target x).toNat ≤ 2 ^ x.q.lsize) :
    branchBody target link c q x s = some (s.updQ c q (fun r =>
      { (if link then r.setG (J.rd x.w) (BitVec.ofNat 64 (r.head + BitVec.ofNat 32 (J.words x.w)).toNat) else r) with
        head := target x })) := by
  have hok : x.q.targetOk (target x) = true := decide_eq_true ht
  simp only [branchBody, hok, Bool.not_true, Bool.false_eq_true, if_false]

/-- A division that TRAPDZ does not stop. -/
theorem divBody_divides (write : Nat → DWord × DWord × Byte → Queue → Queue)
    (hz : srcNat (J.wid x.w) x.bVal ≠ 0 ∨ flagBit x.q.flags Fl.trapdz = false) :
    let o := divOp (J.wid x.w) (J.sg x.w) (J.sat x.w) x.q.flags x.aVal x.bVal
    divBody write c q x s = some ((s.updQ c q (fun r => { write (J.rd x.w) o r with flags := o.2.2 })).advance c q x.w) :=
  if_neg fun htrap => hz.elim (fun hb => hb htrap.1) (fun hf => Bool.false_ne_true (hf.symm.trans htrap.2))

theorem minOp_eq_min (w : Nat) (sg : Bool) (a b : DWord) :
    minOp w sg a b = extend w sg (min (srcInt w sg a) (srcInt w sg b)) := by
  rw [minOp, min_comm, min_def_lt]

theorem maxOp_eq_max (w : Nat) (sg : Bool) (a b : DWord) :
    maxOp w sg a b = extend w sg (max (srcInt w sg a) (srcInt w sg b)) := by
  rw [maxOp, max_def_lt]

/-- An INLINE operand that ends within the payload. -/
theorem inlineOver_within {w imm n : Nat} (hl : fld imm 7 0 + n ≤ 32 * J.xc w) : inlineOver w imm n = false :=
  decide_eq_false (Nat.not_lt.mpr hl)

theorem movBody_value (ha : J.ama x.w ≠ amInline) :
    movBody c q x s = some ((s.updQ c q (fun r =>
      r.setG (J.rd x.w) (extend (J.wid x.w) (J.sg x.w) (srcNat (J.wid x.w) x.aVal : Nat)))).advance c q x.w) := by
  simp only [movBody, ha, false_and, if_false, queueBody]

theorem movBody_inline (ha : J.ama x.w = amInline) (hl : fld (J.imm0 x.w) 7 0 + J.wid x.w / 8 ≤ 32 * J.xc x.w) :
    movBody c q x s = some ((s.updQ c q (fun r => r.setG (J.rd x.w) (extend (J.wid x.w) (J.sg x.w) (srcNat (J.wid x.w)
      (BitVec.ofNat 64 (leVal ((x.pay.drop (fld (J.imm0 x.w) 7 0)).take (J.wid x.w / 8)))) : Nat)))).advance c q x.w) := by
  simp only [movBody, ha, inlineOver_within hl, Bool.false_eq_true, and_false, if_false, if_true, queueBody, JIn.inline]

end Bodies

/-- Settles O1: an instruction writes its queue and retires, and a branch within the ring is taken. -/
theorem controlAndPredicates : Obligations.ControlAndPredicates := by
  refine ⟨?_, ?_, ?_, ?_, ?_, ?_, ?_, ?_⟩
  · intro s t c q x h
    exact h.answers rfl
  · intro s t c q x h target ht
    exact h.answers (branchBody_taken false ht)
  · intro s t c q x h target ht
    exact h.answers (branchBody_taken false ht)
  · intro s t c q x h target ht
    exact h.answers (branchBody_taken true ht)
  · intro s t c q x h
    exact h.writesQueue _
  · intro s t c q x h
    exact h.writesQueue _
  · intro s t c q x h
    exact h.writesQueue _
  · intro s t c q x h
    exact h.writesQueue _

/-- Settles O2: one shape for the instructions with one result, and division where TRAPDZ does not stop it. -/
theorem integerWithFlags : Obligations.IntegerWithFlags := by
  unfold Obligations.IntegerWithFlags
  intro retires
  refine ⟨?add, ?adc, ?sub, ?sbb, ?neg, ?mul, ?div, ?rem⟩
  case div =>
    intro s t c q x h hz o
    exact h.answers (divBody_divides _ hz)
  case rem =>
    intro s t c q x h hz o
    exact h.answers (divBody_divides _ hz)
  all_goals
    intro s t c q x h
    exact h.writesRegAndFlags _

/-- Settles O3: one shape for the instructions that write one register; CMP writes a predicate, MOV has an INLINE form, and MIN
and MAX are the library's. -/
theorem integerWithoutFlags : Obligations.IntegerWithoutFlags := by
  unfold Obligations.IntegerWithoutFlags
  intro retires
  refine ⟨?mulh, ?and, ?or, ?xor, ?shl, ?shr, ?sar, ?rol, ?ror, ?min, ?max, ?cmp, ?mov, ?movInline, ?lea, ?popc, ?clz⟩
  case min =>
    intro s t c q x h
    rw [← minOp_eq_min]
    exact h.writesReg _
  case max =>
    intro s t c q x h
    rw [← maxOp_eq_max]
    exact h.writesReg _
  case cmp =>
    intro s t c q x h
    exact h.writesQueue _
  case mov =>
    intro s t c q x h ha
    exact h.answers (movBody_value ha)
  case movInline =>
    intro s t c q x h ha hl
    exact h.answers (movBody_inline ha hl)
  case lea =>
    intro s t c q x h
    exact h.writesQueue _
  all_goals
    intro s t c q x h
    exact h.writesReg _

end Sys2Proof.Machine

/-! ## CVT and ADMIT (R233, R234, R264) -/

namespace Sys2Proof.Machine

section Bodies

variable {s : State} {c : CtxId} {q : QIdx} {x : JIn}

/-- The free values that a queue's source of random values goes on from are the state's. -/
theorem State.seRng_free (s : State) (c : CtxId) (q : QIdx) (seq : Word) : (s.seRng c q seq).free = s.free := by
  unfold State.seRng
  split <;> rfl

/-- A CVT that does not round stochastically draws nothing. -/
theorem cvtBody_undrawn :
    let cv := cvOf (fld (J.imm2 x.w) 55 40)
    let o := cvtScalar cv x.aVal.toNat 0
    cv.rnd ≠ 4 →
    cvtBody c q x s = some ((s.updQ c q (fun r =>
      { r.setG (J.rd x.w) (cvtFill cv.dst o.1) with
        flags := stick (stick (stick r.flags Fl.unf o.2.unf) Fl.ovf o.2.ovf) Fl.inv o.2.inv })).advance c q x.w) := by
  intro cv o hr
  have hkeep : ({ s with free := (s.seRng c q x.q.head).free } : State) = s := by rw [State.seRng_free]
  simp only [cv] at hr
  simp only [cvtBody, hr, decide_false, Bool.false_and, Rng.next, Bool.not_false, if_true, hkeep, cv, o]

/-- A stochastic CVT draws for its rounding where the destination's format needs it. -/
theorem cvtBody_drawn :
    let cv := cvOf (fld (J.imm2 x.w) 55 40)
    let draws := !cv.same && cv.dst.draws (cv.src.decode 0 (x.aVal.toNat % 2 ^ cv.src.bits))
    let g := (s.seRng c q x.q.head).next 0 draws
    let o := cvtScalar cv x.aVal.toNat g.1
    cv.rnd = 4 →
    cvtBody c q x s = some ((({ s with free := g.2.free } : State).updQ c q (fun r =>
      { r.setG (J.rd x.w) (cvtFill cv.dst o.1) with
        flags := stick (stick (stick r.flags Fl.unf o.2.unf) Fl.ovf o.2.ovf) Fl.inv o.2.inv })).advance c q x.w) := by
  intro cv draws g o hr
  simp only [cv] at hr
  simp only [cvtBody, hr, decide_true, Bool.true_and, cv, draws, g, o]

/-- ADMIT answers PCR's code; under MOD[0] its event is one of the context's, and a refusal errors it. -/
theorem admitBody_inRange (he : (J.md x.w).testBit 0 = true → fld (J.imm2 x.w) 15 0 < s.eventsOf c) :
    let r := s.pcrAdmit c q x.q.head x.aVal x.bVal
    admitBody c q x s = some ((if r.1 = 3 ∧ (J.md x.w).testBit 0 then
      r.2.attachEvent c q (fld (J.imm2 x.w) 15 0) Code.refusedAdmission x.q.head else r.2).result c q x.w r.1 none) :=
  if_neg fun hout => Nat.not_le.mpr (he hout.1) hout.2

end Bodies

/-- Settles O4: FLAGS and pacing write one field of the queue, CVT draws under stochastic rounding alone, and ADMIT's event is in
range. -/
theorem flagsConvertPacing : Obligations.FlagsConvertPacing := by
  refine ⟨?_, ?_, ?_, ?_, ?_, ?_, ?_, ?_⟩
  · intro s t c q x h
    exact h.writesQueue _
  · intro s t c q x h m
    exact h.writesQueue _
  · intro s t c q x h hr cv o
    exact h.answers (cvtBody_undrawn hr)
  · intro s t c q x h hr cv draws g o
    exact h.answers (cvtBody_drawn hr)
  · intro s t c q x h
    exact h.answers rfl
  · intro s t c q x h d
    exact h.answers rfl
  · intro s t c q x h
    exact h.answers rfl
  · intro s t c q x h he r
    exact h.answers (admitBody_inRange he)

end Sys2Proof.Machine

/-! ## Scalar accesses (R77, R183, R203, R235, R236, R335) -/

namespace Sys2Proof.Machine

/-- The conditions under which a scalar access of `n` bytes begins: a valid TOKEN operand, a natural alignment, no earlier access
to the same bytes and no stall. -/
def ScalarGoes (s : State) (c : CtxId) (q : QIdx) (x : JIn) (n : Nat) : Prop :=
  x.aTokenFault c = none ∧ x.aDva.toNat % n = 0 ∧ s.overlaps c q x.aDva.toNat n = false ∧ s.stallFor c x.aDva.toNat = false

section Bodies

variable {s : State} {c : CtxId} {q : QIdx} {x : JIn}

/-- A scalar access that begins becomes a request of its queue, and HEAD passes the instruction. -/
theorem scalarBody_requests {n : JIn → Nat} (rd wr : Bool) (flag : JIn → Bool) (p : JIn → Purpose)
    (h : ScalarGoes s c q x (n x)) :
    scalarBody n rd wr flag p c q x s =
      some ((s.threadReq c q x x.aDva (n x) rd wr (flag x && !s.relaxedQ c q) (p x)).2.advance c q x.w) := by
  obtain ⟨htoken, haligned, hfirst, hruns⟩ := h
  simp only [scalarBody, htoken, haligned, hfirst, hruns, ne_eq, not_true_eq_false, Bool.false_eq_true, if_false]

theorem storeData_value (hb : J.amb x.w ≠ amInline) : storeData x = leBytes (scalarLen x) x.bVal.toNat := if_neg hb

theorem storeData_inline (hb : J.amb x.w = amInline) :
    storeData x = (x.pay.drop (fld (J.imm1 x.w) 7 0)).take (scalarLen x) := if_pos hb

/-- A STORE whose operand, if it is INLINE, ends within the payload. -/
theorem storeBody_requests (h : ScalarGoes s c q x (scalarLen x))
    (hl : J.amb x.w = amInline → fld (J.imm1 x.w) 7 0 + scalarLen x ≤ 32 * J.xc x.w) :
    storeBody c q x s = some ((s.threadReq c q x x.aDva (scalarLen x) false true
      ((J.md x.w).testBit 4 && !s.relaxedQ c q) (.store (storeData x))).2.advance c q x.w) := by
  have hin : ¬ (J.amb x.w = amInline ∧ inlineOver x.w (J.imm1 x.w) (scalarLen x) = true) := fun ho =>
    Bool.false_ne_true ((inlineOver_within (hl ho.1)).symm.trans ho.2)
  rw [storeBody, if_neg hin]
  exact scalarBody_requests false true _ _ h

end Bodies

end Sys2Proof.Machine

namespace Sys2Proof

open Machine

/-- The word of an ATOM with an operation is that row's. -/
theorem Issues.mine_atom {s t : State} {c : CtxId} {q : QIdx} {x : JIn} {k : Nat} (h : Issues s c q 0x42 x t)
    (hk : fld (J.imm2 x.w) 2 0 = k) : atomIs k x.w = true := by
  simp [atomIs, h.opcode, hk]

/-- Each operation of ATOM makes the same request, under its own code. -/
theorem Issues.requestsAtom {s t : State} {c : CtxId} {q : QIdx} {x : JIn} {k : Nat} (h : Issues s c q 0x42 x t)
    (hg : ScalarGoes (t.countIssue c q) c q x (scalarLen x)) (hk : fld (J.imm2 x.w) 2 0 = k) :
    done (s.issue c q (atomIs k) atomBody) = .next (((t.countIssue c q).threadReq c q x x.aDva (scalarLen x) true true false
      (.atom (BitVec.ofNat 5 (J.rd x.w)) (BitVec.ofNat 3 k) (J.sg x.w) x.bVal x.cVal)).2.advance c q x.w).settle := by
  subst hk
  refine done_eq ?_
  rw [h.issue _ (h.mine_atom rfl), atomBody, scalarBody_requests _ _ _ _ hg, Option.getD_some]
  rfl

end Sys2Proof

namespace Sys2Proof.Machine

/-- Settles O5: each instruction is a scalar access with its own length, directions and purpose. -/
theorem scalarAccesses : Obligations.ScalarAccesses := by
  unfold Obligations.ScalarAccesses
  intro ready request atom
  refine ⟨?load, ?store, ?storeInline, ?_, ?_, ?_, ?_, ?_, ?_, ?_, ?_, ?batonGive⟩
  case load =>
    intro s t c q x h hg
    exact h.answers (scalarBody_requests true false _ _ hg)
  case store =>
    intro s t c q x h hg hb
    refine h.answers ((storeBody_requests hg fun hi => absurd hi hb).trans ?_)
    rw [storeData_value hb]
    rfl
  case storeInline =>
    intro s t c q x h hg hb hl
    refine h.answers ((storeBody_requests hg fun _ => hl).trans ?_)
    rw [storeData_inline hb]
    rfl
  case batonGive =>
    intro s t c q x h hg
    exact h.answers (scalarBody_requests false true _ _ hg)
  all_goals
    intro s t c q x h hg hk
    exact h.requestsAtom hg hk

end Sys2Proof.Machine

/-! ## Locks of LKT (R255, R512, R515, R516) -/

namespace Sys2Proof.Machine

theorem Map.look_del_other {α : Type} (m : Map α) (n k : Nat) (h : k ≠ n) : (m.del n).look k = m.look k := by
  induction m with
  | nil => rfl
  | cons p m ih =>
    obtain ⟨j, w⟩ := p
    by_cases hj : n = j
    · subst hj
      simp [Map.del, Map.look, h]
    · simp [Map.del, Map.look, hj, ih]

theorem Map.look_set_other {α : Type} (m : Map α) (n k : Nat) (v : Option α) (h : k ≠ n) : (m.set n v).look k = m.look k := by
  cases v with
  | none => exact Map.look_del_other m n k h
  | some v => exact Map.look_put_other m n k v h

section Locks

variable {s : State} {k : Nat} {w : LockOwner}

/-- A lock that is given a state has it. -/
@[simp] theorem State.lock_setLock_self (s : State) (k : Nat) (v : LockSt) : (s.setLock k (some v)).lock k = some v :=
  Map.look_put_self _ _ _

theorem State.lock_setLock_other (s : State) {j k : Nat} (v : Option LockSt) (h : j ≠ k) : (s.setLock k v).lock j = s.lock j :=
  Map.look_set_other _ _ _ v h

/-- The answer to an owner that waited changes no lock. -/
@[simp] theorem State.lkReply_lkt (s : State) (w : LockOwner) (v : DWord) : (s.lkReply w v).lkt = s.lkt := by
  unfold State.lkReply
  split
  · split
    · exact State.retireWait_lkt _ _ _ _ _
    · rfl
  · exact State.updCore_lkt _ _ _
  · rfl

/-- A try takes a free lock with code 0. -/
theorem State.lkTry_free (h : s.lock k = none) : s.lkTry k w = (0, s.setLock k (some (.held w))) := by
  simp only [State.lkTry, h]

/-- A try takes an abandoned lock with code 4. -/
theorem State.lkTry_abandoned (h : s.lock k = some .abandoned) : s.lkTry k w = (4, s.setLock k (some (.held w))) := by
  simp only [State.lkTry, h]

/-- A try of a held lock only says whether the caller holds it. -/
theorem State.lkTry_held {o : LockOwner} (h : s.lock k = some (.held o)) :
    s.lkTry k w = (if o.same w then 6 else 5, s) := by
  simp only [State.lkTry, h]
  split <;> rfl

/-- A lock that nobody waits for stays as it is. -/
theorem State.lkGrant_unawaited (h : s.lkt.waiters.find? (fun y => y.lk == k) = none) : s.lkGrant k = s := by
  simp only [State.lkGrant, h]

/-- A grant makes the first waiter the owner, and changes no other lock. -/
theorem State.lock_lkGrant {x : LkWaiter} (h : s.lkt.waiters.find? (fun y => y.lk == k) = some x) (j : Nat) :
    (s.lkGrant k).lock j = (s.setLock k (some (.held x.who))).lock j := by
  simp only [State.lkGrant, h, State.lock, State.lkReply_lkt]

theorem State.lock_lkGrant_other (s : State) {j k : Nat} (hj : j ≠ k) : (s.lkGrant k).lock j = s.lock j := by
  cases h : s.lkt.waiters.find? (fun y => y.lk == k) with
  | none => rw [State.lkGrant_unawaited h]
  | some x => rw [State.lock_lkGrant h, s.lock_setLock_other _ hj]

/-- The owner's release frees the lock and grants it on. -/
theorem State.lkRel_owner {o : LockOwner} (h : s.lock k = some (.held o)) (ho : o.same w = true) :
    s.lkRel k w = (0, (s.setLock k none).lkGrant k) := by
  simp only [State.lkRel, h, ho, if_true]

/-- A release by anyone else changes nothing. -/
theorem State.lkRel_other (h : ∀ o, s.lock k = some (.held o) → o.same w = false) : s.lkRel k w = (7, s) := by
  unfold State.lkRel
  split
  · next o ho => rw [h o ho, if_neg Bool.false_ne_true]
  · rfl

end Locks

/-- Settles O58: a try by the lock's three states, and a release by whether the caller is the owner. -/
theorem lockOwnership : Obligations.LockOwnership := by
  refine ⟨?_, ?_, ?_⟩
  · intro s k w r
    cases h : s.lock k with
    | none =>
      have hr : r = (0, s.setLock k (some (.held w))) := State.lkTry_free h
      simp +contextual [hr, State.lock_setLock_other]
    | some l =>
      cases l with
      | abandoned =>
        have hr : r = (4, s.setLock k (some (.held w))) := State.lkTry_abandoned h
        simp +contextual [hr, State.lock_setLock_other]
      | held o =>
        have hr : r = (if o.same w then 6 else 5, s) := State.lkTry_held h
        cases ho : o.same w <;> simp [hr, ho]
  · intro s k w h
    exact State.lkRel_other h
  · intro s k w o h ho
    rw [State.lkRel_owner h ho]
    refine ⟨rfl, ?_, ?_, ?_⟩
    · intro x hx
      exact (State.lock_lkGrant (s := s.setLock k none) hx k).trans (State.lock_setLock_self _ _ _)
    · intro hx
      exact State.lkGrant_unawaited hx
    · intro j hj
      exact (State.lock_lkGrant_other _ hj).trans (s.lock_setLock_other none hj)

end Sys2Proof.Machine

/-! ## HURDLE (R248) -/

namespace Sys2Proof.Machine

/-- A queue that waits at a hurdle goes on once the accesses before its mark have completed. -/
theorem State.hurdleRelease_clear {s : State} {c : CtxId} {q : QIdx} {m : BitVec 3} {after : AfterHurdle} {mark : Nat}
    (hw : (s.queue c q).wait = some (.hurdle m after mark)) (ha : (s.queue c q).state = .active) (hr : s.resident c = true)
    (hc : s.hurdleClear c q m mark = true) : s.hurdleRelease c q = s.hurdleEnd c q after := by
  simp only [State.hurdleRelease, hw, ha, hr, hc, beq_self_eq_true, Bool.and_self, if_true]

/-- Settles O7: the instruction and its release end one hurdle. -/
theorem hurdles : Obligations.Hurdles := by
  refine ⟨?_, ?_, ?_⟩
  · intro s t c q x h u m w
    exact h.answers (hurdleBody_eq _ _ c q x u)
  · intro s c q m mark hw ha hr hc
    exact done_eq (State.hurdleRelease_clear hw ha hr hc)
  · intro s c q m mark e hw ha hr hc
    exact done_eq (State.hurdleRelease_clear hw ha hr hc)

end Sys2Proof.Machine

/-! ## LOCK.TRY, LOCK.ACQ and LOCK.REL (R255, R515, R516) -/

namespace Sys2Proof.Machine

section Bodies

variable {s : State} {c : CtxId} {q : QIdx} {x : JIn}

/-- The owner that a queue's lock instruction names. -/
def queueOwner (s : State) (c : CtxId) (q : QIdx) : LockOwner := .queue c q (initId (s.threadOf c))

/-- A lock instruction that does not wait retires with the code of its try. -/
theorem lockBody_tries {wait : Bool} {v : DWord} {t : State} (hin : s.lockIn c (lockOf x) = true)
    (hr : s.runs Blk.lkt = true) (ht : s.lkTry (lockOf x) (queueOwner s c q) = (v, t)) (hw : v = 5 → wait = false) :
    lockBody wait c q x s = some (t.result c q x.w v none) := by
  have hnow : ¬ (v = 5 ∧ wait = true) := fun h => Bool.false_ne_true ((hw h.1).symm.trans h.2)
  rw [queueOwner] at ht
  simp only [lockBody, hin, hr, ht, Bool.not_true, Bool.false_eq_true, if_false, if_neg hnow]

/-- LOCK.ACQ of a lock that another holds waits for it, where LKT has an entry for it. -/
theorem lockBody_waits (hin : s.lockIn c (lockOf x) = true) (hr : s.runs Blk.lkt = true)
    (hw : (s.lkTry (lockOf x) (queueOwner s c q)).1 = 5) (hroom : s.lkt.waiters.length < lkWaiterMax) :
    lockBody true c q x s = some (({ s with lkt := { s.lkt with waiters := s.lkt.waiters ++
      [{ lk := lockOf x, who := queueOwner s c q, limit := waitLimit x s.now }] } } : State).waitAt c q x.w
        (.lock (lockOf x) (BitVec.ofNat 5 (J.rd x.w)) (waitLimit x s.now))) := by
  simp only [queueOwner] at hw ⊢
  simp only [lockBody, hin, hr, hw, Nat.not_le.mpr hroom, and_self, Bool.not_true, Bool.false_eq_true, if_false,
    if_true]

theorem lockBody_outOfRange (wait : Bool) (hin : s.lockIn c (lockOf x) = false) :
    lockBody wait c q x s = some (s.result c q x.w 2 none) := by
  simp only [lockBody, hin, Bool.not_false, if_true]

/-- LOCK.REL of a lock in the range is a hurdle with the release behind it. -/
theorem lockRelBody_inRange (hin : s.lockIn c (lockOf x) = true) (hr : s.runs Blk.lkt = true) :
    lockRelBody c q x s =
      hurdleBody (fun _ => 0) (fun y => .lockRel (lockOf x) (BitVec.ofNat 5 (J.rd y.w))) c q x s := by
  simp only [lockRelBody, hin, hr, Bool.not_true, Bool.false_eq_true, if_false]

end Bodies

/-- Settles O10: the code and the new holder are those of one try, whose code 5 makes LOCK.ACQ wait. -/
theorem queueLocks : Obligations.QueueLocks := by
  unfold Obligations.QueueLocks
  intro code taken
  have htry (u : State) (k : Nat) (me : LockOwner) : u.lkTry k me = (code u k me, taken u k me) := by
    simp only [code, taken]
    cases h : u.lkt.locks.look k with
    | none => exact State.lkTry_free h
    | some l =>
      cases l with
      | abandoned => exact State.lkTry_abandoned h
      | held o => exact State.lkTry_held h
  refine ⟨?lockTry, ?acqTakes, ?acqWaits, ?lockRel, ?outOfRange⟩
  case lockTry =>
    intro s t c q x h u k me hin hr
    exact h.answers (lockBody_tries hin hr (htry u k me) fun _ => rfl)
  case acqTakes =>
    intro s t c q x h u k me hin hr hc
    exact h.answers (lockBody_tries hin hr (htry u k me) fun h5 => absurd h5 hc)
  case acqWaits =>
    intro s t c q x h u k me hin hr hc hroom
    exact h.answers (lockBody_waits hin hr ((congrArg Prod.fst (htry u k me)).trans hc) hroom)
  case lockRel =>
    intro s t c q x h u k w r hin hr
    exact h.answers ((lockRelBody_inRange hin hr).trans (hurdleBody_eq _ _ c q x u))
  case outOfRange =>
    intro s t c q x h u hin
    exact h.answers (lockBody_outOfRange false hin)

end Sys2Proof.Machine

/-! ## PROBE, TOUCH, MOVE and CONVERT (R203, R239 to R245, R365) -/

namespace Sys2Proof.Machine

/-- The conditions under which a MOVE or CONVERT becomes a descriptor: a length that is neither 0 nor beyond its range, an INLINE
source within the payload, valid TOKEN operands, a channel that its context may hold and no stall. -/
def MoveGoes (s : State) (c : CtxId) (q : QIdx) (x : JIn) : Prop :=
  (moveLen x ≠ 0 ∧ ((J.md x.w).testBit 1 = true → x.cVal.toNat < 2 ^ 40)) ∧
  (J.ama x.w = amInline → inlineOver x.w (J.imm0 x.w) ((moveDesc s.nextId c q x).srcBytes (moveLen x)) = false) ∧
  x.aTokenFault c = none ∧ x.bTokenFault c = none ∧ s.descsFull c = false ∧
  (J.ama x.w = amInline ∨ s.stallFor c x.aDva.toNat = false) ∧ s.stallFor c x.bDva.toNat = false

@[simp] theorem moveDesc_len (id : Nat) (c : CtxId) (q : QIdx) (x : JIn) : (moveDesc id c q x).len = moveLen x := rfl

section Bodies

variable {s : State} {c : CtxId} {q : QIdx} {x : JIn}

/-- PROBE writes the translation word of its address. -/
theorem probeBody_probe (hk : x.aTokenFault c = none) :
    probeBody false c q x s = some ((s.updQ c q (fun r =>
      r.setG (J.rd x.w) (BitVec.ofNat 64 (s.probeWord c x.aDva.toNat ((J.md x.w).testBit 0))))).advance c q x.w) := by
  simp only [probeBody, hk, Option.isSome_none, Bool.false_and, Bool.false_eq_true, if_false]

/-- TOUCH writes the same word, and starts the page's service. -/
theorem probeBody_touch (hk : x.aTokenFault c = none) :
    probeBody true c q x s = some (((s.touchPage c x.aDva ((J.md x.w).testBit 0)).updQ c q (fun r =>
      r.setG (J.rd x.w) (BitVec.ofNat 64 (s.probeWord c x.aDva.toNat ((J.md x.w).testBit 0))))).advance c q x.w) := by
  simp only [probeBody, hk, Option.isSome_none, Bool.not_false, Bool.and_self, Bool.false_eq_true, if_false, if_true]

/-- A MOVE or CONVERT that passes its checks sends its descriptor; a CONVERT's STATUS operand is aligned. -/
theorem moveBody_sends (h : MoveGoes s c q x) (ha : J.opc x.w = 0x49 → leVal (x.pay.take 8) % 16 = 0) :
    moveBody c q x s =
      some (({ s with nextId := s.nextId + 1 } : State).sendDesc c q x.w (moveDesc s.nextId c q x)) := by
  obtain ⟨⟨hlen, hrange⟩, hinline, hatoken, hbtoken, hroom, hastall, hbstall⟩ := h
  have h1 : ¬ (J.ama x.w = amInline ∧
      inlineOver x.w (J.imm0 x.w) ((moveDesc s.nextId c q x).srcBytes (moveLen x)) = true) := fun hi =>
    Bool.false_ne_true ((hinline hi.1).symm.trans hi.2)
  have h2 : ¬ (J.opc x.w = 0x49 ∧ leVal (x.pay.take 8) % 16 ≠ 0) := fun hm => hm.2 (ha hm.1)
  have h3 : ¬ ((J.md x.w).testBit 1 = true ∧ x.cVal.toNat ≥ 2 ^ 40) := fun hl => Nat.not_le.mpr (hrange hl.1) hl.2
  have h4 : ¬ (!decide (J.ama x.w = amInline) && s.stallFor c x.aDva.toNat || s.stallFor c x.bDva.toNat) = true := by
    rcases hastall with hs | hs <;> simp [hs, hbstall]
  simp only [moveBody, State.newId, moveDesc_len, if_neg h1, if_neg h2, if_neg h3, if_neg hlen, hatoken, hbtoken, hroom,
    if_neg h4, Bool.false_eq_true, if_false]

/-- A MOVE whose immediate length is 0 only passes. -/
theorem moveBody_empty (hop : J.opc x.w = 0x48) (ha : J.ama x.w ≠ amInline) (hm : (J.md x.w).testBit 1 = false)
    (hl : fld (J.imm2 x.w) 39 0 = 0) : moveBody c q x s = some (s.advance c q x.w) := by
  have hlen : moveLen x = 0 := by rw [moveLen, hm, if_neg Bool.false_ne_true, hl]
  have hop' : ¬ J.opc x.w = 0x49 := by rw [hop]; decide
  simp only [moveBody, State.newId, moveDesc_len, ha, hop', hm, hlen, false_and, Bool.false_eq_true, if_false, if_true]

end Bodies

/-- Settles O6: PROBE and TOUCH differ in the service alone, and MOVE and CONVERT in the alignment that CONVERT asks. -/
theorem probesAndMoves : Obligations.ProbesAndMoves := by
  unfold Obligations.ProbesAndMoves
  intro goes
  refine ⟨?probe, ?touch, ?move, ?convert, ?emptyMove⟩
  case probe =>
    intro s t c q x h hk u
    exact h.answers (probeBody_probe hk)
  case touch =>
    intro s t c q x h hk u
    exact h.answers (probeBody_touch hk)
  case move =>
    intro s t c q x h hg u
    exact h.answers (moveBody_sends hg fun hop => absurd (h.opcode.symm.trans hop) (by decide))
  case convert =>
    intro s t c q x h hg ha u
    exact h.answers (moveBody_sends hg fun _ => ha)
  case emptyMove =>
    intro s t c q x h ha hm hl
    exact h.answers (moveBody_empty h.opcode ha hm hl)

end Sys2Proof.Machine

/-! ## AGG (R246, R247, R292 to R298, R306, R309, R314) -/

namespace Sys2Proof

open Machine

/-- The word of an AGG with an operation is that row's. -/
theorem Issues.mine_agg {s t : State} {c : CtxId} {q : QIdx} {x : JIn} {k : Nat} (h : Issues s c q 0x50 x t)
    (hk : fld (J.md x.w) 2 0 = k) : aggIs k x.w = true := by
  simp [aggIs, h.mine, hk]

/-- An instruction that issues answers what its body makes, whatever test its row puts to its word. -/
theorem Issues.answersRow {s t u : State} {c : CtxId} {q : QIdx} {op : Nat} {x : JIn} {body : JBody} {mine : Nat → Bool}
    (h : Issues s c q op x t) (hm : mine x.w = true) (hb : body c q x (t.countIssue c q) = some u) :
    done (s.issue c q mine body) = .next u.settle :=
  done_eq (by rw [h.issue _ hm, hb, Option.getD_some])

end Sys2Proof

namespace Sys2Proof.Machine

/-- The descriptor by which a CLOSE carries its round's outcome. -/
def closeDesc (id : Nat) (c : CtxId) (q : QIdx) (x : JIn) : Desc :=
  { id := id, owner := .queue c q x.q.head, src := .inline [], dst := .inline [], len := 1
    agg := some { handle := aggHandle x, party := 64, first := 0, home := true } }

/-- The round that a CONTRIB names. -/
def contribHandle (x : JIn) : Word := BitVec.ofNat 32 x.bVal.toNat

/-- The conversion of a CONTRIB. -/
def contribConv (x : JIn) : BitVec 16 := BitVec.ofNat 16 (fld (J.imm2 x.w) 55 40)

/-- The descriptor of a CONTRIB with an INLINE source. -/
def contribDesc (id : Nat) (c : CtxId) (q : QIdx) (x : JIn) (home : Bool) (party cursor : Nat) : Desc :=
  { id := id, owner := .queue c q x.q.head, src := .inline (x.pay.drop (fld (J.imm0 x.w) 7 0)), dst := .inline []
    conv := some (contribConv x), len := contribLen x, bbit := (J.md x.w).testBit 3
    agg := some { handle := contribHandle x, party := party, first := cursor, home := home } }

section Bodies

variable {s : State} {c : CtxId} {q : QIdx} {x : JIn}

theorem aggOpenBody_opens (he : s.sec.entropy = true) (hr : s.runs Blk.map = true) :
    let r := s.aggOpen c x.aDva.toNat
    aggOpenBody c q x s = some (r.2.2.result c q x.w r.1 (some r.2.1)) := by
  simp only [aggOpenBody, he, hr, Bool.not_true, Bool.or_self, Bool.false_eq_true, if_false]

theorem aggJoinBody_home (ans : Option JoinAns) (hr : s.runs Blk.map = true) (hh : s.homeHere (aggHandle x) = true) :
    let r := s.roundJoin (aggHandle x) c q s.ownPkg
    aggJoinBody ans c q x s = some (r.2.2.result c q x.w r.1 (some (BitVec.ofNat 64 r.2.1))) := by
  simp only [aggJoinBody, hr, hh, Bool.not_true, Bool.false_eq_true, if_false, if_true]

theorem aggJoinBody_away (a : JoinAns) (hr : s.runs Blk.map = true) (hh : s.homeHere (aggHandle x) = false) :
    aggJoinBody (some a) c q x s = some ((s.joinAway (aggHandle x) c q a).result c q x.w
      (BitVec.ofNat 64 a.code.toNat) (some (BitVec.ofNat 64 a.party.toNat))) := by
  simp only [aggJoinBody, hr, hh, Bool.not_true, Bool.false_eq_true, if_false]

/-- A CONTRIB of whole stripes, or of the rest of its party's row, becomes a descriptor and advances the party's cursor. -/
theorem aggContribBody_sends {home : Bool} {party cursor total ls : Nat} (hi : J.ama x.w = amInline)
    (hpay : fld (J.imm0 x.w) 7 0 + (cvOf (contribConv x).toNat).src.spanBytes (contribLen x) ≤ 32 * J.xc x.w)
    (hn : contribLen x ≠ 0) (hmax : contribLen x < 2 ^ 40)
    (hp : s.partyOf (contribHandle x) c q = some (home, party, cursor, total, ls))
    (hm : s.roundMarked (contribHandle x) = false) (hfit : cursor + contribLen x ≤ total)
    (hwhole : contribLen x % 2 ^ ls = 0 ∨ cursor + contribLen x = total) (hk : x.aTokenFault c = none)
    (hroom : s.descsFull c = false) :
    aggContribBody c q x s =
      some ((s.newId.2.cursorTo (contribHandle x) c q home party (cursor + contribLen x)).sendDesc c q x.w
        (contribDesc s.nextId c q x home party cursor)) := by
  have hlen : ¬ ((J.md x.w).testBit 4 = true ∧ contribLen x ≥ 2 ^ 40) := fun h => Nat.not_le.mpr hmax h.2
  have halign : ¬ (cursor + contribLen x > total ∨ contribLen x % 2 ^ ls ≠ 0 ∧ cursor + contribLen x ≠ total) := by
    omega
  have hin := inlineOver_within hpay
  rw [contribConv] at hin
  rw [contribHandle] at hp hm
  simp only [aggContribBody, hi, hin, hn, if_neg hlen, hp, hm, if_neg halign, hk, hroom, decide_true, Bool.not_true,
    Bool.false_and, Bool.false_eq_true, and_false, if_false]
  rfl

/-- The first CLOSE of a round that has not ended takes the cutoff and carries the outcome. -/
theorem aggCloseBody_closes {slot : Nat} {r : Round} (hr : s.runs Blk.map = true)
    (ho : s.roundOf (aggHandle x) = some (slot, r)) (hc : r.ctx = c) (hn : r.closer = none) (hrel : r.st ≠ .released)
    (hfail : r.st ≠ .failed) :
    aggCloseBody c q x s = some ((({ s with nextId := s.nextId + 1, map := { s.map with
      descs := s.map.descs ++ [closeDesc s.nextId c q x]
      rounds := s.map.rounds.put slot { r with closer := some s.nextId } } } : State).cutoff slot).result c q x.w 0 none) := by
  simp only [aggCloseBody, hr, ho, hc, hn, hrel, hfail, ne_eq, not_true_eq_false, or_self, Option.isSome_none, Bool.not_true,
    Bool.false_eq_true, if_false]
  rfl

/-- A party of this home leaves at once where MAP sends nothing. -/
theorem aggLeaveBody_home {i cursor total ls : Nat} (hr : s.runs Blk.map = true)
    (hp : s.partyOf (aggHandle x) c q = some (true, i, cursor, total, ls)) (hd : s.map.descs = []) :
    aggLeaveBody c q x s = some ((s.partyLeave (aggHandle x) i).result c q x.w 0 none) := by
  simp only [aggLeaveBody, hr, hp, hd, List.any_nil, Bool.not_true, Bool.or_self, Bool.false_eq_true, if_false, if_true]

end Bodies

/-! Messages of other packages, and the life of a round. -/

section Rounds

variable {s : State} {r : Round}

theorem State.joinFrom_attested {p : PkgId} (h : Word) (c : CtxId) (q : QIdx) (hp : s.routeUp p ≠ []) :
    let r := s.roundJoin h c q p
    s.joinFrom p h c q = r.2.2.emit (.relay 13 { pkg := p, dev := true, ctx := c, gen := 0, queue := q } p h
      (BitVec.ofNat 64 (r.1.toNat + r.2.1 * 256)) [] false) := by
  have hup : (s.routeUp p).isEmpty = false := List.isEmpty_eq_false_iff.mpr hp
  simp only [State.joinFrom, hup, Bool.false_eq_true, if_false]

theorem State.leaveFrom_listed {p : PkgId} {h : Word} {c : CtxId} {slot i : Nat} (q : QIdx)
    (ho : s.roundOf h = some (slot, r)) (hi : r.listed c p = some i) :
    s.leaveFrom p h c q = s.updRound slot (fun r => r.updParty i (fun y =>
      if y.joined && y.queue == q && !y.dropped then y.drop else y)) := by
  simp only [State.leaveFrom, ho, hi]

/-- The next stripe of a party on another package goes into a buffer of the home. -/
theorem State.stripeAccept_remote {slot i k cl nn u : Nat} {ws : List DWord} {p : Party} (hr : s.map.rounds.look slot = some r)
    (hp : r.parties[i]? = some p) (hk : k < r.stripes) (hm : s.runs Blk.map = true) (hpkg : p.pkg ≠ s.ownPkg)
    (hw : ws.length = stripeLen r.n r.lstripe k) (hnext : k = p.commits) (ha : p.accepted = []) (hj : p.joined = true)
    (hd : p.dropped = false) (hmark : r.marked = 0) (hu : s.stripeUnit none = some u) :
    s.stripeAccept slot i k ws cl nn = s.stripeIn slot i { k := k, unit := u, words := ws, clamped := cl, nans := nn } := by
  have hfresh : ¬ (ws.length ≠ stripeLen r.n r.lstripe k ∨ k < p.commits ∨ (p.accepted.any (fun x => x.k == k)) = true) := by
    simp [hw, ha, hnext]
  have hroom : s.stripeRoom p k = true := by simp [State.stripeRoom, hnext]
  have hin : ¬ (k ≥ r.stripes ∨ (!s.runs Blk.map) = true) := by simp [hm, hk]
  have hlive : ¬ ((!p.joined) = true ∨ p.dropped = true ∨ r.marked ≠ 0) := by simp [hj, hd, hmark]
  simp only [State.stripeAccept, hr, hp, if_neg hin, if_neg hpkg, State.stripeRemote, if_neg hfresh, if_neg hlive, hroom, hu,
    Bool.not_true, Bool.false_eq_true, if_false]

/-- A release begins where no condition of R310 fails the round. -/
theorem State.releaseStart_begins {slot : Nat} (hr : s.map.rounds.look slot = some r) (hc : r.cut = true) (hs : r.st = .closing)
    (hn : r.releasing = false) (hstrict : r.strict = true → r.parties.length ≤ r.completeCount)
    (hq : r.quorum ≤ r.completeCount) (hm : r.marked = 0) :
    s.releaseStart slot = { s with map := { s.map with rounds := s.map.rounds.put slot { r with releasing := true } } } := by
  have hall : ¬ (r.strict = true ∧ r.completeCount < r.parties.length) := fun h => Nat.not_lt.mpr (hstrict h.1) h.2
  simp only [State.releaseStart, hr, hc, hs, hn, hm, if_neg hall, if_neg (Nat.not_lt.mpr hq), Bool.not_true, ne_eq,
    not_true_eq_false, Bool.false_eq_true, or_self, if_false]

/-- A round without its quorum fails. -/
theorem State.releaseStart_noQuorum {slot : Nat} (hr : s.map.rounds.look slot = some r) (hc : r.cut = true)
    (hs : r.st = .closing) (hn : r.releasing = false) (hstrict : r.strict = false) (hq : r.completeCount < r.quorum) :
    s.releaseStart slot = s.roundFinish slot .failed 1 0 := by
  simp only [State.releaseStart, hr, hc, hs, hn, hstrict, if_pos hq, Bool.not_true, ne_eq, not_true_eq_false,
    Bool.false_eq_true, or_self, false_and, if_false]

/-- A failed release of an accumulator without poison ends the round with its code. -/
theorem State.releaseDone_fails {slot : Nat} (code : Byte) (hr : s.map.rounds.look slot = some r) (hs : r.releasing = true)
    (hp : (s.heldRead r.ctx r.accPages r.acc.toNat (accBytes r.mode r.n / 4096 + 2) r.acc.toNat
      (accBytes r.mode r.n)).2.1 = false) :
    s.releaseDone slot .fail code = s.roundFinish slot .failed 5 code := by
  simp only [State.releaseDone, hr, hs, hp, Bool.not_true, Bool.false_eq_true, if_false, if_true]

theorem exec_aggCutoffTimeout_reached {slot : BitVec 4} (hr : s.map.rounds.look slot.toNat = some r) (ht : r.tmo ≠ 0)
    (hd : s.reached (r.openAt + r.tmo * 1000) = true) :
    exec (.aggCutoffTimeout slot) s = .next (s.cutoff slot.toNat).settle :=
  done_eq (by simp only [hr, ht, hd, ne_eq, not_false_eq_true, and_self, if_true])

end Rounds

/-- Settles O25: each instruction's premises are its body's checks, and each event's are the conditions of its command. -/
theorem aggregation : Obligations.Aggregation := by
  refine ⟨⟨?opens, ?joinHome, ?joinAway, ?joinFrom, ?contrib, ?close, ?leave, ?leaveFrom⟩,
    ⟨?stripe, ?timeout, ?begins, ?noQuorum, ?fails⟩⟩
  case opens =>
    intro s t c q x h hk he hr r
    exact h.answersRow (by rw [h.mine_agg hk, Bool.true_or]) (aggOpenBody_opens he hr)
  case joinHome =>
    intro s t c q x ans h hk hr hh u r
    exact h.answersRow (h.mine_agg hk) (aggJoinBody_home ans hr hh)
  case joinAway =>
    intro s t c q x a h hk hr hh
    exact h.answersRow (h.mine_agg hk) (aggJoinBody_away a hr hh)
  case joinFrom =>
    intro s c q p h hp r
    exact done_eq (State.joinFrom_attested h c q hp)
  case contrib =>
    intro s t c q x home party cursor total ls h hk hi u n conv hd d hpay hn hmax hp hm hfit hwhole htoken hroom
    exact h.answersRow (h.mine_agg hk) (aggContribBody_sends hi hpay hn hmax hp hm hfit hwhole htoken hroom)
  case close =>
    intro s t c q x slot r h hk hr u ho hc hn hrel hfail d
    exact h.answersRow (h.mine_agg hk) (aggCloseBody_closes hr ho hc hn hrel hfail)
  case leave =>
    intro s t c q x via i cursor total ls h hk hr u hp hd
    exact h.answersRow (h.mine_agg hk) (aggLeaveBody_home hr hp hd)
  case leaveFrom =>
    intro s c q p h slot i r ho hi
    exact done_eq (State.leaveFrom_listed q ho hi)
  case stripe =>
    intro s slot i k ws cl nn r p u hr hp hk hm hpkg hw hnext ha hj hd hmark hu
    exact done_eq (State.stripeAccept_remote hr hp hk hm hpkg hw hnext ha hj hd hmark hu)
  case timeout =>
    intro s slot r hr ht hd
    exact exec_aggCutoffTimeout_reached hr ht hd
  case begins =>
    intro s slot r hr hc hs hn hstrict hq hm
    exact done_eq (State.releaseStart_begins hr hc hs hn hstrict hq hm)
  case noQuorum =>
    intro s slot r hr hc hs hn hstrict hq
    exact done_eq (State.releaseStart_noQuorum hr hc hs hn hstrict hq)
  case fails =>
    intro s slot code r hr hs hp
    exact done_eq (State.releaseDone_fails code hr hs hp)

end Sys2Proof.Machine

/-! ## The tensor movers (R322 to R327, R342) -/

namespace Sys2Proof.Machine

section Movers

variable {s : State}

/-- Island I90 alone keeps the credit counters counting. -/
theorem State.pacePulse_powered (n : Nat) (hp : s.rpc.islands.contains 90 = true) :
    s.pacePulse n = if 4095 ≤ s.paceCredits n then s.raise { src := Src.paceOverrun }
      else ({ s with map := { s.map with credits := s.map.credits.put n (s.paceCredits n + 1) } } : State).paceServe n 32 := by
  simp only [State.pacePulse, List.any_cons, hp, Bool.true_or, Bool.not_true, Bool.false_eq_true, if_false, ge_iff_le]

/-- The descriptor at the front of the order is placed where a channel can take it. -/
theorem State.channelPlace_first {d : Desc} {rest : List Nat} {ch : Nat × Nat} (ho : s.chanOrder = d.id :: rest)
    (hd : s.desc? d.id = some d) (hc : s.chooseChan d = some ch) :
    s.channelPlace = (s.descAccepted d).placeDesc d.id ch := by
  simp only [State.channelPlace, ho, List.filterMap_cons, hd, hc, Option.map_some]

theorem Desc.written_iff (d : Desc) : d.written = true ↔ d.pos = d.len ∧ d.writing = false ∧ d.status = none := by
  simp [Desc.written, and_assoc]

theorem State.descComplete_moveB {k : Nat} {d : Desc} {c : CtxId} {q : QIdx} {seq : Word} (hd : s.desc? k = some d)
    (ho : d.owner = .queue c q seq) (hw : d.written = true)
    (hwait : ((s.delDesc k).queue c q).wait = some (.moveB k)) :
    s.descComplete k = (s.delDesc k).retireWait c q 0 0 := by
  simp only [State.descComplete, hd, hw, ho, hwait, Bool.not_true, Bool.false_and, Bool.false_eq_true, if_false, if_true]

theorem State.descComplete_ring {k slot : Nat} {d : Desc} {r : BitVec 4} (hd : s.desc? k = some d)
    (ho : d.owner = .ring r slot) (hf : d.finished = true) :
    s.descComplete k = ((s.delDesc k).ringEnd r.toNat slot d.tag d.doneCount d.failed d.poisoned d.irq).ringRun r.toNat 8 := by
  simp only [State.descComplete, hd, hf, ho, Bool.not_true, Bool.and_false, Bool.false_eq_true, if_false]

end Movers

/-! ## The end of a heat (R354, R356, R363) -/

section Heats

variable {s : State}

theorem State.heatPlannedEnd_begins (hr : s.pcr.running = false) (hp : s.runs Blk.pcr = true)
    (ho : s.reached s.pcr.origin = true) : s.heatPlannedEnd = s.beginHeat 0 s.pcr.origin 0 := by
  simp only [State.heatPlannedEnd, hr, hp, ho, Bool.not_false, and_self, if_true]

/-- At the planned end the items due in the heat decide between its stretch and its end. -/
theorem State.heatPlannedEnd_reached (hr : s.pcr.running = true) (hs : s.pcr.stretch = false)
    (he : s.reached s.heatEnd = true) :
    s.heatPlannedEnd = if s.dueLeft then { s with pcr := { s.pcr with stretch := true } } else s.endHeat s.heatEnd := by
  simp only [State.heatPlannedEnd, hr, hs, he, Bool.not_true, Bool.false_eq_true, or_self, if_false]

/-- At the limit a stretch ends whether or not items due in the heat are left. -/
theorem State.heatStretchLimit_reached (hr : s.pcr.running = true) (hs : s.pcr.stretch = true)
    (hl : s.reached (s.heatEnd + BitVec.ofNat 64 (s.heatL / 4)) = true) :
    s.heatStretchLimit = s.endHeat (s.heatEnd + BitVec.ofNat 64 (s.heatL / 4)) := by
  cases hd : s.dueLeft <;>
    simp only [State.heatStretchLimit, hr, hs, hl, hd, Bool.not_true, Bool.not_false, Bool.false_eq_true, or_self, if_false,
      if_true]

/-- Before the limit a stretch goes on while items due in the heat are left. -/
theorem State.heatStretchLimit_within (hl : s.reached (s.heatEnd + BitVec.ofNat 64 (s.heatL / 4)) = false)
    (hd : s.dueLeft = true) : s.heatStretchLimit = s := by
  simp only [State.heatStretchLimit, hl, hd, Bool.not_true, Bool.false_eq_true, if_false, ite_self]

end Heats

/-- Settles O22: a pulse is counted below 4,095 credits, and a heat's end turns on its due items and on the stretch's limit. -/
theorem moverAndHeat : Obligations.MoverAndHeat := by
  refine ⟨⟨?credit, ?overrun, ?place, ?retire, ?ring⟩, ⟨?begins, ?stretches, ?ends, ?atLimit, ?within⟩⟩
  case credit =>
    intro s n hp hc
    exact done_eq ((State.pacePulse_powered _ hp).trans (if_neg (Nat.not_le.mpr hc)))
  case overrun =>
    intro s n hp hc
    exact done_eq ((State.pacePulse_powered _ hp).trans (if_pos hc))
  case place =>
    intro s d rest ch ho hd hc
    exact done_eq (State.channelPlace_first ho hd hc)
  case retire =>
    intro s k d c q seq hd ho hpos hwr hst hwait
    exact done_eq (State.descComplete_moveB hd ho ((Desc.written_iff d).mpr ⟨hpos, hwr, hst⟩) hwait)
  case ring =>
    intro s k d r slot hd ho hf
    exact done_eq (State.descComplete_ring hd ho hf)
  case begins =>
    intro s hr hp ho
    exact done_eq (State.heatPlannedEnd_begins hr hp ho)
  case stretches =>
    intro s hr hs he hd
    exact done_eq ((State.heatPlannedEnd_reached hr hs he).trans (if_pos hd))
  case ends =>
    intro s hr hs he hd
    exact done_eq ((State.heatPlannedEnd_reached hr hs he).trans (if_neg (Bool.eq_false_iff.mp hd)))
  case atLimit =>
    intro s hr hs hl
    exact done_eq (State.heatStretchLimit_reached hr hs hl)
  case within =>
    intro s _ _ hl hd
    exact done_eq (State.heatStretchLimit_within hl hd)

end Sys2Proof.Machine

/-! ## Programs, erases, patrol and mount of the flash tier (R372 to R374, R383 to R386, R391 to R396) -/

namespace Sys2Proof.Machine

/-! A fault touches FLC and, where its function is told, that function's port. -/

theorem State.intaUpdate_frame (s : State) (l : Nat) : ∃ h o, s.intaUpdate l = { s with hpx := h, out := o } := by
  unfold State.intaUpdate
  dsimp only
  split <;> exact ⟨_, _, rfl⟩

theorem State.wakeCheck_frame (s : State) (f : FnId) : ∃ h o, s.wakeCheck f = { s with hpx := h, out := o } := by
  unfold State.wakeCheck
  dsimp only
  repeat' split
  all_goals exact ⟨_, _, rfl⟩

theorem State.msixRaise_frame (s : State) (f : FnId) (v : Nat) : ∃ h o, s.msixRaise f v = { s with hpx := h, out := o } := by
  unfold State.msixRaise
  dsimp only
  split
  · split
    · obtain ⟨h, o, e⟩ := State.intaUpdate_frame (s.updLink (s.fnLink f) (fun k => { k with raised := k.raised + 1 })) (s.fnLink f)
      exact ⟨h, o, e⟩
    · exact ⟨_, _, rfl⟩
  · split
    · obtain ⟨h, o, e⟩ := State.wakeCheck_frame (s.putFn f { s.fn f with pba := addTo (s.fn f).pba v }) f
      exact ⟨h, o, e⟩
    · exact ⟨_, _, rfl⟩

theorem State.notifyOwner_frame (s : State) (f : FaultIn) (r : FRec) : ∃ h o, s.notifyOwner f r = { s with hpx := h, out := o } := by
  unfold State.notifyOwner
  split
  · exact ⟨_, _, rfl⟩
  · obtain ⟨h, o, e⟩ := State.msixRaise_frame _ _ _
    exact ⟨h, o, e⟩

/-- A fault changes FLC, the host ports and the outputs alone. -/
theorem State.raise_frame (s : State) (f : FaultIn) : ∃ l h o, s.raise f = { s with flc := l, hpx := h, out := o } := by
  obtain e | ⟨fl, e | ⟨r, e⟩⟩ := s.raise_cases f
  · exact ⟨_, _, _, e⟩
  · exact ⟨_, _, _, e⟩
  · obtain ⟨h, o, e'⟩ := State.notifyOwner_frame { s with flc := fl } f r
    exact ⟨fl, h, o, e.trans e'⟩

@[simp] theorem State.raise_ftc (s : State) (f : FaultIn) : (s.raise f).ftc = s.ftc := by
  obtain ⟨l, h, o, e⟩ := s.raise_frame f
  rw [e]

@[simp] theorem State.condFault_ftc (s : State) (f : FaultIn) (on : Bool) : (s.condFault f on).ftc = s.ftc := by
  unfold State.condFault
  dsimp only
  split
  · split
    · rfl
    · exact State.raise_ftc _ f
  · rfl

@[simp] theorem State.setDomain_ftc (s : State) (d : Nat) (on : Bool) : (s.setDomain d on).ftc = s.ftc := by
  unfold State.setDomain
  dsimp only
  split <;> rfl

/-- The check of the spare capacity sets nothing of FTC but WRSTOP. -/
theorem State.ftcSpareCheck_ftc (s : State) : ∃ w, s.ftcSpareCheck.ftc = { s.ftc with wrstop := w } := by
  unfold State.ftcSpareCheck
  split
  · exact ⟨_, rfl⟩
  · exact ⟨_, (State.condFault_ftc _ _ _).trans (State.condFault_ftc _ _ _)⟩

section Upkeep

variable {s : State} {b : Nat}

/-! Ends of programs and erases, by their outcome. -/

/-- What the end of a program finds: its place on flash is not of a block that is held. -/
structure ProgramEnds (s : State) (id b i : Nat) (p : Program) : Prop where
  found : s.ftc.programs.find? (fun x => x.id == id) = some p
  placed : p.at_ = some (b, i)
  free : s.blockHeld b = false

/-- The programs that are left after one has ended. -/
def State.programsBut (s : State) (id : Nat) : List Program := s.ftc.programs.filter (fun x => decide (x.id ≠ id))

/-- The block of a program that ends is idle where it was its last. -/
def State.programEnded (s : State) (id b : Nat) : State :=
  s.updBlock b (fun x => { x with work :=
    if (!(s.programsBut id).any (fun x => (x.at_.map Prod.fst) == some b)) ∧ x.work = BWork.programming then .idle else x.work })

theorem ProgramEnds.pass_moved {id i o j : Nat} {p : Program} (h : ProgramEnds s id b i p) (hw : p.why = .move o j)
    (hl : s.programLive p = true) :
    let t := s.programEnded id b
    let u : State := { t with ftc := { t.ftc with programs := s.programsBut id } }
    s.programDone id .pass = (((u.unitPut p).emptyBlock o).pageWritten (.move o j)).collect (blockLun b) := by
  simp only [State.programDone, h.found, h.placed, h.free, hw, hl, Bool.false_eq_true, if_false, if_true]
  rfl

theorem ProgramEnds.fail {id i : Nat} {p : Program} (h : ProgramEnds s id b i p) :
    s.programDone id .fail = (((((s.programEnded id b).clearPage b i).updProgram id (fun x => { x with at_ := none })).statusFail
      b Src.ftcProgFail).placePrograms) := by
  simp only [State.programDone, h.found, h.placed, h.free, Bool.false_eq_true, if_false]
  rfl

/-- A stripe that a write has begun is padded and closed after 1 ms. -/
theorem State.stripeTimeout_due (hn : s.ftc.stripeFill ≠ []) (ht : 1000000 ≤ s.since s.ftc.lastWrite) :
    s.stripeTimeout = (forAll (rangeFrom s.ftc.stripeFill.length (stripeUnits - s.ftc.stripeFill.length)) s (fun t i =>
      match (t.dataChan i).bind t.writeBlock with
      | some b => t.takePage b none
      | none => t)).closeStripe := by
  have hlen : s.ftc.stripeFill.length ≠ 0 := fun h => hn (List.eq_nil_of_length_eq_zero h)
  exact if_neg fun h => h.elim hlen (Nat.not_lt.mpr ht)

/-- A block whose erase is in progress: it holds data of no use, and nothing holds it. -/
structure Erasing (s : State) (b : Nat) : Prop where
  mounted : s.ftc.mounted = true
  there : s.blockExists b = true
  dirty : (s.block b).dirty = true
  good : (s.block b).st = .good
  free : s.blockHeld b = false

theorem Erasing.pass (h : Erasing s b) (hc : ((s.block b).erases + 1) % 16 ≠ 0)
    (he : (s.block b).erases + 1 < s.ftcGeom.endurance) :
    let u := s.updBlock b (fun y => { y with dirty := false, pages := [], reads := 0, erases := (s.block b).erases + 1
                                             work := .idle, susp := false, suspAt := 0 })
    s.eraseDone b .pass = ((({ u with ftc := { u.ftc with erasing := u.ftc.erasing && !u.mountErased } } :
      State).levelWear (blockChan b)).collect (blockLun b)).placePrograms := by
  simp [State.eraseDone, h.mounted, h.there, h.dirty, h.good, h.free, hc, Nat.not_le.mpr he]

theorem Erasing.fail (h : Erasing s b) :
    s.eraseDone b .fail = (s.updBlock b (fun y => { y with work := .idle })).statusFail b Src.ftcEraseFail := by
  simp [State.eraseDone, h.mounted, h.there, h.dirty, h.good, h.free]

/-! Patrol, tests and failed targets. -/

/-- A boot-zone block that decodes before the last steps of the ladder stays in its zone. -/
theorem State.patrolCheck_zone {k : Nat} (hr : s.runs Blk.ftc = true) (hm : s.ftc.mounted = true)
    (hp : s.patrolSet.contains b = true) (hz : (s.block b).st = .zone) (hk : k < 5) :
    let u : State := { s with ftc := { s.ftc with patrolled := addTo s.ftc.patrolled b } }
    s.patrolCheck b k true = (u.updBlock b (fun y => { y with reads := y.reads + 3 })).patrolClock := by
  simp only [State.patrolCheck, hr, hm, hp, hz, Nat.not_le.mpr hk, ge_iff_le, Bool.not_true, Bool.false_eq_true, or_self,
    if_false, if_true]

/-- A SUSPECT block that no unit is left on is tested. -/
theorem State.blockTest_empty (r : PassFail) (hr : s.runs Blk.ftc = true) (hm : s.ftc.mounted = true)
    (hs : (s.block b).st = .suspect) (hv : s.validUnits b = []) :
    s.blockTest b r = match r with
      | .pass => (s.updBlock b (fun y => { y with
          erases := y.erases + 1, dirty := true, pages := [], work := .erasing, moving := false })).setBState b .good
      | .fail => s.setBState b .grownBad :=
  if_neg (by simp [hr, hm, hs, hv])

/-- A target in use that fails is marked and recorded, and its blocks' units are counted and moved. -/
theorem State.targetFail_active {n : Nat} {x : Target} (hx : s.ftc.targets.look n = some x) (ha : x.st = .active) :
    let u := ({ s with ftc := { s.ftc with targets := s.ftc.targets.put n { x with st := .failed } } } : State).raise
      { src := Src.ftcTargetFail, synd := BitVec.ofNat 160 n }
    s.targetFail n = forAll ((u.ftc.blocks.filter (fun e => blockTgt e.1 == n)).map Prod.fst) u (fun w b =>
      ({ w with ftc := { w.ftc with cntRebuild := sat32 (w.ftc.cntRebuild.toNat + (w.validUnits b).length) } } :
        State).moveBlock b) := by
  simp only [State.targetFail, hx, ha, ne_eq, not_true_eq_false, if_false]

theorem State.checkpoint_due (hm : s.ftc.mounted = true) (ht : 600000000000 ≤ s.since s.ftc.chkAt) :
    let er := s.ftc.blocks.foldl (fun m e => m.put e.1 e.2.erases) s.ftc.zone.erases
    let bad := s.ftc.blocks.foldl (fun m e => if e.2.st = .good then m.del e.1 else m.put e.1 e.2.st) s.ftc.zone.badBlocks
    s.checkpoint = ({ s with ftc := { s.ftc with
      zone := { s.ftc.zone with erases := er, badBlocks := bad }, chkAt := s.now } } : State).patrolClock :=
  if_neg (by simp [hm, ht])

end Upkeep

/-! The mount. -/

/-- FTC holds the targets of a mount and the rates of their channels, and counts its calibrations from then. -/
structure FreshMount (ms : Map Target) (rates : Map (BitVec 3)) (now : DWord) (f : Ftc) : Prop where
  targets : f.targets = ms
  chrate : f.chrate = rates
  mounted : f.mounted = true
  zqAt : f.zqAt = now

section Mount

variable {s : State} {ms : Map Target} {rates : Map (BitVec 3)} {now : DWord}

theorem FreshMount.ftcSpareCheck (h : FreshMount ms rates now s.ftc) : FreshMount ms rates now s.ftcSpareCheck.ftc := by
  obtain ⟨w, e⟩ := s.ftcSpareCheck_ftc
  rw [e]
  exact ⟨h.targets, h.chrate, h.mounted, h.zqAt⟩

theorem FreshMount.setDomain (d : Nat) (on : Bool) (h : FreshMount ms rates now s.ftc) :
    FreshMount ms rates now (s.setDomain d on).ftc := by
  rwa [State.setDomain_ftc]

/-- The mount records that it has lost both copies of the boot zone, or one of them. -/
theorem FreshMount.zoneCopies (lost both : Prop) [Decidable lost] [Decidable both] (f g : FaultIn)
    (h : FreshMount ms rates now s.ftc) :
    FreshMount ms rates now (if lost then s.raise f else if both then s else s.raise g).ftc := by
  split
  · rwa [State.raise_ftc]
  · split
    · exact h
    · rwa [State.raise_ftc]

theorem State.flashMount_mounts (ts : List TargetInfo) (hm : s.ftc.mounted = false) (hr : s.runs Blk.ftc = true)
    (hi : s.rpc.inReset = false) (h93 : s.islandOn 93 = true) :
    FreshMount (mountTargets ts) (mountRates (mountTargets ts) (s.ce .ftcCtrl 2 0)) s.now (s.flashMount ts).ftc := by
  unfold State.flashMount
  rw [if_neg (by simp [hm, hr, hi, h93])]
  refine forAll_keeps (fun t => FreshMount (mountTargets ts) (mountRates (mountTargets ts) (s.ce .ftcCtrl 2 0)) s.now t.ftc)
    _ _ _ ?begun (fun t g h => h.setDomain _ _)
  exact FreshMount.ftcSpareCheck (FreshMount.zoneCopies _ _ _ _ ⟨rfl, rfl, rfl, rfl⟩)

end Mount

/-- Settles O24: each command's premises are the ones under which its effect takes place, and what follows the targets in a
mount leaves FTC's record of them. -/
theorem flashUpkeep : Obligations.FlashUpkeep := by
  refine ⟨?programPass, ?programFail, ?stripe, ?erasePass, ?eraseFail, ?suspension, ?patrol, ?testFail, ?testPass, ?target,
    ?calibration, ?checkpoint, ?mountAgain, ?mount⟩
  case programPass =>
    intro s id b i o j p hp ha hh hw hl rest idle s0 u a h
    subst h
    exact done_eq (congrArg State.flashAfter (ProgramEnds.pass_moved ⟨hp, ha, hh⟩ hw hl))
  case programFail =>
    intro s id b i p hp ha hh rest idle s0
    exact done_eq (congrArg State.flashAfter (ProgramEnds.fail ⟨hp, ha, hh⟩))
  case stripe =>
    intro s hn ht pad
    exact done_eq (State.stripeTimeout_due hn ht)
  case erasePass =>
    intro s b hm hx hd hg hh hc he u
    exact done_eq (congrArg State.flashAfter (Erasing.pass ⟨hm, hx, hd, hg, hh⟩ hc he))
  case eraseFail =>
    intro s b hm hx hd hg hh
    exact done_eq (congrArg State.flashAfter (Erasing.fail ⟨hm, hx, hd, hg, hh⟩))
  case suspension =>
    intro s b hs ht
    exact done_eq (if_pos ⟨hs, ht⟩)
  case patrol =>
    intro s b step hr hm hp hz hk u
    exact done_eq (congrArg State.flashAfter (State.patrolCheck_zone hr hm hp hz hk))
  case testFail =>
    intro s b hr hm hs hv
    exact done_eq (State.blockTest_empty .fail hr hm hs hv)
  case testPass =>
    intro s b hr hm hs hv
    exact done_eq (State.blockTest_empty .pass hr hm hs hv)
  case target =>
    intro s chan tgt x n hx ha u move
    exact done_eq (congrArg State.flashAfter (State.targetFail_active hx ha))
  case calibration =>
    intro s hm ht
    exact done_eq (if_pos ⟨hm, ht⟩)
  case checkpoint =>
    intro s hm ht er bad
    exact done_eq (State.checkpoint_due hm ht)
  case mountAgain =>
    intro s ts hm
    exact done_eq (if_pos (.inl hm))
  case mount =>
    intro s ts hm hr hi h93
    have h := State.flashMount_mounts ts hm hr hi h93
    exact ⟨s.flashMount ts, done_eq rfl, h.targets, h.chrate, h.mounted, h.zqAt⟩

end Sys2Proof.Machine

/-! ## Laps, sweeps, scrubs and entropy (R398, R526, R531 to R542) -/

namespace Sys2Proof.Machine

section Laps

variable {s : State}

/-- A LAP command of the operator is served where SEC is ready, FTC is mounted and no update is in progress. -/
theorem State.lapCmd_serves (link : Bool) (id : Nat) (ha : Authority s) (hr : s.sec.ready = true) (hm : s.ftc.mounted = true)
    (hu : s.ftc.lapUpd = none) : s.lapCmd link id = s.lapServe link id := by
  rw [State.lapCmd, ha.run]
  simp only [hr, hm, hu, Bool.not_true, Bool.or_self, Option.isSome_none, Bool.false_eq_true, if_false]

theorem State.lapStep_steps (hm : s.ftc.mounted = true) (hf : s.sec.fuses = true) (hs : s.sec.stepped = false)
    (hu : s.ftc.lapUpd = none) (hb : s.sec.lapBase ≠ lapMax) (ho : s.lapsOver = false) :
    s.lapStep = { s with
      ftc := { s.ftc with lapUpd := some { seq := s.lapSeq + 1, base := s.sec.lapBase + 1, ctx := lapStepAll s.sec.lapBase s.sec.laps,
                                           link := lapStepAll s.sec.lapBase s.sec.linkLaps }, lapStepUpd := true }
      sec := { s.sec with stepped := true } } := by
  simp only [State.lapStep, hm, hf, hs, hu, ho, if_neg hb, Bool.not_true, Bool.or_self, Option.isSome_none, Bool.false_eq_true,
    if_false]

/-- The commit of an update for which no LAP command waits, and behind which none does, brings its laps into use. -/
theorem State.lapCommit_alone {slot : LapSlot} (hu : s.ftc.lapUpd = some slot) (hm : s.ftc.mounted = true)
    (hr : s.runs Blk.ftc = true) (hb : s.sec.lapBusy = none) (hq : s.sec.lapQ = []) :
    s.lapCommit = { s with
      ftc := { s.ftc with zone := s.ftc.zone.putLap slot, lapUpd := none, lapStepUpd := false }
      sec := { s.sec with lapBase := slot.base, laps := slot.ctx, linkLaps := slot.link, lapBusy := none
                          ready := s.sec.ready || (s.ftc.lapStepUpd && !s.lapsOver) } } := by
  simp only [State.lapCommit, hu, hm, hr, hb, hq, Bool.not_true, Bool.or_self, Bool.false_eq_true, if_false, State.lapNext]

/-- A page that is still its sweep register's takes the new lap, and its translations are invalidated. -/
theorem State.sweepPageDone_stands {ch : Nat} {r : SweepReg} {w : Sweep} (hs : s.runs Blk.sec = true)
    (hr : s.sec.regs.look ch = some r) (hw : s.sec.sweep = some w) (hf : r.finished = false)
    (ht : r.stands ch (s.pte r.key) (w.old.toNat.testBit 0) = true) :
    let u := (s.putPte r.key (Pte.set (s.pte r.key) 9 9 (b2n (!w.old.toNat.testBit 0)))).rekey ch r w.old w.new
    s.sweepPageDone ch = ({ u with sec := { u.sec with
      regs := u.sec.regs.put ch { r with finished := true, cursor := 2 ^ r.lsize / 64 } } } : State).invInternal .s2page
      r.vdix.toNat (BitVec.ofNat 64 r.ca) (.sweepReg ch) := by
  simp only [State.sweepPageDone, hs, hr, hw, hf, ht, Bool.not_true, Bool.false_eq_true, if_false, if_true]

/-- A page that SEC has scrubbed holds no bytes: it reads as zeros. -/
theorem State.scrubDone_pass {ch pg : Nat} {x : Scrub} (hx : s.sec.scrub.find? (fun x => x.chan == ch && x.page == pg) = some x)
    (hs : s.runs Blk.sec = true) :
    let a := hbmKey (BitVec.ofNat 24 ch) (pg * 4096)
    s.scrubDone ch pg .pass = { s with
      sec := { s.sec with scrub := dropFrom s.sec.scrub x }
      mem := { s.mem with hbm := s.mem.hbm.filter (fun e => !(decide (a ≤ e.1 ∧ e.1 < a + 2 ^ x.lsize))) } } := by
  simp only [State.scrubDone, hx, hs, Bool.not_true, Bool.false_eq_true, if_false]

end Laps

/-- Settles O42: each command's premises are the ones under which its effect takes place. -/
theorem lapsAndScrubs : Obligations.LapsAndScrubs := by
  refine ⟨?lap, ?step, ?commit, ?sweep, ?scrub, ?fail, ?pass⟩
  case lap =>
    intro s link id ha hr hm hu
    exact done_eq (State.lapCmd_serves link _ ha hr hm hu)
  case step =>
    intro s hm hf hs hu hb ho
    exact done_eq (State.lapStep_steps hm hf hs hu hb ho)
  case commit =>
    intro s slot hu hm hr hb hq
    exact done_eq (State.lapCommit_alone hu hm hr hb hq)
  case sweep =>
    intro s ch r w hs hr hw hf ht u
    exact done_eq (State.sweepPageDone_stands hs hr hw hf ht)
  case scrub =>
    intro s ch pg x hx hs a
    exact done_eq (State.scrubDone_pass hx hs)
  case fail =>
    intro s he
    exact done_eq (if_pos he)
  case pass =>
    intro s
    exact done_eq rfl

end Sys2Proof.Machine

/-! ## The management network (R399, R543 to R551, R598 to R600) -/

namespace Sys2Proof.Machine

section Management

variable {s : State}

theorem State.bySession_here (h : s.operatorHere = true) (f : State → State) : s.bySession f = f s := if_pos h

/-- Over a session every request but a key exchange is answered at once. -/
theorem State.spdm_session {p : BitVec 1} {m : BitVec 3} {msg : Byte} (hp : s.spdmPath (.mgt p m) = true)
    (hk : msg.toNat ≠ spdmKeyExchange) :
    s.spdm (.mgt p m) msg = s.emit (.spdm (.mgt p m) msg (spdmCodes.contains msg.toNat)) := by
  simp only [State.spdm, hp, hk, Bool.not_true, Bool.false_and, Bool.not_false, Bool.and_true, Bool.false_eq_true, false_and,
    if_false]

/-! A client that connects: its port is up and has room for a session. -/

/-- The lowest number that no session of a port has. -/
def State.freeSession (s : State) (p : Nat) : Nat :=
  ((rangeFrom 0 8).find? (fun k => !((s.sessionsOn p).map Session.num).contains k)).getD 0

/-- MGT takes handshakes on a port. -/
structure Connects (s : State) (p : Nat) : Prop where
  ready : s.mgtReady = true
  up : s.mgt.up.getD p false = true
  room : (s.sessionsOn p).length < 8

/-- A client whose certificate chains to an anchor is given a session with the anchor's right. -/
theorem Connects.opens {p : Nat} {a : BitVec 64} {r : Right} (h : Connects s p) (he : s.sec.entropy = true)
    (hr : s.anchorRight a = some r) :
    s.sessionConnect p (some a) = { s with mgt := { s.mgt with
      sessions := s.mgt.sessions ++ [{ port := p, num := s.freeSession p, right := r, anchor := a }] } } := by
  simp only [State.sessionConnect, h.ready, h.up, sessionMax, Nat.not_le.mpr h.room, he, hr, Bool.not_true, Bool.true_eq_false,
    Bool.false_eq_true, ge_iff_le, or_self, if_false, Option.getD_some, State.freeSession]

theorem Connects.unanchored {p : Nat} {a : BitVec 64} (h : Connects s p) (he : s.sec.entropy = true)
    (hr : s.anchorRight a = none) : s.sessionConnect p (some a) = s.raise { src := Src.mgtAuthFail } := by
  simp only [State.sessionConnect, h.ready, h.up, sessionMax, Nat.not_le.mpr h.room, he, hr, Bool.not_true, Bool.true_eq_false,
    Bool.false_eq_true, ge_iff_le, or_self, if_false]

/-- Without entropy a handshake waits; those that wait and the sessions together stay within the port's sessions. -/
theorem Connects.waits {p : Nat} (h : Connects s p) (he : s.sec.entropy = false)
    (hr : (s.sessionsOn p).length + s.sec.hands.countP (fun h => h.1 == p) < 8) (x : Option (BitVec 64)) :
    s.sessionConnect p x = { s with sec := { s.sec with hands := s.sec.hands ++ [(p, x)] } } := by
  simp only [State.sessionConnect, h.ready, h.up, sessionMax, Nat.not_le.mpr h.room, Nat.not_le.mpr hr, he, Bool.not_true,
    Bool.not_false, Bool.true_eq_false, Bool.false_eq_true, or_self, if_false, if_true]

/-! CLAIM and its lockout. -/

/-- CLAIM over a client's session of a die that is unclaimed and not shut out turns on the code. -/
theorem State.claim_open (code : Nat) (a : BitVec 64) (hs : s.mgt.sessions.any (fun x => x.right == .claim) = true)
    (hb : s.rpc.bootSt ≠ 3) (hq : s.rpc.quar = false) (hc : s.claimed = false) (hl : s.sec.lockout = none) :
    s.claim code a = if code = Config.claimCode then
        (({ s with sec := { s.sec with claimFails := 0 } } : State).setAnchors ((0, a) :: s.anchorList)).mgtDone 2
      else ({ s with sec := { s.sec with
        claimFails := s.sec.claimFails + 1
        lockout := if 3 ≤ s.sec.claimFails + 1 then some (s.after 600000000000) else none } } : State).emit
        (.mgtRefuse Why.wrongCode) := by
  simp only [State.claim, hs, if_neg hb, hq, hc, hl, claimTries, claimWait, Bool.not_true, Bool.false_eq_true, ge_iff_le,
    Option.isSome_none, if_false]

theorem State.claimExpire_reached {e : DWord} (hl : s.sec.lockout = some e) (ht : s.reached e = true) :
    s.claimExpire = { s with sec := { s.sec with lockout := none, claimFails := 0 } } := by
  simp only [State.claimExpire, hl, ht, if_true]

/-! Commands of the operator. -/

/-- An anchor put in an operator slot is an operator anchor that is left. -/
theorem State.anchorChange_operator {slot : BitVec 2} (a : BitVec 64) (ha : Authority s) (hs : slot.toNat < 2) :
    let new := (slot, a) :: s.anchorList.filter (fun e => e.1 != slot)
    s.anchorChange slot (some a) = ((s.setAnchors new).endSessions (fun x =>
      x.right != .claim && !new.any (fun e => e.2 == x.anchor))).mgtDone 3 := by
  intro new
  have hleft : new.any (fun e => decide (e.1.toNat < 2)) = true := by
    rw [List.any_cons, decide_eq_true hs, Bool.true_or]
  rw [State.anchorChange, ha.run]
  exact if_neg (by rw [hleft, Bool.not_true]; exact Bool.false_ne_true)

theorem State.settingsCmd_ownSchema {r : Settings} {i : Image} (ha : Authority s) (hi : s.rpc.running = some i)
    (hr : r.schema = i.schema) (hm : s.ftc.mounted = true) :
    s.settingsCmd r = (s.writeSettings r.schema r.body s.anchorList).mgtDone 1 := by
  rw [State.settingsCmd, ha.run]
  simp only [hi]
  exact if_neg (by simp [hr, hm])

/-- The minimum SVN rises up to the previous image's. -/
theorem State.svnRaise_raises {n : Nat} {i : Image} (ha : Authority s) (hi : s.ftc.zone.image (!s.ftc.zone.selB) = some i)
    (hn : n ≤ i.svn) (hm : s.svnMin ≤ n) :
    s.svnRaise n = ({ s with sec := { s.sec with minSvn := n } } : State).mgtDone 4 := by
  rw [State.svnRaise, ha.run]
  simp only [hi]
  exact if_pos ⟨hn, hm⟩

/-- While area A is active, an image that reads back goes to area B and makes it active. -/
theorem State.update_areaB {i : Image} (ho : s.operatorHere = true) (hm : s.ftc.mounted = true) (hi : s.imageOk i = true)
    (hb : s.ftc.zone.selB = false) :
    s.update i true = ({ s with ftc := { s.ftc with zone := { s.ftc.zone with
      imageB := some i, selB := true, selSeq := s.ftc.zone.selSeq + 1 } } } : State).mgtDone 5 := by
  rw [State.update, State.bySession_here ho]
  simp only [hm, hi, hb, Bool.not_true, Bool.not_false, Bool.false_eq_true, if_false, if_true]

end Management

/-- Settles O43: a client by its certificate's anchor and the entropy, CLAIM by its code, and each command of the operator under
its authority. -/
theorem management : Obligations.Management := by
  refine ⟨?spdm, ?opened, ?unanchored, ?waits, ?ended, ?linkUp, ?linkDown, ?claim, ?lockout, ?anchor, ?settings, ?svn, ?update⟩
  case spdm =>
    intro s p n m msg hp hk
    exact done_eq (State.spdm_session hp hk)
  case opened =>
    intro s p a r hm hu hl he hr n
    exact done_eq (Connects.opens ⟨hm, hu, hl⟩ he hr)
  case unanchored =>
    intro s p a hm hu hl he hr
    exact done_eq (Connects.unanchored ⟨hm, hu, hl⟩ he hr)
  case waits =>
    intro s p x hm hu hl he
    exact done_eq (Connects.waits ⟨hm, hu, by omega⟩ he hl x)
  case ended =>
    intro s p n
    exact done_eq rfl
  case linkUp =>
    intro s p
    exact done_eq rfl
  case linkDown =>
    intro s p
    exact done_eq rfl
  case claim =>
    intro s code a hs hb hq hc hl
    exact done_eq (State.claim_open code a hs hb hq hc hl)
  case lockout =>
    intro s e hl ht
    exact done_eq (State.claimExpire_reached hl ht)
  case anchor =>
    intro s slot a ha hs new
    exact done_eq (State.anchorChange_operator a ha hs)
  case settings =>
    intro s r i ha hi hr hm
    exact done_eq (State.settingsCmd_ownSchema ha hi hr hm)
  case svn =>
    intro s n i ha hi hn hm
    exact done_eq (State.svnRaise_raises ha hi hn hm)
  case update =>
    intro s i ho hm hi hb
    exact done_eq (State.update_areaB ho hm hi hb)

end Sys2Proof.Machine

/-! ## What resets end and keep (R394, R518, R521, R574, R584, R587, R596) -/

namespace Sys2Proof.Machine

/-- A register that is not stored reads its reset value. -/
theorem State.reg_unstored {s : State} (h : s.regs = []) (r : RegName) (ix : List Nat) : s.reg r ix = r.resetVal := by
  rw [State.reg, h]
  rfl

/-- A line of a memory without metadata is unowned. -/
theorem State.line_unlisted {s : State} (h : s.mem.lines = []) (a : Nat) : s.line a = {} := by
  rw [State.line, h]
  rfl

/-- Settles O50: a reset's state names what stays, and the record of its cause touches RPC alone. -/
theorem resetEndsAndKeeps : Obligations.ResetEndsAndKeeps := by
  refine ⟨fun s src inst cause => ?die, fun s src => ?cold⟩
  case die =>
    refine ⟨rfl, rfl, rfl, rfl, rfl, rfl, fun a => ?unowned, rfl, rfl, rfl, rfl, rfl, rfl, rfl, rfl, rfl, rfl, ?registers⟩
    case unowned => rw [State.line_unlisted rfl]
    case registers => exact State.reg_unstored rfl
  case cold =>
    exact ⟨rfl, rfl, rfl, rfl, rfl, rfl, rfl, rfl, rfl, rfl, rfl, State.reg_unstored rfl⟩

end Sys2Proof.Machine

/-! ## Links of the host ports (R402, R404, R413, R424 to R428) -/

namespace Sys2Proof.Machine

section Links

variable {s : State} {l : Nat}

/-- The reset that PERST# begins takes a link of the port's form down, and its cause is recorded. -/
theorem State.perstAssert_resets (hp : (s.link l).perst = true) (hx : s.linkExists l = true) :
    s.perstAssert l = ((s.updLink l (fun k => { k with perst := false })).goDown l 0xFE .down).rstCause 4 3 l := by
  simp only [State.perstAssert, hp, hx, Bool.not_true, Bool.false_eq_true, if_false, if_true]

/-- Once PERST# is high a link of the port's form trains, where its port's island has power. -/
theorem State.perstDeassert_trains (hp : (s.link l).perst = false) (hx : s.linkExists l = true) :
    let u := (s.updLink l (fun k => { k with perst := true, wake := false })).setDomain (linkDomain l) true
    u.islandOn (portIsland l) = true → s.perstDeassert l = u.updLink l (fun k => { k with st := .training }) := by
  intro u hi
  rw [State.perstDeassert, if_neg (by simp [hp]), if_neg (by simp [hx])]
  exact if_pos hi

theorem State.linkDown_surprise (hd : (s.link l).dlup = true) :
    s.linkDown l .surprise = (s.goDown l 5 .training).raise { src := Src.hpxUncorr l, aer := some 5 } :=
  if_neg (by simp [hd])

theorem State.linkDown_hotReset (hd : (s.link l).dlup = true) :
    s.linkDown l .hotReset = (s.goDown l 0xFE .training).rstCause 4 3 l :=
  if_neg (by simp [hd])

theorem State.linkDown_disabled (hd : (s.link l).dlup = true) :
    s.linkDown l .linkDisable = (s.goDown l 0xFE .down).rstCause 4 3 l :=
  if_neg (by simp [hd])

/-- What lets a link come up at a width: the port's form has the link, which is down, out of reset and not in L2, its port
has power, and the width is one of the form's. -/
structure ComesUp (s : State) (l : Nat) (w : BitVec 5) : Prop where
  formed : s.linkExists l = true
  down : (s.link l).dlup = false
  released : (s.link l).perst = true
  awake : (s.link l).st ≠ .l2
  powered : s.islandOn (portIsland l) = true
  lanes : w ≠ 0
  fits : w.toNat ≤ s.linkMax l

/-- A link of an open port that comes up and is not frozen shows its width, and its PF becomes ready. -/
theorem ComesUp.linkUp_ready {w : BitVec 5} (h : ComesUp s l w) (cxl : Bool) (hf : (s.link l).frozen = false)
    (ho : s.hpx.openB.toNat.testBit (l / 2) = true) :
    let u := s.updLink l (fun x => { x with st := .l0, dlup := true, width := w, full := w,
                                            cxl := cxl && l % 2 == 0 && s.hpx.cxlB.toNat.testBit (l / 2) })
    s.linkUp l w cxl = (u.updFn (State.linkPf l) (fun x => { x with present := true })).pfReady l := by
  simp only [State.linkUp, h.formed, h.down, h.released, h.awake, h.powered, h.lanes, Nat.not_lt.mpr h.fits, hf, ho,
    Bool.not_true, Bool.false_and, Bool.false_eq_true, or_self, if_false, if_true]

/-- The drain of a freeze ends, and the link stays frozen until its release. -/
theorem State.drainDone_waits (hf : (s.link l).frozen = true) (hd : (s.link l).drain = true) (he : (s.link l).selfEnd = false) :
    s.drainDone l = s.updLink l (fun x => { x with drain := false }) := by
  simp only [State.drainDone, hf, hd, he, Bool.not_true, Bool.false_and, Bool.false_eq_true, or_self, if_false]

/-- A release by a control core or the operator thaws a frozen link that is up and drained. -/
theorem State.linkRelease_thaws {w : Who} (ha : Arrives s w (regAddr .hpxLrel [l])) (hw : s.coreOrOperator w = true)
    (hd : (s.link l).dlup = true) (hn : (s.link l).drain = false) (hf : (s.link l).frozen = true) :
    s.linkRelease w l = s.thaw l := by
  cases w with
  | host f => exact absurd rfl (ha.notHost f)
  | _ => simp only [State.linkRelease, hw, ha.write, hd, hn, hf, Bool.not_true, Bool.false_eq_true, or_self, if_false, if_true]

/-- A field of four bits keeps its value under the mask of all four ports. -/
theorem fld_and_ports (v lo : Nat) : fld v (lo + 3) lo &&& 15 = fld v (lo + 3) lo := by
  have hlt : fld v (lo + 3) lo < 2 ^ 4 := by
    rw [fld, show lo + 3 + 1 - lo = 4 by omega]
    exact Nat.mod_lt _ (by decide)
  exact (Nat.and_two_pow_sub_one_eq_mod _ 4).trans (Nat.mod_eq_of_lt hlt)

/-- While every port is closed, a control core opens ports and offers CXL there; where the form stays and no link is up,
nothing else follows. -/
theorem State.portCfg_opens {n : CoreId} {v : Nat} (ha : Arrives s (.core n) (regAddr .hpxPortCfg [])) (ho : s.hpx.openB = 0)
    (hb : fld v 3 0 = s.hpx.bifB.toNat) (hd : ∀ l, (s.link l).dlup = false) :
    s.portCfg (.core n) v = { s with hpx := { s.hpx with
      openB := BitVec.ofNat 4 (fld v 19 16), cxlB := BitVec.ofNat 4 (fld v 11 8) } } := by
  have hcxl : fld v 11 8 &&& 15 = fld v 11 8 := fld_and_ports v 8
  have hbif : s.hpx.bifB.toNat &&& 15 = s.hpx.bifB.toNat := hb ▸ fld_and_ports v 0
  have hnone (o c b : BitVec 4) (k : Nat) :
      (({ s with hpx := { s.hpx with openB := o, cxlB := c, bifB := b } } : State).link k).dlup = false := hd k
  rw [State.portCfg, ha.write]
  simp [ho, hb, hcxl, hbif, hnone, forAll]

end Links

/-- Settles O30: each command's premises are the ones under which its effect takes place. -/
theorem hostLinks : Obligations.HostLinks := by
  refine ⟨?perstLow, ?perstHigh, ?surprise, ?hotReset, ?disable, ?up, ?drained, ?release, ?ports⟩
  case perstLow =>
    intro s l hp hx
    exact done_eq (State.perstAssert_resets hp hx)
  case perstHigh =>
    intro s l hp hx u hi
    exact done_eq (State.perstDeassert_trains hp hx hi)
  case surprise =>
    intro s l hd
    exact done_eq (State.linkDown_surprise hd)
  case hotReset =>
    intro s l hd
    exact done_eq (State.linkDown_hotReset hd)
  case disable =>
    intro s l hd
    exact done_eq (State.linkDown_disabled hd)
  case up =>
    intro s l w cxl hx hd hp hst hi hw hm hf ho u
    exact done_eq (ComesUp.linkUp_ready ⟨hx, hd, hp, hst, hi, hw, hm⟩ cxl hf ho)
  case drained =>
    intro s l hf hd he
    exact done_eq (State.drainDone_waits hf hd he)
  case release =>
    intro s w l ha hw hd hn hf
    exact done_eq (State.linkRelease_thaws ha hw hd hn hf)
  case ports =>
    intro s n v ha ho hb hd
    exact done_eq (State.portCfg_opens ha ho hb hd)

end Sys2Proof.Machine

/-! ## Power, errors, completions and interrupts of the host ports (R408, R411, R417 to R423) -/

namespace Sys2Proof.Machine

section Power

variable {s : State} {f : FnId} {l : Nat}

theorem State.d3hotEnter_present (hp : (s.fn f).present = true) :
    execD3hotEnter f s = .next ((s.updFn f (fun x => { x with d3hot := true })).wakeCheck f).settle :=
  done_eq (if_pos hp)

/-- A function that returns to D0 with nothing held lets its port go on. -/
theorem State.d0Return_resumes (hd : (s.fn f).d3hot = true)
    (hm : (s.link (s.fnLink f)).dheld.filter (fun m => m.fnOf == some f) = []) :
    s.d0Return f = ((s.updFn f (fun x => { x with d3hot := false })).updLink (s.fnLink f) (fun k => { k with
      dheld := k.dheld.filter (fun m => m.fnOf != some f) })).portResume (s.fnLink f) := by
  simp only [State.d0Return, hd, hm, forAll, List.foldl_nil, Bool.not_true, Bool.false_eq_true, if_false]

/-- Two changes of a place of a list are one where they agree on what stands there. -/
theorem modAt_congr {α : Type} {g h : α → α} {d : α} : ∀ {xs : List α} {n : Nat}, g (xs.getD n d) = h (xs.getD n d) →
    modAt g xs n = modAt h xs n
  | [], _, _ => rfl
  | _ :: xs, 0, e => congrArg (· :: xs) e
  | x :: _, _ + 1, e => congrArg (x :: ·) (modAt_congr e)

theorem State.updLink_congr {g h : Link → Link} (e : g (s.link l) = h (s.link l)) : s.updLink l g = s.updLink l h := by
  rw [State.updLink, modAt_congr e, ← State.updLink]

/-- A link that is up and holds nothing answers PME_Turn_Off, and no request fails. -/
theorem State.pmeTurnOff_unheld (hd : (s.link l).dlup = true) (hh : (s.link l).dheld = []) :
    s.pmeTurnOff l = (s.updLink l (fun k => { k with dheld := [] })).emit (.pmeToAck l) := by
  simp only [State.pmeTurnOff, hd, hh, forAll, List.filterMap_nil, List.foldl_nil, Bool.not_true, Bool.false_eq_true, if_false]
  exact congrArg (State.emit · (.pmeToAck l)) (State.updLink_congr (by simp only [hh, List.filter_nil]))

/-- What makes a function send its PME message again: its status stands and may be sent, it waits in D3hot for something to
do, and 100 ms have passed. -/
theorem State.pmeResend_due (hs : (s.fn f).pmeSt = true) (he : (s.fn f).pmeEn = true) (hd : (s.fn f).d3hot = true)
    (hw : s.wakes f = true) (ht : 100000000 ≤ s.since (s.fn f).pmeAt) :
    s.pmeResend f = (s.updFn f (fun x => { x with pmeAt := s.now })).emit (.pmPme f) :=
  if_pos ⟨hs, he, hd, hw, ht⟩

theorem State.aspmL1_idle (hst : (s.link l).st = .l0 ∨ (s.link l).st = .l0p) (ha : (s.link l).aspm = true)
    (hp : s.linkPromised l = false) (hb : s.linkBusy l = false) :
    s.aspmL1 l = (s.updLink l (fun x => { x with st := .l1 })).emit (.l1Req l) :=
  if_pos ⟨hst, ha, by simp [hp], by simp [hb]⟩

/-- Work of a promised kind keeps a link awake (R421). -/
theorem State.aspmL1_promised (hp : s.linkPromised l = true) : s.aspmL1 l = s :=
  if_neg fun ⟨_, _, hnot, _⟩ => by simp [hp] at hnot

theorem State.l1Exit_full (hst : (s.link l).st = .l1) (hw : (s.link l).width = (s.link l).full) :
    s.l1Exit l = s.updLink l (fun x => { x with st := .l0 }) := by
  simp only [State.l1Exit, hst, hw, if_true]

/-- A link that need not keep its lanes narrows to a width that HPX_LPM allows. -/
theorem State.narrow_allowed {w : BitVec 5} (hst : (s.link l).st = .l0 ∨ (s.link l).st = .l0p) (he : (s.link l).l0pEn = true)
    (hr : s.rf .hpxLpm 1 0 [l] = 2) (hw : w = 4 ∨ w = 8) (hlt : w.toNat < (s.link l).width.toNat)
    (hp : s.linkPromised l = false) :
    s.narrow l w = (s.updLink l (fun x => { x with st := .l0p, width := w })).emit (.widthReq l w) := by
  have hmin : s.l0pMin l = some 4 := by simp only [State.l0pMin, hr]
  have hwidth : 4 ≤ w.toNat ∧ [8, 4, 2].contains w.toNat = true := by
    rcases hw with rfl | rfl <;> decide
  rw [State.narrow, hmin]
  exact if_pos ⟨hst, he, hwidth.1, hlt, hwidth.2, by simp [hp]⟩

theorem State.widen_narrow (hst : (s.link l).st = .l0p) :
    s.widen l = (s.updLink l (fun x => { x with st := .l0, width := (s.link l).full })).emit (.widthReq l (s.link l).full) :=
  if_pos hst

/-- A partner that asks for L1 gets it. -/
theorem State.partnerPower_l1 (w : BitVec 5) (hst : (s.link l).st = .l0 ∨ (s.link l).st = .l0p) :
    s.partnerPower l 4 w = s.updLink l (fun x => { x with st := .l1 }) :=
  (if_neg (by simp [hst])).trans (if_pos rfl)

end Power

section Errors

variable {s : State} {l : Nat}

theorem State.linkError_corr (hd : (s.link l).dlup = true) :
    s.linkError l .corr = (s.emit (.err l 0)).raise { src := Src.hpxCorr l } :=
  if_neg (by simp [hd])

theorem State.linkError_poisonIn (hd : (s.link l).dlup = true) :
    s.linkError l .poisonIn = (s.emit (.err l 1)).raise { src := Src.hpxPoisonIn l, aer := some 12 } :=
  if_neg (by simp [hd])

/-- An uncorrectable error that leaves the link up is recorded with its AER bit. -/
theorem State.linkError_uncorr {b : BitVec 8} (hd : (s.link l).dlup = true) (hb : b.toNat ∈ uncorrBits) :
    s.linkError l (.uncorr b) = (s.emit (.err l 2)).raise { src := Src.hpxUncorr l, aer := some b } :=
  (if_neg (by simp [hd])).trans (if_pos (List.contains_iff_mem.mpr hb))

variable {f : FnId}

theorem State.inboundBad_recorded (a : DWord) (hd : (s.link (s.fnLink f)).dlup = true)
    (hf : (s.link (s.fnLink f)).frozen = false) :
    s.inboundBad f false a = (s.emit (.unsupported f)).raise
      { src := Src.hpxUrIn (s.fnLink f), who := .host f, addr := a, acc := .read, akind := .host } := by
  simp only [State.inboundBad, hd, hf, Bool.not_true, Bool.false_eq_true, if_false]

theorem State.inboundBad_frozen (a : DWord) (hd : (s.link (s.fnLink f)).dlup = true) (hf : (s.link (s.fnLink f)).frozen = true) :
    s.inboundBad f false a = s.emit (.unsupported f) := by
  simp only [State.inboundBad, hd, hf, Bool.not_true, Bool.false_eq_true, if_false, if_true]

end Errors

section Completions

variable {s : State} {id : Nat} {r : Req} {t : Trans} {f : FnId}

theorem State.hostComplete_data {bs : List Byte} (ha : s.hostAsked id = some (r, t, f)) (hl : bs.length = r.len) :
    s.hostComplete id bs false true = (s.finishRead r t bs (List.replicate bs.length false)).relaunch := by
  simp only [State.hostComplete, ha, hl, ne_eq, not_true_eq_false, Bool.not_true, Bool.false_eq_true, if_false]

theorem State.hostComplete_error (bs : List Byte) (ep : Bool) (ha : s.hostAsked id = some (r, t, f)) :
    s.hostComplete id bs ep false = s.hostFail id r t f 15 := by
  simp only [State.hostComplete, ha, Bool.not_false, if_true]

theorem State.hostTimeout_asked (ha : s.hostAsked id = some (r, t, f)) : s.hostTimeout id = s.hostFail id r t f 14 := by
  rw [State.hostTimeout, ha]

end Completions

section Interrupts

variable {s : State} {f : FnId} {l : Nat}

/-- A vector that a function unmasks keeps its address and data, and what is pending is sent. -/
theorem State.msixUnmask_reaches (v : Nat) (h : Reaches s f) :
    let old := ((s.fn f).vectors.look v).getD (0, 0, true)
    s.msixUnmask f v =
      (s.updFn f (fun x => { x with vectors := x.vectors.put v (old.1, old.2.1, false) })).msixFlush f :=
  h.serve true _ _ _ _ false

/-- A control core marks what it has seen of a link's INTx. -/
theorem State.intxSeen_core {n : CoreId} (v : Word) (h : Arrives s (.core n) (regAddr .hpxIntxSeen [l])) :
    s.intxSeen (.core n) l v = (s.updLink l (fun k => { k with seen := v })).intaUpdate l :=
  h.write _

theorem State.intDisable_present (d : Bool) (hp : (s.fn (State.linkPf l)).present = true) :
    s.intDisable l d = (s.updFn (State.linkPf l) (fun x => { x with intDis := d })).intaUpdate l :=
  if_neg (by simp [hp])

end Interrupts

/-- Settles O31: each command's premises are the ones under which its effect takes place. -/
theorem hostPowerAndErrors : Obligations.HostPowerAndErrors := by
  refine ⟨⟨?d3hot, ?d0, ?turnOff, ?resend, ?aspm, ?promised, ?l1Exit, ?narrow, ?widen, ?partner⟩,
    ?corr, ?poison, ?uncorr, ?recorded, ?frozen, ?data, ?status, ?timeout, ?vector, ?intx, ?intDisable⟩
  case d3hot =>
    intro s f hp
    exact State.d3hotEnter_present hp
  case d0 =>
    intro s f hd mine u hm
    exact done_eq (State.d0Return_resumes hd hm)
  case turnOff =>
    intro s l hd hh
    exact done_eq (State.pmeTurnOff_unheld hd hh)
  case resend =>
    intro s f hs he hd hw ht
    exact done_eq (State.pmeResend_due hs he hd hw ht)
  case aspm =>
    intro s l hst ha hp hb
    exact done_eq (State.aspmL1_idle hst ha hp hb)
  case promised =>
    intro s l hp
    exact done_eq (State.aspmL1_promised hp)
  case l1Exit =>
    intro s l hst hw
    exact done_eq (State.l1Exit_full hst hw)
  case narrow =>
    intro s l w hst he hr hw hlt hp
    exact done_eq (State.narrow_allowed hst he hr hw hlt hp)
  case widen =>
    intro s l hst
    exact done_eq (State.widen_narrow hst)
  case partner =>
    intro s l w hst
    exact done_eq (State.partnerPower_l1 w hst)
  case corr =>
    intro s l hd
    exact done_eq (State.linkError_corr hd)
  case poison =>
    intro s l hd
    exact done_eq (State.linkError_poisonIn hd)
  case uncorr =>
    intro s l b hd hb
    exact done_eq (State.linkError_uncorr hd hb)
  case recorded =>
    intro s f a hd hf
    exact done_eq (State.inboundBad_recorded a hd hf)
  case frozen =>
    intro s f a hd hf
    exact done_eq (State.inboundBad_frozen a hd hf)
  case data =>
    intro s id bs r t f ha hl
    exact done_eq (State.hostComplete_data ha hl)
  case status =>
    intro s id bs ep r t f ha
    exact done_eq (State.hostComplete_error bs ep ha)
  case timeout =>
    intro s id r t f ha
    exact done_eq (State.hostTimeout_asked ha)
  case vector =>
    intro s f v h old
    exact done_eq (State.msixUnmask_reaches v.toNat h)
  case intx =>
    intro s n l v h
    exact done_eq (State.intxSeen_core v h)
  case intDisable =>
    intro s l d hp
    exact done_eq (State.intDisable_present d hp)

end Sys2Proof.Machine

/-! ## Pages that change their home (R482 to R486) -/

namespace Sys2Proof.Machine

section PageMoves

variable {s : State} {v : Vdix} {m : PageMove} {k : Nat} {leaf : PTE}

/-- A mapped page of this package moves to a free home in this package. -/
theorem State.moveStart_mapped {a : Nat} {cls : Byte} {idx : BitVec 24} {off : Nat} (hr : s.runs Blk.bnd = true)
    (hv : (s.vdev v).vv = true) (hst : (s.vdev v).st = .bound) (hl : s.s2leaf v a = some (k, leaf))
    (hm : s.moveOf v (pageBase a (Pte.lsize leaf)) = none) (hn : s.bnd.moves.length < 512) (hts : Pte.ts leaf = Ts.mapped)
    (hmv : movable leaf = true) (hf : s.homeFree v leaf cls idx off = true) (hc : cls ≠ 7) :
    s.moveStart v a cls idx off = s.setMove v (pageBase a (Pte.lsize leaf))
      (some { vdix := v, ca := pageBase a (Pte.lsize leaf), leaf := leaf, cls := cls, idx := idx, off := off }) := by
  have hserves : ¬ ((!s.runs Blk.bnd) = true ∨ (!(s.vdev v).vv) = true ∨ (s.vdev v).st ≠ .bound) := by simp [hr, hv, hst]
  have hroom : ¬ ((s.moveOf v (pageBase a (Pte.lsize leaf))).isSome = true ∨ s.bnd.moves.length ≥ moveMax) := by
    simp [hm, moveMax, hn]
  have hzero : ¬ (Pte.ts leaf = Ts.zero ∨ Pte.ts leaf = Ts.host) := by rw [hts]; decide
  have hflash : Pte.ts leaf ≠ Ts.flashed := by rw [hts]; decide
  simp only [State.moveStart, if_neg hserves, hl, if_neg hroom, if_neg hzero, if_neg hflash, hmv, hf, if_neg hc, Bool.and_self,
    if_true]

@[simp] theorem sameMapping_self (e : PTE) : sameMapping e e = true := beq_self_eq_true _

/-- Step 3 of a move within this package, whose leaf has stayed as it was: the leaf is RELAY, and its invalidation begins. -/
theorem State.moveCopied_relays {ca : Nat} (hm : s.moveOf v ca = some m) (hst : m.step = 1)
    (hl : s.s2leaf v ca = some (k, m.leaf)) (hb : Pte.ts m.leaf ≠ Ts.busy) (hi : s.xlt.invs = []) (hw : s.xlt.invWait = [])
    (hmv : movable m.leaf = true) (hc : m.cls ≠ 7) :
    s.moveCopied v ca = ((s.setMove v ca (some { m with step := 2, sent := [] })).putPte k
      (Pte.setTs (Pte.setPra m.leaf m.cls.toNat m.idx.toNat m.off) Ts.relay)).invInternal .s2page v.toNat (BitVec.ofNat 64 ca)
        (.pageMove v ca) := by
  have hgo : ¬ (Pte.ts m.leaf = Ts.busy ∨ ((s.xlt.invs ++ s.xlt.invWait).any (fun i => i.after == .pageMove v ca)) = true) := by
    simp [hb, hi, hw]
  simp only [State.moveCopied, hm, hst, hl, if_neg hgo, hmv, sameMapping_self, if_neg hc, ne_eq, not_true_eq_false, Bool.not_true,
    Bool.false_eq_true, if_false]

/-- Steps 4 and 5 of a move within this package: the leaf maps the new home, and what the HTU holds for the page follows. -/
theorem State.moveClose_maps {ca : Nat} (hm : s.moveOf v ca = some m) (hst : m.step = 3)
    (hl : s.s2leaf v ca = some (k, leaf)) (hts : Pte.ts leaf = Ts.relay) (hc : m.cls ≠ 7) :
    let new := s.withLp (Pte.setTs leaf Ts.mapped)
    let u := ((((s.copyPage m.leaf m (Pte.lp new)).follow m.leaf m).putPte k new).leaveHome v m.leaf)
    s.moveClose v ca = ((({ u with bnd := { u.bnd with cntMove := satInc u.bnd.cntMove } } : State).setMove v ca none).relayAgain
      ).removeCheck v := by
  simp only [State.moveClose, hm, hst, hl, hts, if_neg hc, ne_eq, not_true_eq_false, if_false]

/-- A stream that fails gives a page in its relay window back to its old home; the third failure ends the move. -/
theorem State.moveFail_relay {ca : Nat} (hm : s.moveOf v ca = some m) (hl : s.s2leaf v ca = some (k, leaf))
    (hts : Pte.ts leaf = Ts.relay) :
    let u := (s.putPte k m.leaf).relayAgain
    s.moveFail v ca = if 3 ≤ m.fails + 1 then (u.setMove v ca none).raise
        { src := Src.bndMoveFail, addr := BitVec.ofNat 64 ca, akind := .ca, synd := BitVec.ofNat 160 v.toNat }
      else u.setMove v ca (some { m with step := 1, fails := m.fails + 1, sent := [] }) := by
  simp only [State.moveFail, hm, hl, if_pos hts, ge_iff_le]

end PageMoves

/-- Settles O26: each command's premises are the checks of its step. -/
theorem pageMoves : Obligations.PageMoves := by
  refine ⟨?starts, ?copied, ?closes, ?fails⟩
  case starts =>
    intro s v a cls idx off k leaf hr hv hst hl hm hn hts hmv hf hc
    exact done_eq (State.moveStart_mapped hr hv hst hl hm hn hts hmv hf hc)
  case copied =>
    intro s v ca m k hm hst hl hb hi hw hmv hc
    exact done_eq (State.moveCopied_relays hm hst hl hb hi hw hmv hc)
  case closes =>
    intro s v ca m k leaf hm hst hl hts hc new u
    exact done_eq (State.moveClose_maps hm hst hl hts hc)
  case fails =>
    intro s v ca m k leaf hm hl hts u
    exact done_eq (State.moveFail_relay hm hl hts)

end Sys2Proof.Machine

/-! ## Relay packets (R44, R461 to R468, R485) -/

namespace Sys2Proof.Machine

section Responses

variable {s : State} {id : Nat} {r : Req} {t : Trans}

theorem State.readResp_read {bs : List Byte} (poison : Bool) (hr : s.fabricReq id = some (r, t)) (hrd : r.rd = true)
    (hwr : r.wr = false) (hl : bs.length = r.len) :
    s.readResp id bs poison = ((s.unackDrop id).completeRead r bs (List.replicate r.len poison)).reqEnded r := by
  have hfits : ¬ ((!r.rd) = true ∨ r.wr = true ∨ bs.length ≠ r.len) := by simp [hrd, hwr, hl]
  simp only [State.readResp, hr, if_neg hfits]

/-- The old value of an atomic that is no queue's comes back as a read's data. -/
theorem State.atomResp_unqueued (old : DWord) (hr : s.fabricReq id = some (r, t)) (hrd : r.rd = true) (hwr : r.wr = true)
    (hq : r.queue = none) :
    s.atomResp id old =
      ((s.unackDrop id).completeRead r (leBytes r.len old.toNat) (List.replicate r.len false)).reqEnded r := by
  have hatom : ¬ ((!r.rd) = true ∨ (!r.wr) = true) := by simp [hrd, hwr]
  simp only [State.atomResp, hr, if_neg hatom, hq, Option.isSome_none, Bool.false_eq_true, if_false]

end Responses

/-! Reports about packets of a flow that is not being reset. -/

section Reports

variable {s : State} {k : FlowKey} {seq : Word} {f : TxFlow} {u : Unacked}

/-- An ACK makes the writes of a flow up to its SEQ done. -/
theorem State.relayAck_flow (hf : s.txFlow? k = some f) (hn : f.resetting = false) :
    let hit := f.unacked.filter (fun u => seqFrom seq u.seq && s.isWrite u)
    s.relayAck k seq = forAll hit (s.updTx k (fun g => { g with
      unacked := g.unacked.filter (fun u => !hit.contains u) })) State.fabricDone := by
  simp only [State.relayAck, hf, hn, Bool.false_eq_true, if_false]

theorem State.relayNack_queueFlow (reason : Byte) (hf : s.txFlow? k = some f) (hp : f.packet seq = some u)
    (hn : f.resetting = false) (hd : k.dev = false) :
    s.relayNack k seq reason = s.fabricFail u.req Code.remoteNack reason := by
  simp only [State.relayNack, hf, hp, hn, hd, Bool.not_false, Bool.false_eq_true, if_false, if_true]

theorem State.relayNack_deviceFlow (reason : Byte) (hf : s.txFlow? k = some f) (hp : f.packet seq = some u)
    (hn : f.resetting = false) (hd : k.dev = true) :
    s.relayNack k seq reason = (forAll (f.unacked.filter (fun x => seqFrom x.seq seq)) s (fun t x =>
      t.fabricFail x.req Code.remoteNack reason)).flowReset k := by
  simp only [State.relayNack, hf, hp, hn, hd, Bool.not_true, Bool.false_eq_true, if_false]

theorem State.relayRetry_pauses (hf : s.txFlow? k = some f) (hp : f.packet seq = some u) (hn : f.resetting = false) :
    s.relayRetry k seq = s.updTx k (fun g => { g with
      paused := true
      unacked := g.unacked.map (fun u => if seqFrom u.seq seq then { u with retried := true } else u) }) := by
  simp only [State.relayRetry, hf, hp, hn, Option.isNone_some, Bool.false_eq_true, or_self, if_false]

/-- A flow that RESUME names goes on, and its packets from the SEQ on are sent again. -/
theorem State.relayResume_paused (hf : s.txFlow? k = some f) (hn : f.resetting = false) (hp : f.paused = true) :
    let again (u : Unacked) : Unacked := if seqFrom u.seq seq then { u with retried := false, sent := s.now, resends := 0 } else u
    let g : TxFlow := { f with paused := false, unacked := f.unacked.map again }
    s.relayResume k seq = forAll ((f.unacked.map again).filter (fun u => seqFrom u.seq seq)) (s.putTx g)
      (fun t u => t.sendPacket g u) := by
  simp only [State.relayResume, hf, hn, hp, Bool.not_true, Bool.false_eq_true, or_self, if_false]

theorem State.flowResetAck_resetting (hf : s.txFlow? k = some f) (hn : f.resetting = true) :
    s.flowResetAck k = s.flowResetEnd k := by
  simp only [State.flowResetAck, hf, hn, if_true]

/-- A write without a report is sent again at 6 us and at 12 us. -/
theorem State.writeResend_due {l : OLink} (hf : s.txFlow? k = some f) (hp : f.packet seq = some u) (hr : u.retried = false)
    (hn : u.resends < 2) (ht : 6000 * (u.resends + 1) ≤ s.since u.sent) (hw : s.isWrite u = true) (hl : f.link = some l)
    (ho : s.runs Blk.ofp = true) :
    let more (x : Unacked) : Unacked := if x.seq = seq then { x with resends := x.resends + 1 } else x
    s.writeResend k seq =
      ((s.updTx k (fun g => { g with unacked := g.unacked.map more })).sendPacket f u).countRetx 1 := by
  have hdue : ¬ (u.retried = true ∨ u.resends ≥ 2 ∨ s.since u.sent < 6000 * (u.resends + 1) ∨
      (!(f.resetting || s.isWrite u)) = true ∨ f.link.isNone = true ∨ (!s.runs Blk.ofp) = true) := by
    simp [hr, hw, hl, ho, Nat.not_le.mpr hn, Nat.not_lt.mpr ht]
  simp only [State.writeResend, hf, hp, if_neg hdue]

/-- A write without a report fails at 20 us, with PARTITIONED where no route to its package is up. -/
theorem State.reportTimeout_write (hf : s.txFlow? k = some f) (hp : f.packet seq = some u) (hr : u.retried = false)
    (ht : 20000 ≤ s.since u.sent) (hn : f.resetting = false) (hw : s.isWrite u = true) :
    let cut := (s.routeUp k.pkg).isEmpty
    s.reportTimeout k seq = ({ s with ofp := { s.ofp with cntNorpt := satInc s.ofp.cntNorpt } } : State).fabricFail u.req
      (if cut then Code.partitioned else Code.remoteNack) (if cut then 0 else Rsn.noReport) := by
  have hdue : ¬ (u.retried = true ∨ s.since u.sent < 20000) := by simp [hr, ht]
  simp only [State.reportTimeout, hf, hp, if_neg hdue, hn, hw, Bool.true_or, Bool.not_true, Bool.false_eq_true, if_false, if_true]

theorem State.reportTimeout_routed (hf : s.txFlow? k = some f) (hp : f.packet seq = some u) (hr : u.retried = false)
    (ht : 20000 ≤ s.since u.sent) (hn : f.resetting = false) (hw : s.isWrite u = true) (hup : s.routeUp k.pkg ≠ []) :
    s.reportTimeout k seq = ({ s with ofp := { s.ofp with cntNorpt := satInc s.ofp.cntNorpt } } : State).fabricFail u.req
      Code.remoteNack Rsn.noReport := by
  simp only [State.reportTimeout_write hf hp hr ht hn hw, List.isEmpty_eq_false_iff.mpr hup, Bool.false_eq_true, if_false]

theorem State.reportTimeout_partitioned (hf : s.txFlow? k = some f) (hp : f.packet seq = some u) (hr : u.retried = false)
    (ht : 20000 ≤ s.since u.sent) (hn : f.resetting = false) (hw : s.isWrite u = true) (hup : s.routeUp k.pkg = []) :
    s.reportTimeout k seq = ({ s with ofp := { s.ofp with cntNorpt := satInc s.ofp.cntNorpt } } : State).fabricFail u.req
      Code.partitioned 0 := by
  simp only [State.reportTimeout_write hf hp hr ht hn hw, hup, List.isEmpty_nil, if_true]

end Reports

/-! Requests of other packages. -/

section Ingress

variable {s u : State} {l : OLink} {dst : PkgId} {k : FlowKey} {seq svdid : Word} {ca : BitVec 56} {len : Nat} {typ : Byte}

/-- A request that has come over a link that carries Relay data and stays within its 4 KiB is looked at. -/
theorem relayRequest_guard (hin : s.relayIn l = true) (h0 : 0 < len) (hl : len ≤ 4096 - ca.toNat % 4096) :
    ¬ ((!s.relayIn l) = true ∨ len = 0 ∨ len > 4096 - ca.toNat % 4096) := by
  simp [hin, Nat.ne_of_gt h0, Nat.not_lt.mpr hl]

/-- A request for this package that its flow accepts becomes an access that stage 2 alone translates. -/
theorem State.relayRequest_accepts {v : Vdix} (p : Purpose) (data : List Byte) (poison : Bool) (hops : Nat)
    (hin : s.relayIn l = true) (hd : s.ofp.pkg = some dst) (ha : s.rxAccept k seq (typ == 0) = (true, u))
    (hv : s.svdev svdid = some v) (h0 : 0 < len) (hl : len ≤ 4096 - ca.toNat % 4096) :
    s.relayRequest l dst k seq svdid ca len typ p data poison hops = ({ u with nextId := u.nextId + 1 } : State).addReq
      { id := u.nextId, who := .fabric l, ctx := k.ctx, s2only := some v, addr := ca.zeroExtend 64, len := len
        rd := decide (typ ≠ 0), wr := decide (typ ≠ 1), purpose := p, poison := poison, started := s.now } := by
  simp only [State.relayRequest, if_neg (relayRequest_guard hin h0 hl), hd, ha, hv, State.newId, ne_eq, not_true_eq_false,
    Bool.not_true, Bool.false_eq_true, if_false]

/-- A request for another package goes on over the link that its flow has there. -/
theorem State.relayRequest_forwards {out : OLink} (p : Purpose) (data : List Byte) (poison : Bool) {hops : Nat}
    (hin : s.relayIn l = true) (hd : s.ofp.pkg ≠ some dst) (h0 : 0 < len) (hl : len ≤ 4096 - ca.toNat % 4096) (hh : hops ≠ 0)
    (ho : s.runs Blk.ofp = true) (hc : State.chooseFrom k (s.routeUp dst) = some out) :
    s.relayRequest l dst k seq svdid ca len typ p data poison hops =
      (s.updOlink out (fun y => { y with frames := y.frames + 1 })).emit
        (.relay typ k dst seq (ca.zeroExtend 64) data poison) := by
  have hgo : ¬ (hops = 0 ∨ (some out).isNone = true ∨ (!s.runs Blk.ofp) = true) := by simp [hh, ho]
  simp only [State.relayRequest, if_neg (relayRequest_guard hin h0 hl), if_pos hd, State.forward, hc, if_neg hgo,
    State.countFrame]

/-- The reset of a flow without an entry frees no place for a waiting flow, and is answered. -/
theorem State.flowResetIn_unknown (hin : s.relayIn l = true) (hn : s.ofp.rx.any (fun x => x.key == k) = false) :
    s.flowResetIn l k = ({ s with ofp := { s.ofp with rx := s.ofp.rx.filter (fun x => x.key != k) } } : State).emit
      (.relay 10 k k.pkg 0 0 [] false) := by
  simp only [State.flowResetIn, hin, hn, Bool.not_true, Bool.false_eq_true, if_false]

/-- The entry of a flow that has been idle for 1 ms goes. -/
theorem State.flowIdle_due {x : RxFlow} (hx : s.ofp.rx.find? (fun x => x.key == k) = some x) (hf : x.refusing = false)
    (hr : x.retried = none) (ht : 1000000 ≤ s.since x.idleAt) :
    s.flowIdle k = ({ s with ofp := { s.ofp with rx := s.ofp.rx.filter (fun y => y.key != k) } } : State).rxFreed := by
  have hidle : ¬ (x.refusing = true ∨ x.retried.isSome = true ∨ s.since x.idleAt < 1000000) := by simp [hf, hr, ht]
  simp only [State.flowIdle, hx, if_neg hidle]

end Ingress

/-- Settles O33: each report's premises are the ones under which it changes its flow, and each request's are the checks of the
ingress. -/
theorem relayPackets : Obligations.RelayPackets := by
  refine ⟨⟨?read, ?atomic, ?ack, ?nackQueue, ?nackDevice, ?retry, ?resume, ?resetAck, ?resend, ?unreported, ?cut⟩,
    ?writeIn, ?readIn, ?atomicIn, ?forwards, ?resetIn, ?idle⟩
  case read =>
    intro s id bs poison r t hr hrd hwr hl
    exact done_eq (State.readResp_read poison hr hrd hwr hl)
  case atomic =>
    intro s id old r t hr hrd hwr hq
    exact done_eq (State.atomResp_unqueued old hr hrd hwr hq)
  case ack =>
    intro s k seq f hf hn hit
    exact done_eq (State.relayAck_flow hf hn)
  case nackQueue =>
    intro s k seq code reason f u hf hp hn hd
    exact done_eq (State.relayNack_queueFlow reason hf hp hn hd)
  case nackDevice =>
    intro s k seq code reason f u hf hp hn hd
    exact done_eq (State.relayNack_deviceFlow reason hf hp hn hd)
  case retry =>
    intro s k seq f u hf hp hn
    exact done_eq (State.relayRetry_pauses hf hp hn)
  case resume =>
    intro s k seq f hf hn hp again g
    exact done_eq (State.relayResume_paused hf hn hp)
  case resetAck =>
    intro s k f hf hn
    exact done_eq (State.flowResetAck_resetting hf hn)
  case resend =>
    intro s k seq f u l hf hp hr hn ht hw hl ho more
    exact done_eq (State.writeResend_due hf hp hr hn ht hw hl ho)
  case unreported =>
    intro s k seq f u hf hp hr ht hn hw hup
    exact done_eq (State.reportTimeout_routed hf hp hr ht hn hw hup)
  case cut =>
    intro s k seq f u hf hp hr ht hn hw hup
    exact done_eq (State.reportTimeout_partitioned hf hp hr ht hn hw hup)
  case writeIn =>
    intro s u l dst k seq svdid ca bs poison hops v ⟨hin, hd, ha, hv⟩ h0 hl
    exact done_eq (State.relayRequest_accepts _ bs poison hops.toNat hin hd ha hv h0 hl)
  case readIn =>
    intro s u l dst k seq svdid ca n hops v ⟨hin, hd, ha, hv⟩ h0 hl
    exact done_eq (State.relayRequest_accepts _ [] false hops.toNat hin hd ha hv h0 hl)
  case atomicIn =>
    intro s u l dst k seq svdid ca op sg b cmp hops v ⟨hin, hd, ha, hv⟩ hl
    exact done_eq (State.relayRequest_accepts _ _ false hops.toNat hin hd ha hv (by decide) hl)
  case forwards =>
    intro s l out dst k seq svdid ca n hops hin hd h0 hl hh ho hc
    have hleft : hops.toNat ≠ 0 := fun h => hh (BitVec.eq_of_toNat_eq h)
    exact done_eq (State.relayRequest_forwards _ [] false hin hd h0 hl hleft ho hc)
  case resetIn =>
    intro s l k hin hn
    exact done_eq (State.flowResetIn_unknown hin hn)
  case idle =>
    intro s k x hx hf hr ht
    exact done_eq (State.flowIdle_due hx hf hr ht)

end Sys2Proof.Machine

/-! ## Optical links, routes and keys (R457 to R460, R468, R493, R530, R534, R593) -/

namespace Sys2Proof.Machine

section Links

variable {s : State} {l : OLink} {n : BitVec 4}

/-- Two changes of an optical link are one where they agree on the link's state. -/
theorem State.updOlink_congr {g h : OLinkSt → OLinkSt} (e : g (s.olink l) = h (s.olink l)) : s.updOlink l g = s.updOlink l h := by
  rw [State.updOlink, e, ← State.updOlink]

/-- A Relay link that carries traffic is no Ethernet link. -/
theorem OLinkSt.carries_not_ethUp {x : OLinkSt} (h : x.carries = true) : x.st ≠ .ethUp := by
  intro he
  simp [OLinkSt.carries, he] at h

theorem State.olinkDown_notDown (h : (s.olink l).st ≠ .down) :
    s.olinkDown l = (s.updOlink l (fun x => { x with st := .down, lanes := 0, frames := 0, oldKey := false })).moveFlows :=
  if_neg h

/-- A Relay link that keeps some of its lanes is degraded. -/
theorem State.laneLoss_degrades (hc : (s.olink l).carries = true) (h0 : n ≠ 0) (hl : n.toNat < (s.olink l).lanes.toNat) :
    s.laneLoss l n = s.updOlink l (fun y => { y with lanes := n, st := .degraded }) := by
  have hless : ¬ ((!((s.olink l).carries || (s.olink l).st == .ethUp)) = true ∨ n.toNat ≥ (s.olink l).lanes.toNat) := by
    simp [hc, hl]
  rw [State.laneLoss, if_neg hless, if_neg h0]
  exact State.updOlink_congr (by simp only [if_neg (OLinkSt.carries_not_ethUp hc)])

theorem State.olinkTrained_training (hm : s.olinkMode l = 1) (he : s.olinkExists l = true) (hst : (s.olink l).st = .training)
    (h0 : n ≠ 0) (hl : n.toNat ≤ s.olinkFull l) :
    s.olinkTrained l n = s.updOlink l (fun y => { y with st := .attesting, lanes := n, keyWait := false }) :=
  if_neg (by simpa [hm, he, hst, hl] using h0)

end Links

section Keys

variable {s : State} {l : OLink}

/-- A session with fresh keys begins. -/
theorem State.attested_pass (hst : (s.olink l).st = .attesting) (he : s.sec.entropy = true) (hf : s.sec.fuses = true) :
    s.attested l .pass = (s.updOlink l (fun y =>
      { y with st := if y.lanes.toNat < s.olinkFull l then .degraded else .up, txLap := s.lapStored true l.toNat, frames := 0
               keyUpdates := 0, oldKey := false, keyWait := false, updWait := false })).moveFlows := by
  simp only [State.attested, hst, he, hf, ne_eq, not_true_eq_false, Bool.not_true, Bool.false_eq_true, if_false]

/-- The key exchange waits while there is no entropy (R526). -/
theorem State.attested_waits (hst : (s.olink l).st = .attesting) (he : s.sec.entropy = false) (hf : s.sec.fuses = true) :
    s.attested l .pass = s.updOlink l (fun y => { y with keyWait := true }) := by
  simp only [State.attested, hst, he, hf, ne_eq, not_true_eq_false, Bool.not_true, Bool.not_false, Bool.false_eq_true, if_false,
    if_true]

theorem State.attested_fail (hst : (s.olink l).st = .attesting) :
    s.attested l .fail = s.raise { src := Src.ofpAttestFail l.toNat } := by
  simp only [State.attested, hst, ne_eq, not_true_eq_false, if_false]

theorem State.controlIn_carries (lap : Word) (hc : (s.olink l).carries = true) :
    s.controlIn l lap = s.updOlink l (fun x => { x with rxLap := lap, oldKey := true, oldKeyAt := s.now }) :=
  if_neg (by simp [hc])

/-- The old key goes 100 us after the new one came. -/
theorem State.oldKeyEnd_due (ho : (s.olink l).oldKey = true) (ht : 100000 ≤ s.since (s.olink l).oldKeyAt) :
    s.oldKeyEnd l = s.updOlink l (fun y => { y with oldKey := false }) :=
  if_neg (by simp [ho, ht])

theorem State.linkKeyUpdate_fresh (hc : (s.olink l).carries = true) (he : s.sec.entropy = true) :
    s.linkKeyUpdate l = (s.updOlink l (fun x => { x with
      frames := 0, keyUpdates := x.keyUpdates + 1, updWait := false })).emit (.keyUpdate l.toNat) := by
  simp only [State.linkKeyUpdate, hc, he, Bool.not_true, Bool.false_eq_true, if_false]

end Keys

section Ports

variable {s : State} {n : CoreId} {p : BitVec 4} {v : Nat}

/-- A control core may write a port's form where its mode and split go together. -/
theorem portForm_ok (hm : fld v 1 0 ≠ 3) (hs : fld v 3 2 ≠ 3) (he : fld v 1 0 = 2 → fld v 3 2 = 1) :
    (true && !decide (fld v 1 0 = 3 ∨ fld v 3 2 = 3 ∨ (fld v 1 0 = 2 ∧ fld v 3 2 ≠ 1))) = true := by
  have hgood : ¬ (fld v 1 0 = 3 ∨ fld v 3 2 = 3 ∨ (fld v 1 0 = 2 ∧ fld v 3 2 ≠ 1)) := by
    rintro (h | h | ⟨h, hne⟩)
    · exact hm h
    · exact hs h
    · exact hne (he h)
  simp [hgood]

/-- A write that keeps a port's form retrains nothing. -/
theorem State.ofpPortCfg_same (ha : Arrives s (.core n) (regAddr .ofpPortCfg [p.toNat])) (hm : fld v 1 0 ≠ 3)
    (hs : fld v 3 2 ≠ 3) (he : fld v 1 0 = 2 → fld v 3 2 = 1) (hr : s.rf .ofpPortCfg 3 0 [p.toNat] = fld v 3 0) :
    s.ofpPortCfg (.core n) p v = s := by
  simp only [State.ofpPortCfg]
  rw [portForm_ok hm hs he, ha.write, if_pos hr]

/-- A new form of a port is stored, its domains follow its mode, and its links train again where they exist and have power. -/
theorem State.ofpPortCfg_changed (ha : Arrives s (.core n) (regAddr .ofpPortCfg [p.toNat])) (hm : fld v 1 0 ≠ 3)
    (hs : fld v 3 2 ≠ 3) (he : fld v 1 0 = 2 → fld v 3 2 = 1) (hr : s.rf .ofpPortCfg 3 0 [p.toNat] ≠ fld v 3 0) :
    let u := forAll (ofpDomains p.toNat) (s.putReg .ofpPortCfg [p.toNat] (fld v 3 0)) (fun u d =>
      u.setDomain d (decide (fld v 1 0 ≠ 0)))
    let next (l : OLink) (x : OLinkSt) : OLinkSt :=
      { x with st := if u.olinkExists l ∧ fld v 1 0 ≠ 0 ∧ u.islandOn (ofpIsland p.toNat) then .training else .down, lanes := 0
               frames := 0, oldKey := false }
    s.ofpPortCfg (.core n) p v = (forAll (portLinks p.toNat) u (fun w l => w.updOlink l (next l))).moveFlows := by
  simp only [State.ofpPortCfg]
  rw [portForm_ok hm hs he, ha.write, if_neg hr]
  simp only [Bool.and_eq_true, decide_eq_true_eq]

end Ports

theorem State.routeUpdate_fits {s : State} {dst : PkgId} {ls : List OLink} {hops : BitVec 3} (ha : Authority s)
    (hl : ls.length ≤ 4) (hh : hops.toNat ≤ 6) :
    s.routeUpdate dst ls hops =
      ({ s with ofp := { s.ofp with routes := s.ofp.routes.put dst.toNat (ls, hops) } } : State).moveFlows :=
  (ha.run _).trans (if_neg (by omega))

end Sys2Proof.Machine

/-! ## Time and Ethernet (R469 to R472, R481) -/

namespace Sys2Proof.Machine

section Time

variable {s : State} {l : OLink} {off : BitVec 16}

/-- After the first lock PTP steps the time base no more. -/
theorem State.ptpIn_again (gm : Bool) (step : DWord) (hc : (s.olink l).carries = true) (he : s.ofp.everLocked = true) :
    s.ptpIn l off gm step = ({ s with ofp := { s.ofp with
      offset := off, gm := gm, locked := decide (off.toNat ≤ 50), everLocked := true, holdover := false } } :
      State).unsyncSet false := by
  simp only [State.ptpIn, hc, he, Bool.not_true, Bool.false_eq_true, and_false, Bool.true_or, if_false]

/-- The first offset within 50 ns locks and steps the time base. -/
theorem State.ptpIn_first (gm : Bool) (step : DWord) (hc : (s.olink l).carries = true) (he : s.ofp.everLocked = false)
    (ho : off.toNat ≤ 50) :
    s.ptpIn l off gm step = ({ s with
      now := s.now + step
      ofp := { s.ofp with offset := off, gm := gm, locked := true, everLocked := true, holdover := false } } :
      State).unsyncSet false := by
  simp only [State.ptpIn, hc, he, ho, decide_true, Bool.not_true, Bool.not_false, Bool.false_eq_true, and_self, Bool.or_true,
    if_false, if_true]

theorem State.ptpLost_holdover (hh : s.ofp.holdover = false) (he : s.ofp.everLocked = true) :
    s.ptpLost = { s with ofp := { s.ofp with holdover := true, locked := false, holdAt := s.now } } :=
  if_neg (by simp [hh, he])

/-- After 100 s of holdover every lease held is fenced. -/
theorem State.holdoverEnd_due (hh : s.ofp.holdover = true) (hu : s.ofp.unsync = false)
    (ht : 100000000000 ≤ s.since s.ofp.holdAt) :
    let held := (s.bnd.vdevs.filter (fun e => e.2.st == .bound && !e.2.grant.isHome && e.2.leaseExp != 0)).map
      (fun e => (BitVec.ofNat 8 e.1 : Vdix))
    s.holdoverEnd = forAll held (s.unsyncSet true) State.fenceVdev :=
  if_neg (by simp [hh, hu, ht])

end Time

section Ethernet

variable {s : State} {l : OLink}

theorem State.ethUp_training (hm : s.olinkMode l = 2) (he : s.olinkExists l = true) (hst : (s.olink l).st = .training) :
    s.ethUp l = s.updOlink l (fun y => { y with st := .ethUp, lanes := 4, pauseTill := 0 }) :=
  if_neg (by simp [hm, he, hst])

/-- A pause frame with quanta stops a link for 0.64 ns each. -/
theorem State.pfcPause_quanta {q : Nat} (hst : (s.olink l).st = .ethUp) (hq : q ≠ 0) :
    s.pfcPause l q = s.updOlink l (fun x => { x with pauseTill := s.after ((q * 16 + 24) / 25) }) := by
  simp only [State.pfcPause, hst, ne_eq, not_true_eq_false, if_neg hq, if_false]

theorem State.ethFrame_answered (fr : List Byte) (hst : (s.olink l).st = .ethUp) (hc : s.icu.cores.all Core.held = false) :
    s.ethFrame l fr = (s.drawBytes fr.length).2.emit (.frame l.toNat (s.drawBytes fr.length).1) :=
  if_neg (by simp [hst, hc])

theorem execRoceInboundRequest_ethUp (hst : (s.olink l).st = .ethUp) :
    execRoceInboundRequest l s = .next (s.emit (.roceNak l.toNat)).settle :=
  done_eq (if_pos hst)

end Ethernet

section Roce

variable {s : State} {slot : Nat} {c : Conn}

/-- An acknowledgement is a write's acceptance (R329). -/
theorem State.roceResponse_write {id : Nat} {r : Req} {t : Trans} (bs : List Byte) (hr : s.req? id = some r)
    (ht : r.tr = some t) (hc : t.cls = 9) (hp : r.phase = .sent) (hrd : r.rd = false) :
    s.roceResponse id bs = (s.updConn (fld t.idx.toNat 15 0) (fun c => { c with tries := 0 })).acceptWrite r t .ok := by
  simp only [State.roceResponse, hr, ht, hc, hp, hrd, ne_eq, not_true_eq_false, or_self, Bool.not_false, if_false, if_true]

/-- A connection in the error state fails what is in progress and gets its next generation. -/
theorem State.connError_connected (hc : s.ofp.conns.look slot = some c) :
    s.connError slot = (forAll (s.roceOut slot) s (fun u x =>
      ((u.failReq x.1 Code.remoteNack Rsn.remoteWrite).reqEnded x.2.1).raise (x.2.1.praFault x.2.2 Src.roceFail Rsn.remoteWrite
        Code.remoteNack))).updConn slot (fun c => { c with gen := c.gen + 1, tries := 0, cuts := 0 }) :=
  if_neg (by simp [hc])

/-- Requests without an answer are sent again up to the retry limit, at which the connection fails. -/
theorem State.roceRetry_unanswered (hc : s.ofp.conns.look slot = some c) (ho : s.roceOut slot ≠ []) :
    s.roceRetry slot = if c.tries < Config.roceRetryLimit then
        forAll (s.roceOut slot) (s.updConn slot (fun x => { x with tries := x.tries + 1 })) (fun t x => t.emit (.roce slot x.1))
      else s.connError slot := by
  have hout : (s.roceOut slot).isEmpty = false := List.isEmpty_eq_false_iff.mpr ho
  simp only [State.roceRetry, hc, hout, Bool.false_eq_true, if_false]
  by_cases hlt : c.tries < Config.roceRetryLimit
  · rw [if_pos hlt, if_neg (Nat.not_le.mpr hlt)]
  · rw [if_neg hlt, if_pos (Nat.not_lt.mp hlt)]

/-- A connection is made in a slot that holds none. -/
theorem State.connCreate_free {l : OLink} (ha : Authority s) (hm : s.olinkMode l = 2) (he : s.olinkExists l = true)
    (hc : s.ofp.conns.look slot = none) :
    s.connCreate slot l = { s with ofp := { s.ofp with conns := s.ofp.conns.put slot { link := l } } } := by
  rw [State.connCreate, ha.run, if_neg (by simp [hm, he]), if_neg (by simp [hc])]

end Roce

/-- Settles O34: each command's premises are the ones under which its effect takes place. -/
theorem opticalAndEthernet : Obligations.OpticalAndEthernet := by
  refine ⟨⟨?down, ?lanes, ?trained, ?attested, ?keyWaits, ?attestFails, ?control, ?oldKey, ?keyUpdate, ?sameForm, ?newForm,
    ?route, ?index⟩, ?ptpAgain, ?ptpFirst, ?syncLost, ?holdover, ?ethUp, ?roceAck, ?connError, ?retry, ?create, ?inbound,
    ?congestion, ?pause, ?frame⟩
  case down =>
    intro s l h
    exact done_eq (State.olinkDown_notDown h)
  case lanes =>
    intro s l n hc h0 hl
    exact done_eq (State.laneLoss_degrades hc h0 hl)
  case trained =>
    intro s l n hm he hst h0 hl
    exact done_eq (State.olinkTrained_training hm he hst h0 hl)
  case attested =>
    intro s l hst he hf
    exact done_eq (State.attested_pass hst he hf)
  case keyWaits =>
    intro s l hst he hf
    exact done_eq (State.attested_waits hst he hf)
  case attestFails =>
    intro s l hst
    exact done_eq (State.attested_fail hst)
  case control =>
    intro s l lap hc
    exact done_eq (State.controlIn_carries lap hc)
  case oldKey =>
    intro s l ho ht
    exact done_eq (State.oldKeyEnd_due ho ht)
  case keyUpdate =>
    intro s l hc he
    exact done_eq (State.linkKeyUpdate_fresh hc he)
  case sameForm =>
    intro s n p v ha hm hs he hr
    exact done_eq (State.ofpPortCfg_same ha hm hs he hr)
  case newForm =>
    intro s n p v ha hm hs he hr u next
    exact done_eq (State.ofpPortCfg_changed ha hm hs he hr)
  case route =>
    intro s dst ls hops ha hl hh
    exact done_eq (State.routeUpdate_fits ha hl hh)
  case index =>
    intro s p ha
    exact done_eq (ha.run _)
  case ptpAgain =>
    intro s l off gm step hc he
    exact done_eq (State.ptpIn_again gm step hc he)
  case ptpFirst =>
    intro s l off gm step hc he ho
    exact done_eq (State.ptpIn_first gm step hc he ho)
  case syncLost =>
    intro s hh he
    exact done_eq (State.ptpLost_holdover hh he)
  case holdover =>
    intro s hh hu ht held
    exact done_eq (State.holdoverEnd_due hh hu ht)
  case ethUp =>
    intro s l hm he hst
    exact done_eq (State.ethUp_training hm he hst)
  case roceAck =>
    intro s id bs r t hr ht hc hp hrd
    exact done_eq (State.roceResponse_write bs hr ht hc hp hrd)
  case connError =>
    intro s k c hc
    exact done_eq (State.connError_connected hc)
  case retry =>
    intro s k c hc ho
    exact done_eq (State.roceRetry_unanswered hc ho)
  case create =>
    intro s k l ha hm he hc
    exact done_eq (State.connCreate_free ha hm he hc)
  case inbound =>
    intro s l hst
    exact execRoceInboundRequest_ethUp hst
  case congestion =>
    intro s k
    exact done_eq rfl
  case pause =>
    intro s l n hst h0
    have hq : n.toNat ≠ 0 := fun h => h0 (BitVec.eq_of_toNat_eq h)
    exact done_eq (State.pfcPause_quanta hst hq)
  case frame =>
    intro s l fr hst hc
    exact done_eq (State.ethFrame_answered fr hst hc)

end Sys2Proof.Machine

/-! ## Every step ends settled, or only time has passed (R505, R511, R557, R568) -/

namespace Sys2Proof

open Machine

/-- A tick lets time pass, and ends settled where a block takes new values or a paused link goes on. -/
theorem Machine.State.tick_cases (s : State) : s.tick = { s with now := s.now + 1 } ∨ ∃ u : State, s.tick = u.settle := by
  unfold State.tick
  dsimp only
  split
  · exact .inl rfl
  · exact .inr ⟨_, rfl⟩

/-- A step that answers a next state only lets time pass, or ends settled. -/
theorem step_cases {s t : State} (h : step s = .next t) : t = { s with now := s.now + 1 } ∨ ∃ u : State, t = u.settle := by
  unfold step at h
  split at h
  case h_1 =>
    cases h
    exact s.tick_cases
  case h_2 c rest _ =>
    obtain ⟨_, _, settles⟩ := everyCommandAnswers
    exact .inr (settles c _ t h)

/-- A property that the end of every command establishes, and that does not turn on the time, is kept by every step. -/
theorem step_keeps {P : State → Prop} (settles : ∀ u : State, P u.settle) (later : ∀ s now, P s → P { s with now := now })
    {s t : State} (hs : P s) (h : step s = .next t) : P t := by
  obtain rfl | ⟨u, rfl⟩ := step_cases h
  · exact later s _ hs
  · exact settles u

/-- Neither the faults that wait nor the interrupt lines and their causes turn on the time. -/
theorem Settled.later (s : State) (now : DWord) (h : Settled s) : Settled { s with now := now } := h

/-- Which sources are enabled and pending, and which cores are eligible for them, does not turn on the time. -/
theorem TargetlessKnown.later (s : State) (now : DWord) (h : TargetlessKnown s) : TargetlessKnown { s with now := now } := h

/-- Settles O53: a command ends settled, and time alone changes no line, cause or fault. -/
theorem everyStepKeepsSettled : Obligations.EveryStepKeepsSettled :=
  fun _ _ => step_keeps State.settle_settled Settled.later

/-- Settles O54: the end of a command finds the sources without a target anew, and time alone makes no core eligible. -/
theorem everyStepKeepsTargetlessKnown : Obligations.EveryStepKeepsTargetlessKnown :=
  fun _ _ => step_keeps State.settle_targetless TargetlessKnown.later

end Sys2Proof

/-! ## A core's record (R506), and the operations of its starting block (R499 to R503) -/

namespace Sys2Proof.Machine

@[simp] theorem modAt_length {α : Type} (f : α → α) : ∀ (xs : List α) (n : Nat), (modAt f xs n).length = xs.length
  | [], _ => rfl
  | _ :: _, 0 => rfl
  | _ :: xs, n + 1 => congrArg (· + 1) (modAt_length f xs n)

theorem modAt_getD_self {α : Type} (f : α → α) (d : α) :
    ∀ {xs : List α} {n : Nat}, n < xs.length → (modAt f xs n).getD n d = f (xs.getD n d)
  | _ :: _, 0, _ => rfl
  | _ :: xs, n + 1, h => modAt_getD_self f d (xs := xs) (n := n) (Nat.lt_of_succ_lt_succ h)

@[simp] theorem State.updCore_cores_length (s : State) (n : Nat) (g : Core → Core) :
    (s.updCore n g).icu.cores.length = s.icu.cores.length :=
  modAt_length g s.icu.cores n

/-- A change of a core is what it is next read with. -/
theorem State.core_updCore_self (s : State) {n : Nat} (g : Core → Core) (h : n < s.icu.cores.length) :
    (s.updCore n g).core n = g (s.core n) :=
  modAt_getD_self g {} h

/-- A core that has operations in its starting block is one of the cores that ICU lists. -/
theorem State.core_listed {s : State} {n : Nat} (h : (s.core n).block ≠ []) : n < s.icu.cores.length := by
  by_contra hn
  exact h (by rw [State.core, List.getD_eq_default _ _ (Nat.le_of_not_lt hn)])

/-- The priority of a source is a register's. -/
theorem State.icuPrio_congr {s t : State} (h : t.regs = s.regs) : t.icuPrio = s.icuPrio := by
  funext src
  simp only [State.icuPrio, State.rf, State.reg, h]

section Issue

variable {s : State} {n : CoreId} (h : s.coreRuns n = true ∧ (s.core n.toNat).block.length < 8)

include h

/-- A coprocessor instruction issues on a core that runs and whose starting block has room. -/
theorem State.cpPort_issues (f : State → State) : s.cpPort n f = f s :=
  if_pos h

/-- An operation whose operands are in range enters the starting block. -/
theorem State.cpEnter_inRange {ok : Bool} (hok : ok = true) (op : CpOp) :
    s.cpEnter n ok op = s.updCore n.toNat (fun c => { c with block := c.block ++ [op] }) := by
  rw [State.cpEnter, State.cpPort_issues h, if_pos hok]

/-- An operation with an operand out of range gives code 1. -/
theorem State.cpEnter_outOfRange {ok : Bool} (hok : ok = false) (op : CpOp) : s.cpEnter n ok op = s.cpResult n 1 := by
  rw [State.cpEnter, State.cpPort_issues h, hok, if_neg Bool.false_ne_true]

theorem State.cpXlate_probes {x : DWord} (hx : x.toNat < 16384) (hr : s.runs Blk.xlt = true) (y : DWord) :
    s.cpXlate n x y = s.cpResult n (BitVec.ofNat 64 (s.probeWord (BitVec.ofNat 14 x.toNat) y.toNat false)) := by
  rw [State.cpXlate, State.cpPort_issues h]
  exact (if_pos hx).trans (if_pos hr)

end Issue

section Commit

variable {s : State} {n : CoreId}

/-- The oldest operation of the starting block leaves it as its target performs it. -/
theorem State.cpCommit_performs {op : CpOp} {rest : List CpOp} {t : State} (hr : s.coreRuns n = true)
    (hb : (s.core n.toNat).block = op :: rest)
    (hp : (s.updCore n.toNat (fun c => { c with block := rest })).cpPerform n op = some t) : s.cpCommit n = t := by
  simp only [State.cpCommit, hr, hb, hp, Bool.not_true, Bool.false_eq_true, if_false]

theorem State.falseStart_squashes (k : Nat) (hr : s.coreRuns n = true) :
    s.falseStart n k = s.updCore n.toNat (fun c => { c with block := c.block.eraseIdx k, fs := satInc c.fs }) :=
  if_pos hr

/-- A write that the core's address map refuses is recorded. -/
theorem State.ccBusErr_write {a : BitVec 40} {k : Nat} (hr : s.coreRuns n = true) (hp : s.ccPermits n a.toNat k true = false) :
    s.ccBusErr n a k true = s.raise
      { src := Src.ccBusErr, who := .core n, addr := BitVec.ofNat 64 a.toNat, acc := .write, akind := .ccpa } :=
  if_neg (by simp [hr, hp])

end Commit

/-! ## The end of an interrupt (R509) -/

section Eoi

variable {s : State} {n : CoreId} {src : Nat}

/-- The source leaves the core's active ones, and the port's result is 0. -/
theorem State.eoi_core (h : src ∈ (s.core n.toNat).active) (hn : n.toNat < s.icu.cores.length) :
    (s.eoi n src).core n.toNat = { s.core n.toNat with active := dropFrom (s.core n.toNat).active src, result := 0 } := by
  have hc := s.core_updCore_self (fun c => { c with active := dropFrom c.active src }) hn
  simp only [State.eoi, List.contains_iff_mem.mpr h, if_true]
  split <;> exact (State.core_updCore_self _ _ (by simpa using hn)).trans (congrArg (fun c : Core => { c with result := 0 }) hc)

@[simp] theorem State.eoi_regs (s : State) (n : CoreId) (src : Nat) : (s.eoi n src).regs = s.regs := by
  unfold State.eoi
  split
  · dsimp only
    split <;> rfl
  · rfl

/-- A level source whose cause is present becomes pending again. -/
theorem State.eoi_pends (h : src ∈ (s.core n.toNat).active) (hk : icuPulseKind src = false) (hc : src ∈ s.icu.causes) :
    src ∈ (s.eoi n src).icu.pend := by
  have hagain : (!icuPulseKind src && s.icu.causes.contains src) = true := by simp [hk, hc]
  simp only [State.eoi, List.contains_iff_mem.mpr h, hagain, if_true]
  exact (mem_addTo _ _ _).mpr (.inr rfl)

theorem State.eoi_inactive (h : src ∉ (s.core n.toNat).active) : s.eoi n src = s.cpResult n 7 :=
  if_neg (fun hc => h (List.contains_iff_mem.mp hc))

end Eoi

/-- A commit of CP.EOI on a core whose stores have their grants. -/
theorem State.cpCommit_eoi {s : State} {n : CoreId} {src : Nat} {rest : List CpOp} (hr : s.coreRuns n = true)
    (hb : (s.core n.toNat).block = .eoi src :: rest) (hg : s.storesGranted n = true) :
    s.cpCommit n = (s.updCore n.toNat (fun c => { c with block := rest })).eoi n src :=
  State.cpCommit_performs hr hb (if_pos hg)

/-- Settles O59, by whether the source is active on the core once the operation has left its starting block. -/
theorem endOfInterrupt : Obligations.EndOfInterrupt := by
  refine ⟨?active, ?inactive⟩
  case active =>
    intro s n src rest hr hb hg ha hn
    let u := s.updCore n.toNat (fun c => { c with block := rest })
    have hu : u.core n.toNat = { s.core n.toNat with block := rest } := s.core_updCore_self _ hn
    have hau : src ∈ (u.core n.toNat).active := by rwa [hu]
    have ht : (u.eoi n src).core n.toNat =
        { s.core n.toNat with block := rest, active := dropFrom (s.core n.toNat).active src, result := 0 } := by
      rw [State.eoi_core hau (by simpa [u] using hn), hu]
    have hprio : (u.eoi n src).icuPrio = s.icuPrio := State.icuPrio_congr (State.eoi_regs u n src)
    refine ⟨u.eoi n src, done_eq (State.cpCommit_eoi hr hb hg), ?_, ?_, ?_, ?_, State.eoi_pends hau⟩
    · simp [ht, mem_dropFrom]
    · rw [ht]
    · intro x hx
      simp [ht, mem_dropFrom, hx]
    · rw [State.corePrio, hprio, ht, dropFrom]
  case inactive =>
    intro s n src rest hr hb hg ha
    have hn : n.toNat < s.icu.cores.length := State.core_listed (by simp [hb])
    refine done_eq ((State.cpCommit_eoi hr hb hg).trans (State.eoi_inactive ?_))
    rwa [State.core_updCore_self _ _ hn]

/-- Settles O37: an issue by the room in the starting block and the range of the operands, a commit by what the target does. -/
theorem coprocessorPort : Obligations.CoprocessorPort := by
  refine ⟨?time, ?xlate, ?locktry, ?lockacq, ?lockrel, ?eoi, ?tpr, ?tprRange, ?maskwin, ?ipi, ?commitTpr, ?commitTry,
    ?squash, ?refused⟩
  case time =>
    intro s n h
    exact done_eq (State.cpPort_issues h _)
  case xlate =>
    intro s n x y h hx hr
    exact done_eq (State.cpXlate_probes h hx hr y)
  case locktry =>
    intro s n x h
    exact done_eq (State.cpEnter_inRange h rfl _)
  case lockacq =>
    intro s n x y h
    exact done_eq (State.cpEnter_inRange h rfl _)
  case lockrel =>
    intro s n x h
    exact done_eq (State.cpEnter_inRange h rfl _)
  case eoi =>
    intro s n x h
    exact done_eq (State.cpEnter_inRange h rfl _)
  case tpr =>
    intro s n x h hx
    exact done_eq (State.cpEnter_inRange h (decide_eq_true hx) _)
  case tprRange =>
    intro s n x h hx
    exact done_eq (State.cpEnter_outOfRange h (decide_eq_false (Nat.not_le.mpr hx)) _)
  case maskwin =>
    intro s n x y h hx hy
    exact done_eq (State.cpEnter_inRange h (decide_eq_true ⟨hx, hy⟩) _)
  case ipi =>
    intro s n x h
    exact done_eq (State.cpEnter_inRange h rfl _)
  case commitTpr =>
    intro s n v rest hr hb
    exact done_eq (State.cpCommit_performs hr hb rfl)
  case commitTry =>
    intro s n k rest hr hb u hu
    exact done_eq (State.cpCommit_performs hr hb (if_pos hu))
  case squash =>
    intro s n k hr
    exact done_eq (State.falseStart_squashes k hr)
  case refused =>
    intro s n a k hr hp
    exact done_eq (State.ccBusErr_write hr hp)

/-! ## Offers of the interrupt controller (R506 to R511) and locks of cores (R513 to R515) -/

section Offers

variable {s : State} {n : CoreId} {src : Nat}

/-- The most urgent source goes to its core where that core holds no other offer. -/
theorem State.icuOffer_offers {k : Nat} (hr : s.runs Blk.icu = true)
    (hs : leastBy (fun n => s.icuPrio n * 1024 + n) s.offerable = some src) (hk : s.offerCore src = some k)
    (ho : (s.core k).offer = none) :
    let u := s.updCore k (fun c => { c with offer := some src, offerAt := s.now, withdrawing := false })
    s.icuOffer = { u with icu := { u.icu with last := u.icu.last.put src k } } := by
  simp only [State.icuOffer, hr, hs, hk, ho, Option.isSome_none, Bool.not_true, Bool.false_eq_true, if_false]

theorem State.offerAccept_takes (ho : (s.core n.toNat).offer = some src) (hr : s.coreRuns n = true)
    (hw : (s.core n.toNat).withdrawing = false) : s.offerAccept n = s.offerTake n src := by
  simp only [State.offerAccept, ho, hr, hw, Bool.not_false, and_self, if_true]

theorem State.offerTimeout_due (ho : (s.core n.toNat).offer = some src) (hw : (s.core n.toNat).withdrawing = false)
    (ht : s.ce .icuCtrl 15 0 ≤ s.since (s.core n.toNat).offerAt) :
    s.offerTimeout n = s.updCore n.toNat (fun x => { x with withdrawing := true }) :=
  if_pos ⟨by rw [ho]; rfl, by rw [hw]; rfl, ht⟩

/-- A core whose offer is being withdrawn may still have taken it. -/
theorem State.withdrawAnswer_accepted (ho : (s.core n.toNat).offer = some src) (hw : (s.core n.toNat).withdrawing = true) :
    s.withdrawAnswer n true = s.offerTake n src := by
  simp only [State.withdrawAnswer, ho, hw, Bool.not_true, Bool.false_eq_true, if_false, if_true]

theorem State.withdrawAnswer_withdrawn (ho : (s.core n.toNat).offer = some src) (hw : (s.core n.toNat).withdrawing = true) :
    let u := s.updCore n.toNat (fun x => { x with offer := none, withdrawing := false })
    s.withdrawAnswer n false = { u with icu := { u.icu with last := u.icu.last.put src n.toNat } } := by
  simp only [State.withdrawAnswer, ho, hw, Bool.not_true, Bool.false_eq_true, if_false]

theorem State.maskExpire_reached (ho : (s.core n.toNat).winOpen = true) (he : s.reached (s.core n.toNat).winEnd = true) :
    s.maskExpire n = (s.updCore n.toNat (fun x => { x with winOpen := false, mth := 256 })).raise
      { src := Src.icuMaskExpire, who := .core n } :=
  if_pos ⟨ho, he⟩

/-- A source that has waited 100 us without a target is recorded once. -/
theorem State.noTargetCmd_due {t : DWord} (hl : s.icu.noTarget.look src = some (t, false)) (ht : 100000 ≤ s.since t) :
    s.noTargetCmd src = ({ s with icu := { s.icu with noTarget := s.icu.noTarget.put src (t, true) } } : State).raise
      { src := Src.icuNoTarget, synd := BitVec.ofNat 160 src } := by
  simp only [State.noTargetCmd, hl]
  exact if_pos ht

/-- A core may set the sources 0 to 15 and 128 and above. -/
theorem State.icuSwset_core (ha : Arrives s (.core n) (regAddr .icuSwset [])) (hs : src < 16 ∨ 128 ≤ src) :
    s.icuSwset (.core n) src = s.icuPulse src := by
  have hok : (Who.isCore (.core n) && (decide (src < 16) || decide (128 ≤ src))) = true := by simpa [Who.isCore] using hs
  rw [State.icuSwset, hok]
  exact ha.write _

/-- A core's request of LKT_REQ is answered with its operation's code. -/
theorem State.lktReq_core (k : BitVec 12) (op : State → LockOwner → DWord × State)
    (ha : Arrives s (.core n) (regAddr .lktReq [])) (hr : s.runs Blk.lkt = true) :
    s.lktReq (.core n) k op = (op s (.core n)).2.lktKeep (.core n) k (op s (.core n)).1 := by
  refine (ha.write _).trans ?_
  simp only [State.lktOwner, hr, Bool.not_true, Bool.false_eq_true, if_false]

/-- A wait whose limit has come leaves with code 5. -/
theorem State.lockTimeout_reached {o : LockOwner} {w : LkWaiter} {e : DWord}
    (hf : s.lkt.waiters.find? (fun w => w.who.same o) = some w) (hl : w.limit = some e) (he : s.reached e = true) :
    s.lockTimeout o = ({ s with lkt := { s.lkt with
      waiters := s.lkt.waiters.filter (fun x => !x.who.same o) } } : State).lkReply w.who 5 := by
  simp only [State.lockTimeout, hf, hl, he, if_true]

end Offers

/-- Settles O38: each command's premises are the ones under which its effect takes place. -/
theorem offersAndLocks : Obligations.OffersAndLocks := by
  refine ⟨?offer, ?accept, ?timeout, ?taken, ?withdrawn, ?window, ?noTarget, ?swset, ?lockTry, ?lockRel, ?lockWait⟩
  case offer =>
    intro s src n hr hs hk ho u
    exact done_eq (State.icuOffer_offers hr hs hk ho)
  case accept =>
    intro s n src ho hr hw
    exact done_eq (State.offerAccept_takes ho hr hw)
  case timeout =>
    intro s n src ho hw ht
    exact done_eq (State.offerTimeout_due ho hw ht)
  case taken =>
    intro s n src ho hw
    exact done_eq (State.withdrawAnswer_accepted ho hw)
  case withdrawn =>
    intro s n src ho hw u
    exact done_eq (State.withdrawAnswer_withdrawn ho hw)
  case window =>
    intro s n ho he
    exact done_eq (State.maskExpire_reached ho he)
  case noTarget =>
    intro s src t hl ht
    exact done_eq (State.noTargetCmd_due hl ht)
  case swset =>
    intro s n src ha hs
    exact done_eq (State.icuSwset_core ha hs)
  case lockTry =>
    intro s n k ha hr r
    exact done_eq (State.lktReq_core k _ ha hr)
  case lockRel =>
    intro s n k ha hr r
    exact done_eq (State.lktReq_core k _ ha hr)
  case lockWait =>
    intro s n c q w e hf hl he
    exact done_eq (State.lockTimeout_reached hf hl he)

end Sys2Proof.Machine

/-! ## The block as a whole: what settling changes, the state after reset, and the front of the queue (R505, R511, R568) -/

namespace Sys2Proof.Machine

/-! The level sources that FLC drives change which sources are pending and their causes, each its own. -/

/-- The interrupt controller after a list of level sources has taken its levels. -/
def Icu.levels (x : Icu) (l : List (Nat × Bool)) : Icu := l.foldl (fun x e => x.level e.1 e.2) x

theorem Icu.levels_frame (l : List (Nat × Bool)) (x : Icu) :
    x.levels l = { x with pend := (x.levels l).pend, causes := (x.levels l).causes } := by
  induction l generalizing x with
  | nil => rfl
  | cons e l ih =>
    refine (ih (x.level e.1 e.2)).trans ?_
    cases h : e.2 <;> simp [Icu.levels, Icu.level, h]

theorem Icu.mem_level_pend {k n : Nat} (h : k ≠ n) (x : Icu) (b : Bool) : k ∈ (x.level n b).pend ↔ k ∈ x.pend := by
  cases b with
  | false => simp [Icu.level, mem_dropFrom, h]
  | true =>
    simp only [Icu.level, if_true]
    split
    · rfl
    · simp [mem_addTo, h]

theorem Icu.mem_levels_pend {k : Nat} {l : List (Nat × Bool)} (h : k ∉ l.map Prod.fst) (x : Icu) :
    k ∈ (x.levels l).pend ↔ k ∈ x.pend := by
  induction l generalizing x with
  | nil => rfl
  | cons e l ih =>
    rw [List.map_cons, List.mem_cons, not_or] at h
    exact (ih h.2 _).trans (Icu.mem_level_pend h.1 x e.2)

/-- FLC drives the sources 32 to 46. -/
theorem State.flcSources_numbers (s : State) : s.flcSources.map Prod.fst = List.range' 32 15 := rfl

/-- Bringing the interrupt lines up to date changes which sources are pending, their causes, and the sources without a
target. -/
theorem State.icuFollow_frame (s : State) :
    s.icuFollow = { s with icu := { s.icu with pend := s.icuFollow.icu.pend, causes := s.icuFollow.icu.causes,
                                               noTarget := s.icuFollow.icu.noTarget } } :=
  congrArg (fun x : Icu => { s with icu := { x with noTarget := s.icuFollow.icu.noTarget } }) (Icu.levels_frame s.flcSources s.icu)

/-- A source that FLC does not drive stays as pending as it was. -/
theorem State.mem_icuFollow_pend {n : Nat} (h : n < 32 ∨ 46 < n) (s : State) : n ∈ s.icuFollow.icu.pend ↔ n ∈ s.icu.pend :=
  Icu.mem_levels_pend (by rw [State.flcSources_numbers, List.mem_range'_1]; omega) s.icu

/-- Settles O55: with nothing to react to, settling only brings the interrupt lines up to date. -/
theorem settlingChangesLinesOnly : Obligations.SettlingChangesLinesOnly := by
  intro s ht hl
  rw [State.settle_calm s ht hl]
  exact ⟨s.icuFollow_frame, fun n hn => State.mem_icuFollow_pend hn s⟩

/-! The reset state: FLC shows nothing, and no source is pending. -/

theorem State.reset_flcSources : ∀ e ∈ State.reset.flcSources, e.2 = false := by decide

/-- Where FLC shows nothing and no source has a cause or is pending, the lines follow their causes. -/
theorem linesFollow_of_none {s : State} (h : ∀ e ∈ s.flcSources, e.2 = false) (hc : s.icu.causes = []) (hp : s.icu.pend = []) :
    LinesFollow s := by
  intro e he
  simp [h e he, hc, hp]

/-- Where no source is pending, none waits without a target. -/
theorem targetlessKnown_of_none {s : State} (hp : s.icu.pend = []) (hn : s.icu.noTarget = []) : TargetlessKnown s := by
  intro n
  simp [State.icuReady, hp, hn, Map.look]

/-- Settles O52: after reset FLC shows nothing, and ICU and the queue are empty. -/
theorem resetIsSettled : Obligations.ResetIsSettled :=
  ⟨⟨rfl, linesFollow_of_none State.reset_flcSources rfl rfl⟩, targetlessKnown_of_none rfl rfl, rfl⟩

/-! One step by what waits. -/

theorem step_front {s : State} {c : Instr} {rest : List Instr} (h : s.pending = c :: rest) :
    step s = exec c { s with pending := rest } := by
  simp only [step, h]

theorem step_idle {s : State} (h : s.pending = []) : step s = .next s.tick := by
  simp only [step, h]

/-- Where no block waits for its old work and no paused link goes on, a tick only lets time pass. -/
theorem State.tick_quiet {s : State} (hw : s.ceWait = []) (hp : ∀ e ∈ s.ofp.links, e.2.pauseTill ≠ s.now + 1) :
    s.tick = { s with now := s.now + 1 } := by
  have hnone : s.ofp.links.any (fun e => e.2.pauseTill == s.now + 1) = false :=
    List.any_eq_false.mpr (fun e he => by simpa using hp e he)
  simp only [State.tick, hw, hnone, List.isEmpty_nil, Bool.not_false, Bool.and_self, if_true]

/-- Settles O47, by whether a command waits. -/
theorem stepRunsFrontCommand : Obligations.StepRunsFrontCommand :=
  ⟨fun _ _ _ h => step_front h, fun _ _ => step_front rfl, fun _ h => step_idle h, fun _ hw hp => State.tick_quiet hw hp⟩

end Sys2Proof.Machine

/-! ## The test access port (R617, R618) -/

namespace Sys2Proof.Machine

/-- A cycle of TCK acts by the controller's state, moves it, and selects IDCODE in Test-Logic-Reset. -/
theorem State.tapTck_powered {s : State} (tms tdi : Bool) (hp : s.powered = true) :
    let u := s.tapAct tdi
    let n := u.tap.st.next tms
    s.tapTck tms tdi = { u with tap := { u.tap with st := n, instr := if n = .reset then .idcode else u.tap.instr } } := by
  simp only [State.tapTck, hp, Bool.not_true, Bool.false_eq_true, if_false]

theorem TapSt.next_five_high (t : TapSt) : ((((t.next true).next true).next true).next true).next true = .reset := by
  cases t <;> rfl

theorem State.tapActs_extest {s : State} (h : s.tap.instr = .extest) : s.tapActs = .extest ↔ s.rpc.rstPin = false := by
  cases hp : s.rpc.rstPin <;> simp [State.tapActs, h, hp]

theorem State.tapCapture_idcode {s : State} (h : s.tapActs = .idcode) : s.tapCapture.tap.dr = bitList idcode 32 := by
  simp only [State.tapCapture, h]

/-- IDCODE as a function of the word that stands for its bits outside the part and bit 0, which R618 leaves open. -/
def idcodeOf (rest : Word) : Nat := rest.toNat / 2 ^ 28 * 2 ^ 28 + 0x2A71 * 2 ^ 12 + rest.toNat % 2 ^ 12 / 2 * 2 + 1

theorem idcode_eq_idcodeOf : idcode = idcodeOf Config.tapIdRest := rfl

theorem idcodeOf_odd (rest : Word) : idcodeOf rest % 2 = 1 := by
  rw [idcodeOf]
  omega

theorem idcodeOf_part (rest : Word) : idcodeOf rest / 4096 % 65536 = 0x2A71 := by
  rw [idcodeOf]
  omega

/-- Settles O46: each cycle by the controller's state, and the five cycles by each of its states. -/
theorem testAccessPort : Obligations.TestAccessPort := by
  refine ⟨?cycle, ?trst, TapSt.next_five_high, ?extest, ?capture⟩
  case cycle =>
    intro s tms tdi hp
    exact done_eq (State.tapTck_powered tms tdi hp)
  case trst =>
    intro s
    exact done_eq rfl
  case extest =>
    intro s h
    exact State.tapActs_extest h
  case capture =>
    intro s h
    rw [idcode_eq_idcodeOf]
    exact ⟨State.tapCapture_idcode h, idcodeOf_odd _, idcodeOf_part _⟩

end Sys2Proof.Machine

/-! ## Faults and their log (R560, R562, R570 to R576, R614) -/

namespace Sys2Proof

open Machine

/-- A write by a control core or an operator's session that arrives is made. -/
theorem Arrives.write_coreOrOperator {s : State} {w : Who} {r : RegName} {ix : List Nat} (h : Arrives s w (regAddr r ix))
    (hw : s.coreOrOperator w = true) (f : State → State) : s.writeBy (s.coreOrOperator w) w r ix f = f s := by
  rw [hw, h.write]

/-- A write by the primary recovery core of a register that is its own is made. -/
theorem Arrives.write_primary {s : State} {r : RegName} {ix : List Nat} (h : Arrives s (.core s.primaryCore) (regAddr r ix))
    (f : State → State) : s.writeBy (decide (Who.core s.primaryCore = .core s.primaryCore)) (.core s.primaryCore) r ix f = f s := by
  rw [decide_eq_true rfl, h.write]

end Sys2Proof

namespace Sys2Proof.Machine

section FaultLog

variable {s : State} {n : Nat} {r : FRec}

theorem State.faultDetect_raises {f : FaultIn} (hf : f.forced = false) (hs : f.src ≠ Src.rcBothLost) :
    s.faultDetect f = s.raise f :=
  if_neg (by simp [hf, hs])

/-! The next capture, by the log that it can enter. -/

theorem State.logWrite_enters (hr : s.runs Blk.flc = true) (hc : s.captureNext = some (n, r)) (hg : s.flc.lastgasp = false)
    (hl : s.logFull = false) :
    s.logWrite false = ({ s with flc := { s.flc with
      capture := s.flc.capture.del n, rot := n
      log := s.flc.log.put (s.flc.prod.toNat % logMax) r.bits, prod := s.flc.prod + 1 } } : State).spillFollow := by
  simp only [State.logWrite, hr, hc, hg, hl, Bool.not_true, Bool.false_eq_true, if_false]

theorem State.logWrite_full (bad : Bool) (hr : s.runs Blk.flc = true) (hc : s.captureNext = some (n, r))
    (hg : s.flc.lastgasp = false) (hl : s.logFull = true) :
    s.logWrite bad = { s with flc := { s.flc with
      capture := s.flc.capture.del n, rot := n, drop := satInc s.flc.drop } } := by
  simp only [State.logWrite, hr, hc, hg, hl, Bool.not_true, Bool.false_eq_true, if_false, if_true]

theorem State.logWrite_lastGasp (bad : Bool) (hr : s.runs Blk.flc = true) (hc : s.captureNext = some (n, r))
    (hg : s.flc.lastgasp = true) :
    s.logWrite bad = ({ s with flc := { s.flc with capture := s.flc.capture.del n, rot := n } } : State).lgPut r.bits := by
  simp only [State.logWrite, hr, hc, hg, Bool.not_true, Bool.false_eq_true, if_false, if_true]

/-! A block of records is due for the spill. -/

/-- What the spill waits for: it runs, FTC is mounted, and a whole block of records stands in the log. -/
structure SpillDue (s : State) : Prop where
  running : s.spills = true
  mounted : s.ftc.mounted = true
  whole : spillBlock ≤ Flc.span s.flc.prod s.flc.spill

theorem SpillDue.guard (h : SpillDue s) :
    ¬ ((!s.spills) = true ∨ (!s.ftc.mounted) = true ∨ Flc.span s.flc.prod s.flc.spill < spillBlock) := by
  simp [h.running, h.mounted, h.whole]

theorem SpillDue.pass (h : SpillDue s) :
    let recs := (rangeFrom s.flc.spill.toNat spillBlock).map (fun i => (s.flc.log.look (i % 2 ^ 32 % logMax)).getD 0)
    let all := s.ftc.zone.spills ++ [(s.ftc.zone.spillSeq, recs)]
    s.spillWrite .pass = { s with
      flc := { s.flc with spill := s.flc.spill + BitVec.ofNat 32 spillBlock }
      ftc := { s.ftc with zone := { s.ftc.zone with
        spills := if all.length > spillUnits then all.drop 1 else all, spillSeq := s.ftc.zone.spillSeq + 1 } } } :=
  if_neg h.guard

theorem SpillDue.fail (h : SpillDue s) :
    s.spillWrite .fail = (({ s with flc := { s.flc with spillStop := true } } : State).spillFollow).raise
      { src := Src.logSpillFail } :=
  if_neg h.guard

/-! Registers of the log. -/

section Registers

variable {w : Who}

theorem State.logConsume_arrives (v : Word) (ha : Arrives s w (regAddr .flcLogCons [])) (hw : s.coreOrOperator w = true) :
    s.logConsume w v = if Flc.span v s.flc.cons ≤ Flc.span s.flc.prod s.flc.cons then { s with flc := { s.flc with cons := v } }
      else s.cfgReject w (regAddr .flcLogCons []) :=
  ha.write_coreOrOperator hw _

/-- A record that is read without an error goes to the reader as 16 words. -/
theorem State.logRead_words (i : Word) (ha : Arrives s w (regAddr .flcLogRidx [])) (hw : s.coreOrOperator w = true) :
    let r := ((s.flc.log.look (i.toNat % logMax)).getD 0).toNat
    s.logRead w i false = forAll (rangeFrom 0 16) (s.putReg .flcLogRidx [] i.toNat) (fun u k =>
      u.emit (.coreVal w (BitVec.ofNat 32 (r / 2 ^ (32 * k))))) := by
  rw [State.logRead, hw]
  exact ha.write _

theorem State.logResume_primary (pass : Bool) (ha : Arrives s (.core s.primaryCore) (regAddr .flcLogResume [])) :
    s.logResume (.core s.primaryCore) pass = if pass then { s with flc := { s.flc with
      cons := s.flc.prod, spill := s.flc.prod, log := [], lastgasp := false } } else s :=
  ha.write_primary _

/-- A command that an operator's session gives while an image runs is served. -/
theorem State.byOperator_served (ho : s.operatorHere = true) (hb : s.rpc.bootSt ≠ 3) (f : State → State) :
    s.byOperator f = f s :=
  (State.bySession_here ho _).trans (if_neg hb)

theorem State.flcAck_arrives (k : BitVec 9) (ha : Arrives s w (regAddr .flcAck [])) (hw : s.coreOrOperator w = true) :
    s.flcAck w k = { s with flc := { s.flc with unclr := s.flc.unclr.filter (fun u => decide (u.1 ≠ k.toNat)) } } :=
  ha.write_coreOrOperator hw _

/-- A forced fault for which FLC_FORCE_TGT names neither a context nor a queue. -/
theorem State.faultForce_untargeted {k : BitVec 9} (ha : Arrives s w (regAddr .flcSrcCfg [k.toNat]))
    (hw : s.coreOrOperator w = true) (hk : s.srcWritable k = true) (hc : s.rf .flcForceTgt 31 31 = 0)
    (hq : s.rf .flcForceTgt 30 30 = 0) :
    s.faultForce w k = s.raise { src := k, who := w, forced := true } := by
  rw [State.faultForce, hw, hk, Bool.and_self, ha.write]
  simp [hc, hq]

theorem State.faultPolicy_written {k : BitVec 9} {lv : BitVec 3} (cl : BitVec 2)
    (ha : Arrives s w (regAddr .flcSrcCfg [k.toNat])) (hw : s.coreOrOperator w = true) (hk : s.srcWritable k = true)
    (hl : lv.toNat ≤ 4) (hq : s.rpc.quar = false) :
    s.faultPolicy w k lv cl = { s with flc := { s.flc with srcCfg := s.flc.srcCfg.put k.toNat (cl, lv) } } := by
  rw [State.faultPolicy, if_neg (by simp [hq]), hw, hk, decide_eq_true hl]
  exact ha.write _

end Registers

/-- A core's access to an island without power ends with an error, and the fault names the island. -/
theorem State.islandTimeout_core {n : CoreId} {i : Nat} (acc : Acc) (a : DWord) (ho : s.islandOn i = false) (hi : i ≤ 95) :
    s.islandTimeout (.core n) i acc a = (s.emit (.coreErr n)).raise
      { src := Src.islandOff, who := .core n, addr := a, acc := acc, akind := .ccpa, synd := BitVec.ofNat 160 i
        blk := some (BitVec.ofNat 5 (islandBlock i)) } :=
  if_neg (by simp [ho, hi])

end FaultLog

/-- Settles O27: the next capture by the log that it can enter, a spill by its outcome, and each register by who writes it. -/
theorem faultLog : Obligations.FaultLog := by
  refine ⟨?detect, ?enters, ?full, ?lastGasp, ?spilled, ?spillFails, ?consume, ?read, ?resume, ?lgclear, ?ack, ?force, ?policy,
    ?island⟩
  case detect =>
    intro s f hf hs
    exact done_eq (State.faultDetect_raises hf hs)
  case enters =>
    intro s n r hr hc hg hl
    exact done_eq (State.logWrite_enters hr hc hg hl)
  case full =>
    intro s b n r hr hc hg hl
    exact done_eq (State.logWrite_full b hr hc hg hl)
  case lastGasp =>
    intro s b n r hr hc hg
    exact done_eq (State.logWrite_lastGasp b hr hc hg)
  case spilled =>
    intro s hs hm hn recs all
    exact done_eq (SpillDue.pass ⟨hs, hm, hn⟩)
  case spillFails =>
    intro s hs hm hn
    exact done_eq (SpillDue.fail ⟨hs, hm, hn⟩)
  case consume =>
    intro s w v ha hw
    exact done_eq (State.logConsume_arrives v ha hw)
  case read =>
    intro s w i ha hw r
    exact done_eq (State.logRead_words i ha hw)
  case resume =>
    intro s p ha
    exact done_eq (State.logResume_primary p ha)
  case lgclear =>
    intro s ho hb
    exact done_eq (State.byOperator_served ho hb _)
  case ack =>
    intro s w k ha hw
    exact done_eq (State.flcAck_arrives k ha hw)
  case force =>
    intro s w k ha hw hk hc hq
    exact done_eq (State.faultForce_untargeted ha hw hk hc hq)
  case policy =>
    intro s w k lv cl ha hw hk hl hq
    exact done_eq (State.faultPolicy_written cl ha hw hk hl hq)
  case island =>
    intro s n i acc a ho hi
    exact done_eq (State.islandTimeout_core acc a ho hi)

end Sys2Proof.Machine

/-! ## Recovery controllers and resets of units (R13, R351, R577 to R581, R586, R602) -/

namespace Sys2Proof.Machine

section Recovery

variable {s : State}

/-- CC0's heartbeat: its standby is no longer lost where CC15 is the primary, and an armed monitor starts with the second of
the two cores to beat. -/
theorem State.heartbeat_cc0 (ha : Arrives s (.core 0) (regAddr .flcRcHb0 [])) :
    s.heartbeat 0 false = { s with flc := { s.flc with
      beat0 := some s.now, monitor := s.flc.monitor || (s.flc.arm && s.flc.beat15.isSome)
      standbyLost := if s.flc.primary then false else s.flc.standbyLost } } := by
  refine (ha.write _).trans ?_
  cases s.flc.primary <;> simp

theorem State.rcArm_arrives {w : Who} (ha : Arrives s w (regAddr .flcRcCtrl [])) (hw : s.coreOrOperator w = true) :
    s.rcArm w = { s with flc := { s.flc with arm := true, monitor := true } } :=
  ha.write_coreOrOperator hw _

/-- A silent primary is replaced by a standby that beats, and held. -/
theorem State.rcTakeover_due (hm : s.watches = true) (hp : s.silent s.flc.primary = true)
    (hs : s.silent (!s.flc.primary) = false) :
    s.rcTakeover = (({ s with flc := { s.flc with primary := !s.flc.primary, standbyLost := true } } : State).holdCore
      (rcCore s.flc.primary).toNat).raise { src := Src.rcTakeover } :=
  if_neg (by simp [hm, hp, hs])

/-- A silent standby of a primary that beats is recorded once. -/
theorem State.rcStandbyLost_due (hm : s.watches = true) (hp : s.silent s.flc.primary = false)
    (hs : s.silent (!s.flc.primary) = true) (hl : s.flc.standbyLost = false) :
    s.rcStandbyLost = ({ s with flc := { s.flc with standbyLost := true } } : State).raise { src := Src.rcStandbyLost } :=
  if_neg (by simp [hm, hp, hs, hl])

/-- Once both recovery cores are silent, every core is held and every link frozen. -/
theorem State.fallbackHold_due {u : State} (hm : s.watches = true) (h0 : s.silent false = true) (h15 : s.silent true = true)
    (hu : u = forAll allLinks (forAll allCores (s.raise { src := Src.rcBothLost }) State.holdCore)
      (fun t l => t.freezeLink l 0xFE)) :
    s.fallbackHold = { u with flc := { u.flc with fallback := true } } := by
  simp only [State.fallbackHold, hm, h0, h15, hu, Bool.not_true, Bool.or_self, Bool.false_eq_true, if_false]

theorem State.rcRestart_primary (ha : Arrives s (.core s.primaryCore) (regAddr .flcRcCtrl [])) :
    s.rcRestart (.core s.primaryCore) = s.updCore (rcCore (!s.flc.primary)).toNat (fun c => { c with held := false }) :=
  ha.write_primary _

/-- RECOVER over an operator's session ends a hold: CC0 and CC15 run, and what watches them starts anew. -/
theorem State.recover_holding (ho : s.operatorHere = true) (hf : s.flc.fallback = true) :
    let run (c : Core) : Core := { c with held := false }
    let u := (s.updCore 0 run).updCore 15 run
    s.recover = { u with
      flc := { u.flc with fallback := false, monitor := false, beat0 := none, beat15 := none }
      rpc := { u.rpc with released := u.now, kickAt := u.now } } :=
  (State.bySession_here ho _).trans (if_neg (by simp [hf]))

/-- The primary releases a frozen region, which is reset. -/
theorem State.releaseRegion_frozen {r : Nat} (ha : Arrives s (.core s.primaryCore) (regAddr .flcRelease []))
    (hf : (s.putReg .flcRelease [] r).regionFrozen r = true) :
    let u := ((s.putReg .flcRelease [] r).regionReset r).rstCause 3 9 (5 * 256 + r)
    s.releaseRegion (.core s.primaryCore) r = { u with flc := { u.flc with regions := dropFrom u.flc.regions r } } :=
  (ha.write_primary _).trans (if_neg (by simp [hf]))

/-- A reset command of the primary for a unit of a region that is not frozen; no core commands its own reset. -/
theorem State.rstCmd_resets {kind idx region : Nat} (f : State → State)
    (ha : Arrives s (.core s.primaryCore) (regAddr .rpcRstCmd [])) (he : s.enabled Blk.rpc = true)
    (hself : kind ≠ 4 ∨ s.primaryCore ≠ BitVec.ofNat 4 idx)
    (hr : (s.putReg .rpcRstCmd [] (kind * 256 + idx)).regionFrozen region = false) :
    s.rstCmd (.core s.primaryCore) kind idx region f =
      (f (s.putReg .rpcRstCmd [] (kind * 256 + idx))).rstCause (if kind = 6 then 2 else 1) 9 (kind * 256 + idx) := by
  have hok : (decide (Who.core s.primaryCore = .core s.primaryCore) && s.enabled Blk.rpc &&
      !(kind == 4 && decide (Who.core s.primaryCore = .core (BitVec.ofNat 4 idx)))) = true := by
    simpa [he] using hself
  rw [State.rstCmd, hok, ha.write]
  exact if_neg (by simp [hr])

/-- A reset command for a unit that is no core. -/
theorem State.rstCmd_unit {kind idx region : Nat} (f : State → State) (hk : kind ≠ 4)
    (h : Arrives s (.core s.primaryCore) (regAddr .rpcRstCmd []) ∧ s.enabled Blk.rpc = true ∧
      (s.putReg .rpcRstCmd [] (kind * 256 + idx)).regionFrozen region = false) :
    s.rstCmd (.core s.primaryCore) kind idx region f =
      (f (s.putReg .rpcRstCmd [] (kind * 256 + idx))).rstCause (if kind = 6 then 2 else 1) 9 (kind * 256 + idx) := by
  obtain ⟨ha, he, hr⟩ := h
  exact State.rstCmd_resets f ha he (.inl hk) hr

end Recovery

/-- Settles O39: the recovery cores by who is silent, and each reset of a unit by one rule for reset commands. -/
theorem recoveryAndUnitResets : Obligations.RecoveryAndUnitResets := by
  refine ⟨⟨?heartbeat, ?arm, ?takeover, ?standby, ?hold, ?restart, ?recover, ?release⟩, ?units⟩
  case heartbeat =>
    intro s ha
    exact done_eq (State.heartbeat_cc0 ha)
  case arm =>
    intro s w ha hw
    exact done_eq (State.rcArm_arrives ha hw)
  case takeover =>
    intro s hm hp hs
    exact done_eq (State.rcTakeover_due hm hp hs)
  case standby =>
    intro s hm hp hs hl
    exact done_eq (State.rcStandbyLost_due hm hp hs hl)
  case hold =>
    intro s hm h0 h15 u
    exact done_eq (State.fallbackHold_due hm h0 h15 rfl)
  case restart =>
    intro s ha
    exact done_eq (State.rcRestart_primary ha)
  case recover =>
    intro s ho hf run u
    exact done_eq (State.recover_holding ho hf)
  case release =>
    intro s r ha hf u
    exact done_eq (State.releaseRegion_frozen ha hf)
  case units =>
    intro may at_
    refine ⟨?engine, ?mover, ?walkers, ?lanes, ?core, ?cluster⟩
    case engine =>
      intro s k h
      exact done_eq (State.rstCmd_unit _ (by decide) h)
    case mover =>
      intro s k h
      exact done_eq (State.rstCmd_unit _ (by decide) h)
    case walkers =>
      intro s k h
      exact done_eq (State.rstCmd_unit _ (by decide) h)
    case lanes =>
      intro s k h
      exact done_eq (State.rstCmd_unit _ (by decide) h)
    case core =>
      intro s k ⟨ha, he, hr⟩ hk
      exact done_eq (State.rstCmd_resets _ ha he (.inr (by simpa using hk.symm)) hr)
    case cluster =>
      intro s k h
      exact done_eq (State.rstCmd_unit _ (by decide) h)

end Sys2Proof.Machine

/-! ## Resets of the die (R584, R585, R587 to R590, R594, R598, R600) -/

namespace Sys2Proof.Machine

section DieResets

variable {s : State}

/-- RST_N that falls begins a cold reset. -/
theorem State.rstAssert_falls (hp : s.powered = true) (hr : s.rpc.rstPin = true) :
    s.rstAssert = ({ s with rpc := { s.rpc with rstPin := false } } : State).coldReset 1 :=
  if_neg (by simp [hp, hr])

/-- WRST_N that falls while RST_N is high begins a warm reset. -/
theorem State.wrstAssert_falls (hp : s.powered = true) (hw : s.rpc.wrstPin = true) (hr : s.rpc.rstPin = true) :
    s.wrstAssert = ({ s with rpc := { s.rpc with wrstPin := false } } : State).dieReset 2 0 none := by
  simp only [State.wrstAssert, hp, hw, hr, Bool.not_true, Bool.or_self, Bool.false_eq_true, if_false]

theorem execRstNRelease_rises (hr : s.rpc.rstPin = false) : execRstNRelease s = .next (s.pinRise true s.rpc.wrstPin).settle :=
  done_eq (if_neg (by simp [hr]))

theorem execWrstNRelease_rises (hw : s.rpc.wrstPin = false) : execWrstNRelease s = .next (s.pinRise s.rpc.rstPin true).settle :=
  done_eq (if_neg (by simp [hw]))

theorem State.bootExpire_due (hb : s.rpc.bootRun = true) (hd : s.rpc.done = false) (hi : s.rpc.inReset = false)
    (hf : s.flc.fallback = false) (hp : s.powered = true) (ht : bootWatch ≤ s.since s.rpc.released) :
    s.bootExpire = s.dieReset 6 1 none :=
  if_pos ⟨hb, by simp [hd], by simp [hi], by simp [hf], hp, ht⟩

theorem State.runExpire_due (he : s.rpc.wdogEn = true) (hi : s.rpc.inReset = false) (hf : s.flc.fallback = false)
    (ht : s.rf .rpcWdog 15 0 * 1000000 ≤ s.since s.rpc.kickAt) : s.runExpire = s.dieReset 6 0 none :=
  if_pos ⟨he, by simp [hi], by simp [hf], ht⟩

/-- A fault that asks for a die reset gets it once its record is safe. -/
theorem State.escalation_safe {n : Nat} (hn : s.flc.dieReset = some n) (hg : s.recordGone n = true) :
    s.escalation = s.dieReset 7 n (some n) := by
  simp only [State.escalation, hn, hg, if_true]

theorem State.rollback_served {w : Who} (hw : s.operator w = true) (hb : s.rpc.bootSt ≠ 3) (hm : s.ftc.mounted = true) :
    s.rollback w = ({ s with ftc := { s.ftc with zone := { s.ftc.zone with
      selB := !s.ftc.zone.selB, selSeq := s.ftc.zone.selSeq + 1 } } } : State).dieReset 8 (whoIndex w) none := by
  simp only [State.rollback, hw, hb, hm, Bool.not_true, Bool.false_eq_true, or_self, if_false]

end DieResets

/-- Settles O40: each source of a die reset under its condition, and the writes of a core that arrive. -/
theorem dieResets : Obligations.DieResets := by
  refine ⟨?powerOn, ?rstLow, ?wrstLow, ?rstHigh, ?wrstHigh, ?boot, ?runtime, ?escalation, ?reset, ?rollback, ?kick, ?bootDone,
    ?quarantine, ?powerLoss⟩
  case powerOn =>
    intro s
    exact done_eq rfl
  case rstLow =>
    intro s hp hr
    exact done_eq (State.rstAssert_falls hp hr)
  case wrstLow =>
    intro s hp hw hr
    exact done_eq (State.wrstAssert_falls hp hw hr)
  case rstHigh =>
    intro s hr
    exact execRstNRelease_rises hr
  case wrstHigh =>
    intro s hw
    exact execWrstNRelease_rises hw
  case boot =>
    intro s hb hd hi hf hp ht
    exact done_eq (State.bootExpire_due hb hd hi hf hp ht)
  case runtime =>
    intro s he hi hf ht
    exact done_eq (State.runExpire_due he hi hf ht)
  case escalation =>
    intro s n hn hg
    exact done_eq (State.escalation_safe hn hg)
  case reset =>
    intro s w hw
    exact done_eq (if_pos hw)
  case rollback =>
    intro s w hw hb hm
    exact done_eq (State.rollback_served hw hb hm)
  case kick =>
    intro s n ha
    exact done_eq (ha.write _)
  case bootDone =>
    intro s n ha
    exact done_eq (ha.write _)
  case quarantine =>
    intro s n ha
    exact done_eq (ha.write _)
  case powerLoss =>
    intro s
    exact ⟨s.powerLoss, done_eq rfl, rfl, rfl, rfl, rfl, rfl, rfl⟩

end Sys2Proof.Machine
